-- ==== Sys2Proof/Word.lean ====
section
/-!
DEFINITION. The words of the machine.
-/

namespace Sys2Proof

/-- A byte of memory. -/
abbrev Byte := BitVec 8
/-- A 32-bit word: a lane, a counter, a compact number. -/
abbrev W32 := BitVec 32
/-- A 64-bit register or address. -/
abbrev Word := BitVec 64
/-- A v register: 128 lanes of 32 bits (05 R85). -/
abbrev Vec := BitVec 4096
/-- A mask register (05 R85). -/
abbrev Mask := BitVec 512

end Sys2Proof
end

