-- ==== Sys2Proof/Config.lean ====
section
/-!
DEFINITION. What the spec leaves open (opaque constants without a body that a proof can see) and the fixed figures of
the device.
-/

namespace Sys2Proof.Config

/-- A 64-bit value that the spec leaves open, drawn by number: what an e or q register shows between a word's issue and
its latency bound (05 R87, log 5). -/
opaque freeWord : Nat → Word
/-- A v register's value that the spec leaves open, drawn by number (05 R87, log 5). -/
opaque freeVec : Nat → Vec
/-- A mask that the spec leaves open, drawn by number (05 R87, log 5). -/
opaque freeMask : Nat → Mask
/-- A byte that the spec leaves open, drawn by number (logs 11, 13). -/
opaque freeByte : Nat → Byte
/-- CCLK that pass beyond the least possible, drawn by number (log 4). -/
opaque elapsed : Nat → Nat
/-- The torus node at which a unit beside the cells attaches: L2 slices from 0, Routers from 64, Exchange Engines from 68,
the X-die at 72, the ports to other devices from 73 (01 R9, R17; log 78). -/
opaque torusNode : Nat → Nat
/-- The number of a fenced unit by its kind in 18 Table 18.9 and its index there: the spec numbers no units (log 26). -/
opaque unitNumber : Nat → Nat → Nat
/-- The detail of STREAM for values received at a rendezvous, whose layout the spec does not state: n, p, K, MCONF of the
neighbour (09 R190, log 67). -/
opaque chainDetail : Nat → Nat → Word → Word → Word
/-- The bytes of the device description, whose fields 03 Table 3.7 lists and whose layout it does not give: device
number, usable cells, excluded cells, fenced functions, security version, certificates, domain form, failing step. -/
opaque descriptionBytes :
  Nat × Nat × List (Nat × Nat) × List (Nat × Nat) × Nat × List Byte × Option Nat × Option Nat → List Byte
/-- The bytes of the attestation report, whose fields 19 R385 lists and whose layout it does not give: serial number,
security version, measurements, nonce, signature. -/
opaque reportLayout : List Byte → Nat → List (List Byte) → List Byte → List Byte → List Byte
/-- A choice that the spec leaves open, drawn by the number of the step, what is chosen, and a number for each choice. -/
opaque pick : Nat → Nat → Nat → Nat
/-- SHA-384, used by ATTEST measurements (19 R385, log 14). -/
opaque sha384 : List Byte → List Byte
/-- The signature that ATTEST puts under a report (19 R385, log 14). -/
opaque signature : List Byte → List Byte

/-- What signed storage holds and boot reads (01 R15, 15 R303, 19 R385, R387; log 29). The device number is one of
`deviceNumber`. -/
opaque storedNumber : Nat
/-- Device number, 12 bits, 0 to 2,303 (15 R303). -/
def deviceNumber : Nat := storedNumber % 2304
/-- Physical positions that the repair map in signed storage excludes. -/
opaque repairMap : List Nat
/-- The system controller's firmware, the repair map and options, the Ethernet manifest and the job policy table: the
four stages that boot measures (19 R385). -/
opaque stage : Nat → List Byte
/-- The signature of stage 0 or 1 under the scheme of 00 R2, against the key digest in the boot ROM, is good. -/
opaque stageSigned : Nat → Bool
/-- The security version of the firmware, and the one held in signed storage. -/
opaque securityVersion : Nat
/-- The security version below which the boot ROM refuses firmware. -/
opaque storedVersion : Nat
/-- Addresses from which the Ethernet source filter of the manifest lets datagrams in; none where it lets all in (19
R386). -/
opaque sourceFilter : Option (List (List Byte))
/-- SHA-384 of the administrative credential (03 R58). -/
opaque adminDigest : List Byte
/-- The serial number of the device. -/
opaque serial : List Byte
/-- The certificate chain. -/
opaque certificates : List Byte
/-- Link training finds a domain of two tiers (15 R304). -/
opaque twoTiers : Bool
/-- Of the steps of bring-up after the repair map (HBM, links, Brugus: 3 to 5 in the list of 19 R387), the one that
fails, if one does. -/
opaque trainingFails : Option (Fin 3)
/-- What firmware sets the power cap to, in W above 1,000, and the power of a window of 1 ms in W above 0, drawn by number
(19 R388). -/
opaque capSet : Nat
/-- Power of a window in W, less 1. -/
opaque windowPower : Nat → Nat

/-- The detail of a fence in a completion record: [11:0] the cell, [31:16] the unit (19 Table 19.2). -/
def fenceDetail (kind index : Nat) : Nat := (if kind = 0 then index % 4096 else 0) + 65536 * (unitNumber kind index % 65536)

/-- Columns of the cell grid (01). -/
def cols : Nat := 24
/-- Rows of the cell grid (01). -/
def rows : Nat := 32
/-- Bytes of a scratchpad (11 R224). -/
def spadBytes : Nat := 1048576
/-- First byte of the hardware-managed area (11 R226). -/
def hwArea : Nat := 0xF0000
/-- Bytes of device memory: 512 GiB (11 R230). -/
def memBytes : Nat := 549755813888
/-- Least time between two issues of a Sequencer (04 R63). -/
def issueCclk : Nat := 1
/-- Handler budget in CCLK (04 R64). -/
def handlerBudget : Nat := 4096
/-- Posted requests of one fibre at most (12 R258). -/
def maxOutst : Nat := 64

end Sys2Proof.Config
end

