-- ==== Sys2Proof/Syntax.lean ====
section
/-!
DEFINITION. The instructions of the Soten 9: register numbers, the operand kinds of the encodings, and one
constructor for each row of the opcode table.
-/

namespace Sys2Proof

/-- g0-g7 of a fibre (05 R85). -/
abbrev GReg := Fin 8
/-- e0-e15 of the V stream (05 R85). -/
abbrev EReg := Fin 16
/-- q0-q15 of the M stream (05 R85). -/
abbrev QReg := Fin 16
/-- An e or q register named by a shared word (05 R83). -/
abbrev SReg := Fin 16
/-- v0-v31 (05 R85). -/
abbrev VReg := Fin 32
/-- m0-m7 (05 R85). -/
abbrev MReg := Fin 8
/-- z0-z7 (05 R85). -/
abbrev ZReg := Fin 8
/-- k0-k31 (05 R85). -/
abbrev KReg := Fin 32

/-- The three kinds of instruction stream (05). -/
inductive Stream where | s | v | m
  deriving DecidableEq, Repr

/-- Scope codes 0-5 (17 R341, Table 17.1). -/
inductive Scope where | fibre | cell | cluster | device | domain | system
  deriving DecidableEq, Repr

/-- The encoding of a scope. -/
def Scope.code : Scope → Nat
  | .fibre => 0 | .cell => 1 | .cluster => 2 | .device => 3 | .domain => 4 | .system => 5

/-- The scope a code names; 6 and 7 name none (17 R341). -/
def Scope.ofCode? : Nat → Option Scope
  | 0 => some .fibre | 1 => some .cell | 2 => some .cluster | 3 => some .device | 4 => some .domain | 5 => some .system
  | _ => none

/-- LD sizes (05 Table 5.10, 12 R238). -/
inductive LdSize where | b | bu | h | hu | w | wu | d | dp
  deriving DecidableEq, Repr

/-- The encoding of a load size. -/
def LdSize.code : LdSize → Nat
  | .b => 0 | .bu => 1 | .h => 2 | .hu => 3 | .w => 4 | .wu => 5 | .d => 6 | .dp => 7

/-- The load size a code names. -/
def LdSize.ofCode? : Nat → Option LdSize
  | 0 => some .b | 1 => some .bu | 2 => some .h | 3 => some .hu | 4 => some .w | 5 => some .wu | 6 => some .d
  | 7 => some .dp | _ => none

/-- ST sizes (12 R239). -/
inductive StSize where | b | h | w | d
  deriving DecidableEq, Repr

/-- The encoding of a store size. -/
def StSize.code : StSize → Nat
  | .b => 0 | .h => 1 | .w => 2 | .d => 3

/-- The store size a code names. -/
def StSize.ofCode? : Nat → Option StSize
  | 0 => some .b | 1 => some .h | 2 => some .w | 3 => some .d | _ => none

/-- SEXT and ZEXT sizes (06 R109): rb 3-7 are unassigned. -/
inductive ExtSize where | b | h | w
  deriving DecidableEq, Repr

/-- The encoding of an extension size. -/
def ExtSize.code : ExtSize → Nat
  | .b => 0 | .h => 1 | .w => 2

/-- The extension size a code names. -/
def ExtSize.ofCode? : Nat → Option ExtSize
  | 0 => some .b | 1 => some .h | 2 => some .w | _ => none

/-- fmt3 of the V stream (05 Table 5.4). -/
inductive VFmt where | f32 | bf16 | f16 | i32 | u32 | i16 | i8 | q64
  deriving DecidableEq, Repr

/-- The encoding of fmt3. -/
def VFmt.code : VFmt → Nat
  | .f32 => 0 | .bf16 => 1 | .f16 => 2 | .i32 => 3 | .u32 => 4 | .i16 => 5 | .i8 => 6 | .q64 => 7

/-- The vector format a code names. -/
def VFmt.ofCode? : Nat → Option VFmt
  | 0 => some .f32 | 1 => some .bf16 | 2 => some .f16 | 3 => some .i32 | 4 => some .u32 | 5 => some .i16 | 6 => some .i8
  | 7 => some .q64 | _ => none

/-- Rounding modes (07 R135); codes 5-7 are unassigned. -/
inductive RMode where | rne | rtz | rdn | rup | rsn
  deriving DecidableEq, Repr

/-- The encoding of a rounding mode. -/
def RMode.code : RMode → Nat
  | .rne => 0 | .rtz => 1 | .rdn => 2 | .rup => 3 | .rsn => 4

/-- The rounding mode a code names. -/
def RMode.ofCode? : Nat → Option RMode
  | 0 => some .rne | 1 => some .rtz | 2 => some .rdn | 3 => some .rup | 4 => some .rsn | _ => none

/-- Format codes (07 Table 7.1); 14 and 15 are reserved. -/
inductive Fmt where | f32 | bf16 | f16 | e4m3 | e5m2 | e2m1 | e8m0 | i32 | u32 | i16 | i8 | u8 | q64 | i64
  deriving DecidableEq, Repr

/-- The encoding of a format. -/
def Fmt.code : Fmt → Nat
  | .f32 => 0 | .bf16 => 1 | .f16 => 2 | .e4m3 => 3 | .e5m2 => 4 | .e2m1 => 5 | .e8m0 => 6 | .i32 => 7 | .u32 => 8
  | .i16 => 9 | .i8 => 10 | .u8 => 11 | .q64 => 12 | .i64 => 13

/-- The format a code names. -/
def Fmt.ofCode? : Nat → Option Fmt
  | 0 => some .f32 | 1 => some .bf16 | 2 => some .f16 | 3 => some .e4m3 | 4 => some .e5m2 | 5 => some .e2m1
  | 6 => some .e8m0 | 7 => some .i32 | 8 => some .u32 | 9 => some .i16 | 10 => some .i8 | 11 => some .u8
  | 12 => some .q64 | 13 => some .i64 | _ => none

/-- Element width in bits (07 Table 7.1). -/
def Fmt.width : Fmt → Nat
  | .f32 => 32 | .bf16 => 16 | .f16 => 16 | .e4m3 => 8 | .e5m2 => 8 | .e2m1 => 4 | .e8m0 => 8 | .i32 => 32 | .u32 => 32
  | .i16 => 16 | .i8 => 8 | .u8 => 8 | .q64 => 64 | .i64 => 64

/-- Element formats of VSCLF (08 R162). -/
inductive MxFmt where | e4m3 | e5m2 | e2m1
  deriving DecidableEq, Repr

/-- The encoding of a VSCLF format. -/
def MxFmt.code : MxFmt → Nat
  | .e4m3 => 3 | .e5m2 => 4 | .e2m1 => 5

/-- The VSCLF format a code names. -/
def MxFmt.ofCode? : Nat → Option MxFmt
  | 3 => some .e4m3 | 4 => some .e5m2 | 5 => some .e2m1 | _ => none

/-- SBR conditions (05 R99). -/
inductive SbrCond where | z | nz | eq | ne | lt | ge
  deriving DecidableEq, Repr

/-- The encoding of an SBR condition. -/
def SbrCond.code : SbrCond → Nat
  | .z => 0 | .nz => 1 | .eq => 2 | .ne => 3 | .lt => 4 | .ge => 5

/-- The SBR condition a code names. -/
def SbrCond.ofCode? : Nat → Option SbrCond
  | 0 => some .z | 1 => some .nz | 2 => some .eq | 3 => some .ne | 4 => some .lt | 5 => some .ge | _ => none

/-- VCMP conditions (05 Table 5.12). -/
inductive VCond where | eq | ne | lt | le | gt | ge | un | ord
  deriving DecidableEq, Repr

/-- The encoding of a VCMP condition. -/
def VCond.code : VCond → Nat
  | .eq => 0 | .ne => 1 | .lt => 2 | .le => 3 | .gt => 4 | .ge => 5 | .un => 6 | .ord => 7

/-- The VCMP condition a code names. -/
def VCond.ofCode? : Nat → Option VCond
  | 0 => some .eq | 1 => some .ne | 2 => some .lt | 3 => some .le | 4 => some .gt | 5 => some .ge | 6 => some .un
  | 7 => some .ord | _ => none

/-- Size of an atomic (12 Table 12.2). -/
inductive AmoSize where | w64 | w32
  deriving DecidableEq, Repr

/-- The encoding of an atomic's size. -/
def AmoSize.code : AmoSize → Nat
  | .w64 => 0 | .w32 => 1

/-- The atomic size a code names. -/
def AmoSize.ofCode? : Nat → Option AmoSize
  | 0 => some .w64 | 1 => some .w32 | _ => none

/-- Bytes of an atomic's operand. -/
def AmoSize.bytes : AmoSize → Nat
  | .w32 => 4 | .w64 => 8

/-- Memory orders (12 Table 12.2). -/
inductive Order where | relaxed | acquire | release | acqRel
  deriving DecidableEq, Repr

/-- The encoding of an order. -/
def Order.code : Order → Nat
  | .relaxed => 0 | .acquire => 1 | .release => 2 | .acqRel => 3

/-- The order a code names. -/
def Order.ofCode? : Nat → Option Order
  | 0 => some .relaxed | 1 => some .acquire | 2 => some .release | 3 => some .acqRel | _ => none

/-- Whether the order releases the fibre's earlier accesses. -/
def Order.releases : Order → Bool
  | .release | .acqRel => true
  | _ => false

/-- Whether the order acquires. -/
def Order.acquires : Order → Bool
  | .acquire | .acqRel => true
  | _ => false

/-- Combining operations (16 Table 16.9); 10-15 are unassigned. -/
inductive CombOp where | iadd | qadd | fadd | imin | imax | fmin | fmax | and | or | barrier
  deriving DecidableEq, Repr

/-- The encoding of a combining operation. -/
def CombOp.code : CombOp → Nat
  | .iadd => 0 | .qadd => 1 | .fadd => 2 | .imin => 3 | .imax => 4 | .fmin => 5 | .fmax => 6 | .and => 7 | .or => 8
  | .barrier => 9

/-- The combining operation a code names. -/
def CombOp.ofCode? : Nat → Option CombOp
  | 0 => some .iadd | 1 => some .qadd | 2 => some .fadd | 3 => some .imin | 4 => some .imax | 5 => some .fmin
  | 6 => some .fmax | 7 => some .and | 8 => some .or | 9 => some .barrier | _ => none

/-- The amount operand of KINC, KWAIT, KWAITN and KSET (16 R320): an immediate 0-127, or ra[31:0]. -/
inductive KAmt where
  | imm (n : BitVec 7)
  | reg (a : GReg)
  deriving DecidableEq, Repr

/-- The amount that the form bit, the immediate and the ra field encode (16 R320). -/
def KAmt.ofFields? (f n a : Nat) : Option KAmt :=
  if f = 0 then (if a = 0 then some (.imm (BitVec.ofNat 7 n)) else none)
  else (if n = 0 then some (.reg (Fin.ofNat 8 a)) else none)

/-- The form bit of an amount. -/
def KAmt.fForm : KAmt → Nat
  | .imm _ => 0 | .reg _ => 1
/-- The immediate field of an amount. -/
def KAmt.fImm : KAmt → Nat
  | .imm n => n.toNat | .reg _ => 0
/-- The ra field of an amount. -/
def KAmt.fReg : KAmt → Nat
  | .imm _ => 0 | .reg a => a.val

/-- The consumes of a TOK (05 Table 5.9): none to three counters, a repeated one being consumed more than once. -/
inductive TokUse where
  | zero
  | one (x : KReg)
  | two (x y : KReg)
  | three (x y z : KReg)
  deriving DecidableEq, Repr

/-- The counters a TOK consumes, in the order k1, k2, k3. -/
def TokUse.list : TokUse → List KReg
  | .zero => [] | .one x => [x] | .two x y => [x, y] | .three x y z => [x, y, z]

/-- The consumes that the fields c, k1, k2 and k3 encode: counters beyond the first c must be zero (05 Table 5.9). -/
def TokUse.ofFields? (c x y z : Nat) : Option TokUse :=
  match c with
  | 0 => if x = 0 ∧ y = 0 ∧ z = 0 then some .zero else none
  | 1 => if y = 0 ∧ z = 0 then some (.one (Fin.ofNat 32 x)) else none
  | 2 => if z = 0 then some (.two (Fin.ofNat 32 x) (Fin.ofNat 32 y)) else none
  | 3 => some (.three (Fin.ofNat 32 x) (Fin.ofNat 32 y) (Fin.ofNat 32 z))
  | _ => none

/-- The field c of the consumes. -/
def TokUse.count : TokUse → Nat
  | .zero => 0 | .one _ => 1 | .two _ _ => 2 | .three _ _ _ => 3
/-- The field k1. -/
def TokUse.k1 : TokUse → Nat
  | .zero => 0 | .one x => x.val | .two x _ => x.val | .three x _ _ => x.val
/-- The field k2. -/
def TokUse.k2 : TokUse → Nat
  | .zero => 0 | .one _ => 0 | .two _ y => y.val | .three _ y _ => y.val
/-- The field k3. -/
def TokUse.k3 : TokUse → Nat
  | .zero => 0 | .one _ => 0 | .two _ _ => 0 | .three _ _ z => z.val

/-- The produce of a TOK (counter, amount − 1): with P = 0 the two other fields must be zero (05 Table 5.9). -/
def tokProdOf? (p k n : Nat) : Option (Option (KReg × Fin 4)) :=
  if p = 0 then (if k = 0 ∧ n = 0 then some none else none)
  else some (some (Fin.ofNat 32 k, Fin.ofNat 4 n))

/-- The field P of a produce. -/
def tokP : Option (KReg × Fin 4) → Nat
  | none => 0 | some _ => 1
/-- The field kP of a produce. -/
def tokK : Option (KReg × Fin 4) → Nat
  | none => 0 | some p => p.1.val
/-- The amount field of a produce. -/
def tokN : Option (KReg × Fin 4) → Nat
  | none => 0 | some p => p.2.val

/-- An instruction or a step of the device: one constructor for each row of the opcode table. The encoded words
come first; the steps that have no encoding (host operations, hardware events) follow. -/
inductive Instr where
  /-- BLK, R77. -/
  | blk (n : BitVec 12) (c : Fin 16) (l : BitVec 9)
  /-- ADD, R109. -/
  | add (d : GReg) (a : GReg) (b : GReg)
  /-- SUB, R109. -/
  | sub (d : GReg) (a : GReg) (b : GReg)
  /-- MUL, R109. -/
  | mul (d : GReg) (a : GReg) (b : GReg)
  /-- MULH, R109. -/
  | mulh (d : GReg) (a : GReg) (b : GReg)
  /-- MULHU, R109. -/
  | mulhu (d : GReg) (a : GReg) (b : GReg)
  /-- DIV, R110. -/
  | div (d : GReg) (a : GReg) (b : GReg)
  /-- DIVU, R110. -/
  | divu (d : GReg) (a : GReg) (b : GReg)
  /-- REM, R110. -/
  | rem (d : GReg) (a : GReg) (b : GReg)
  /-- REMU, R110. -/
  | remu (d : GReg) (a : GReg) (b : GReg)
  /-- AND, R109. -/
  | and (d : GReg) (a : GReg) (b : GReg)
  /-- OR, R109. -/
  | or (d : GReg) (a : GReg) (b : GReg)
  /-- XOR, R109. -/
  | xor (d : GReg) (a : GReg) (b : GReg)
  /-- ANDN, R109. -/
  | andn (d : GReg) (a : GReg) (b : GReg)
  /-- SHL, R109. -/
  | shl (d : GReg) (a : GReg) (b : GReg)
  /-- SHR, R109. -/
  | shr (d : GReg) (a : GReg) (b : GReg)
  /-- SRA, R109. -/
  | sra (d : GReg) (a : GReg) (b : GReg)
  /-- ROL, R109. -/
  | rol (d : GReg) (a : GReg) (b : GReg)
  /-- MIN, R109. -/
  | min (d : GReg) (a : GReg) (b : GReg)
  /-- MAX, R109. -/
  | max (d : GReg) (a : GReg) (b : GReg)
  /-- MINU, R109. -/
  | minu (d : GReg) (a : GReg) (b : GReg)
  /-- MAXU, R109. -/
  | maxu (d : GReg) (a : GReg) (b : GReg)
  /-- SLT, R109. -/
  | slt (d : GReg) (a : GReg) (b : GReg)
  /-- SLTU, R109. -/
  | sltu (d : GReg) (a : GReg) (b : GReg)
  /-- SEQ, R109. -/
  | seq (d : GReg) (a : GReg) (b : GReg)
  /-- CLZ, R109. -/
  | clz (d : GReg) (a : GReg)
  /-- CTZ, R109. -/
  | ctz (d : GReg) (a : GReg)
  /-- POPC, R109. -/
  | popc (d : GReg) (a : GReg)
  /-- SEXT, R109. -/
  | sext (d : GReg) (a : GReg) (s : ExtSize)
  /-- ZEXT, R109. -/
  | zext (d : GReg) (a : GReg) (s : ExtSize)
  /-- ADDI, R111. -/
  | addi (d : GReg) (a : GReg) (imm : BitVec 19)
  /-- ANDI, R111. -/
  | andi (d : GReg) (a : GReg) (imm : BitVec 19)
  /-- ORI, R111. -/
  | ori (d : GReg) (a : GReg) (imm : BitVec 19)
  /-- XORI, R111. -/
  | xori (d : GReg) (a : GReg) (imm : BitVec 19)
  /-- SLTI, R111. -/
  | slti (d : GReg) (a : GReg) (imm : BitVec 19)
  /-- SLTIU, R111. -/
  | sltiu (d : GReg) (a : GReg) (imm : BitVec 19)
  /-- SHLI, R112. -/
  | shli (n : BitVec 6) (d : GReg) (a : GReg)
  /-- SHRI, R112. -/
  | shri (n : BitVec 6) (d : GReg) (a : GReg)
  /-- SRAI, R112. -/
  | srai (n : BitVec 6) (d : GReg) (a : GReg)
  /-- ROLI, R112. -/
  | roli (n : BitVec 6) (d : GReg) (a : GReg)
  /-- LI, R113. -/
  | li (d : GReg) (imm : BitVec 19)
  /-- LIK, R113. -/
  | lik (i : BitVec 16) (d : GReg) (k : Fin 4)
  /-- J, R114. -/
  | j (off : BitVec 25)
  /-- JAL, R114. -/
  | jal (off : BitVec 25)
  /-- JR, R115. -/
  | jr (o : BitVec 16) (a : GReg)
  /-- JALR, R115. -/
  | jalr (o : BitVec 16) (d : GReg) (a : GReg)
  /-- BEQ, R116. -/
  | beq (o : BitVec 16) (a : GReg) (b : GReg)
  /-- BNE, R116. -/
  | bne (o : BitVec 16) (a : GReg) (b : GReg)
  /-- BLT, R116. -/
  | blt (o : BitVec 16) (a : GReg) (b : GReg)
  /-- BGE, R116. -/
  | bge (o : BitVec 16) (a : GReg) (b : GReg)
  /-- BLTU, R116. -/
  | bltu (o : BitVec 16) (a : GReg) (b : GReg)
  /-- BGEU, R116. -/
  | bgeu (o : BitVec 16) (a : GReg) (b : GReg)
  /-- BZ, R116. -/
  | bz (o : BitVec 16) (a : GReg)
  /-- BNZ, R116. -/
  | bnz (o : BitVec 16) (a : GReg)
  /-- LD, R238. -/
  | ld (i : BitVec 16) (d : GReg) (a : GReg) (s : LdSize)
  /-- ST, R239. -/
  | st (i : BitVec 16) (d : GReg) (a : GReg) (s : StSize)
  /-- LDACQ, R240. -/
  | ldacq (c : Scope) (i : BitVec 13) (d : GReg) (a : GReg)
  /-- STREL, R240. -/
  | strel (c : Scope) (i : BitVec 13) (d : GReg) (a : GReg)
  /-- LDFE_TAKE, R242. -/
  | ldfeTake (i : BitVec 13) (d : GReg) (a : GReg)
  /-- LDFE_PEEK, R242. -/
  | ldfePeek (i : BitVec 13) (d : GReg) (a : GReg)
  /-- LDFE_TAG, R242. -/
  | ldfeTag (i : BitVec 13) (d : GReg) (a : GReg)
  /-- STFE_PUT, R242. -/
  | stfePut (i : BitVec 13) (d : GReg) (a : GReg)
  /-- STFE_FORCE, R242. -/
  | stfeForce (i : BitVec 13) (d : GReg) (a : GReg)
  /-- STFE_CLEAR, R242. -/
  | stfeClear (i : BitVec 13) (a : GReg)
  /-- AADD, R245. -/
  | aadd (p : Bool) (s : AmoSize) (o : Order) (c : Scope) (d : GReg) (a : GReg) (b : GReg)
  /-- AMIN, R245. -/
  | amin (p : Bool) (s : AmoSize) (o : Order) (c : Scope) (d : GReg) (a : GReg) (b : GReg)
  /-- AMAX, R245. -/
  | amax (p : Bool) (s : AmoSize) (o : Order) (c : Scope) (d : GReg) (a : GReg) (b : GReg)
  /-- AMINU, R245. -/
  | aminu (p : Bool) (s : AmoSize) (o : Order) (c : Scope) (d : GReg) (a : GReg) (b : GReg)
  /-- AMAXU, R245. -/
  | amaxu (p : Bool) (s : AmoSize) (o : Order) (c : Scope) (d : GReg) (a : GReg) (b : GReg)
  /-- AAND, R245. -/
  | aand (p : Bool) (s : AmoSize) (o : Order) (c : Scope) (d : GReg) (a : GReg) (b : GReg)
  /-- AOR, R245. -/
  | aor (p : Bool) (s : AmoSize) (o : Order) (c : Scope) (d : GReg) (a : GReg) (b : GReg)
  /-- AXOR, R245. -/
  | axor (p : Bool) (s : AmoSize) (o : Order) (c : Scope) (d : GReg) (a : GReg) (b : GReg)
  /-- ASWP, R245. -/
  | aswp (p : Bool) (s : AmoSize) (o : Order) (c : Scope) (d : GReg) (a : GReg) (b : GReg)
  /-- AFADD, R245. -/
  | afadd (p : Bool) (s : AmoSize) (o : Order) (c : Scope) (d : GReg) (a : GReg) (b : GReg)
  /-- ACAS, R246. -/
  | acas (s : AmoSize) (o : Order) (c : Scope) (d : GReg) (a : GReg) (b : GReg)
  /-- AMSEND, R247. -/
  | amsend (r : Bool) (o : Order) (c : Scope) (d : GReg) (a : GReg) (b : GReg)
  /-- AMREPLY, R251. -/
  | amreply (a : GReg)
  /-- DELEG, R252. -/
  | deleg (o : Order) (c : Scope) (d : GReg) (a : GReg) (b : GReg)
  /-- SPAWN, R121. -/
  | spawn (a : GReg) (b : GReg)
  /-- PUSHT, R121. -/
  | pusht (a : GReg)
  /-- TEND, R118. -/
  | tend
  /-- YIELD, R119. -/
  | yield
  /-- FIBID, R120. -/
  | fibid (d : GReg)
  /-- FORKV, R122. -/
  | forkv (a : GReg)
  /-- FORKM, R122. -/
  | forkm (a : GReg)
  /-- KINC, R320. -/
  | kinc (k : KReg) (n : KAmt)
  /-- KWAIT, R320. -/
  | kwait (k : KReg) (n : KAmt)
  /-- KWAITN, R320. -/
  | kwaitn (k : KReg) (n : KAmt)
  /-- KSET, R320. -/
  | kset (k : KReg) (n : KAmt)
  /-- KRD, R320. -/
  | krd (k : KReg) (d : GReg)
  /-- FENCE_ACQ, R254. -/
  | fenceAcq (s : Scope)
  /-- FENCE_REL, R254. -/
  | fenceRel (s : Scope)
  /-- FENCE_AR, R254. -/
  | fenceAr (s : Scope)
  /-- FENCE_SC, R254. -/
  | fenceSc (s : Scope)
  /-- CSEND, R326. -/
  | csend (e : Fin 16) (a : GReg)
  /-- CRECV, R327. -/
  | crecv (e : Fin 16) (d : GReg)
  /-- CGRANT, R328. -/
  | cgrant (e : Fin 16) (a : GReg)
  /-- CALT, R329. -/
  | calt (d : GReg) (a : GReg)
  /-- CPYQ, R269. -/
  | cpyq
  /-- CPYQ_NB, R269. -/
  | cpyqNb (d : GReg)
  /-- CPYA, R270. -/
  | cpya (r : Bool) (k : KReg) (d : GReg) (a : GReg)
  /-- CPYC_Q, R271. -/
  | cpycQ (d : GReg) (a : GReg)
  /-- CPYC_X, R271. -/
  | cpycX (d : GReg) (a : GReg)
  /-- GATH, R277. -/
  | gath (a : GReg)
  /-- SCAT, R277. -/
  | scat (a : GReg)
  /-- GATEQ, R283. -/
  | gateq (s : BitVec 16) (a : GReg) (b : GReg)
  /-- BINPUT, R288. -/
  | binput (d : GReg) (a : GReg) (b : GReg)
  /-- EXSEND, R291. -/
  | exsend (a : GReg)
  /-- EXPOLL, R298. -/
  | expoll (w : Bool) (d : GReg)
  /-- CINJ, R336. -/
  | cinj (o : CombOp) (g : Fin 16) (a : GReg)
  /-- CEXT, R337. -/
  | cext (g : Fin 16) (d : GReg)
  /-- LEASE, R315. -/
  | lease (d : GReg) (a : GReg) (b : GReg)
  /-- LREL, R317. -/
  | lrel (a : GReg)
  /-- LQRY, R318. -/
  | lqry (d : GReg) (a : GReg)
  /-- CVTG, R255. -/
  | cvtg (d : GReg) (a : GReg)
  /-- APT, R256. -/
  | apt (d : GReg) (a : GReg)
  /-- CFLUSH, R257. -/
  | cflush (a : GReg) (b : GReg)
  /-- CINV, R257. -/
  | cinv (a : GReg) (b : GReg)
  /-- PREF, R257. -/
  | pref (a : GReg) (b : GReg)
  /-- MFS, R123. -/
  | mfs (r : BitVec 8) (d : GReg)
  /-- MTS, R126. -/
  | mts (r : BitVec 8) (a : GReg)
  /-- MTS_ROUTER, R282. -/
  | mtsRouter (a : GReg)
  /-- MTS_BINBASE, R287. -/
  | mtsBinbase (a : GReg)
  /-- MTS_SEED, R137. -/
  | mtsSeed (a : GReg)
  /-- MTS_TRAPPC, R363. -/
  | mtsTrappc (a : GReg)
  /-- TRAP, R362. -/
  | trap (a : GReg)
  /-- BRK, R127. -/
  | brk (c : BitVec 8)
  /-- RTT, R361. -/
  | rtt
  /-- RTT_DROP, R361. -/
  | rttDrop
  /-- NOP, R127. -/
  | nop
  /-- MOV_C16, R128. -/
  | movC16 (a : GReg) (b : GReg)
  /-- ADD_C16, R128. -/
  | addC16 (a : GReg) (b : GReg) (c : GReg)
  /-- SUB_C16, R128. -/
  | subC16 (a : GReg) (b : GReg) (c : GReg)
  /-- AND_C16, R128. -/
  | andC16 (a : GReg) (b : GReg) (c : GReg)
  /-- OR_C16, R128. -/
  | orC16 (a : GReg) (b : GReg) (c : GReg)
  /-- XOR_C16, R128. -/
  | xorC16 (a : GReg) (b : GReg) (c : GReg)
  /-- ADDI_C16, R128. -/
  | addiC16 (a : GReg) (b : GReg) (i : BitVec 4)
  /-- SHLI_C16, R128. -/
  | shliC16 (a : GReg) (b : GReg) (n : BitVec 4)
  /-- SHRI_C16, R128. -/
  | shriC16 (a : GReg) (b : GReg) (n : BitVec 4)
  /-- LI_C16, R128. -/
  | liC16 (a : GReg) (i : BitVec 7)
  /-- LDD_C16, R128. -/
  | lddC16 (a : GReg) (b : GReg) (d : BitVec 4)
  /-- STD_C16, R128. -/
  | stdC16 (a : GReg) (b : GReg) (d : BitVec 4)
  /-- BZ_C16, R128. -/
  | bzC16 (a : GReg) (i : BitVec 7)
  /-- BNZ_C16, R128. -/
  | bnzC16 (a : GReg) (i : BitVec 7)
  /-- KINC_C16, R128. -/
  | kincC16 (k : KReg)
  /-- KWAIT_C16, R128. -/
  | kwaitC16 (k : KReg)
  /-- TEND_C16, R128. -/
  | tendC16
  /-- YIELD_C16, R128. -/
  | yieldC16
  /-- NOP_C16, R128. -/
  | nopC16
  /-- TOK, R88. -/
  | tok (use : TokUse) (prod : Option (KReg × Fin 4))
  /-- SADD, R97. -/
  | sadd (b : SReg) (d : SReg) (a : SReg)
  /-- SSUB, R97. -/
  | ssub (b : SReg) (d : SReg) (a : SReg)
  /-- SMUL, R97. -/
  | smul (b : SReg) (d : SReg) (a : SReg)
  /-- SAND, R97. -/
  | sand (b : SReg) (d : SReg) (a : SReg)
  /-- SOR, R97. -/
  | sor (b : SReg) (d : SReg) (a : SReg)
  /-- SXOR, R97. -/
  | sxor (b : SReg) (d : SReg) (a : SReg)
  /-- SSHL, R97. -/
  | sshl (b : SReg) (d : SReg) (a : SReg)
  /-- SSHR, R97. -/
  | sshr (b : SReg) (d : SReg) (a : SReg)
  /-- SADDI, R98. -/
  | saddi (i : BitVec 12) (d : SReg) (a : SReg)
  /-- SLI, R98. -/
  | sli (i : BitVec 16) (d : SReg) (k : Fin 4)
  /-- SBR, R99. -/
  | sbr (i : BitVec 12) (b : SReg) (c : SbrCond) (a : SReg)
  /-- SHALT, R100. -/
  | shalt
  /-- SNOP, R100. -/
  | snop
  /-- SKINC, R100. -/
  | skinc (k : KReg) (n : BitVec 8)
  /-- SKINC_REG, R100. -/
  | skincReg (k : KReg) (a : SReg)
  /-- SKWAIT, R100. -/
  | skwait (k : KReg) (n : BitVec 8)
  /-- SKWAIT_REG, R100. -/
  | skwaitReg (k : KReg) (a : SReg)
  /-- SMFS, R101. -/
  | smfs (s : BitVec 8) (d : SReg)
  /-- SMTS, R101. -/
  | smts (s : BitVec 8) (a : SReg)
  /-- VFADD, R155. -/
  | vfadd (f : VFmt) (m : MReg) (b : VReg) (a : VReg) (d : VReg)
  /-- VFSUB, R155. -/
  | vfsub (f : VFmt) (m : MReg) (b : VReg) (a : VReg) (d : VReg)
  /-- VFMUL, R155. -/
  | vfmul (f : VFmt) (m : MReg) (b : VReg) (a : VReg) (d : VReg)
  /-- VFMIN, R155. -/
  | vfmin (f : VFmt) (m : MReg) (b : VReg) (a : VReg) (d : VReg)
  /-- VFMAX, R155. -/
  | vfmax (f : VFmt) (m : MReg) (b : VReg) (a : VReg) (d : VReg)
  /-- VFDIV, R155. -/
  | vfdiv (f : VFmt) (m : MReg) (b : VReg) (a : VReg) (d : VReg)
  /-- VFSQRT, R155. -/
  | vfsqrt (f : VFmt) (m : MReg) (a : VReg) (d : VReg)
  /-- VFABS, R155. -/
  | vfabs (f : VFmt) (m : MReg) (a : VReg) (d : VReg)
  /-- VFNEG, R155. -/
  | vfneg (f : VFmt) (m : MReg) (a : VReg) (d : VReg)
  /-- VFCPYS, R155. -/
  | vfcpys (f : VFmt) (m : MReg) (b : VReg) (a : VReg) (d : VReg)
  /-- VFMA, R156. -/
  | vfma (f : VFmt) (m : MReg) (b : VReg) (a : VReg) (d : VReg)
  /-- VFMS, R156. -/
  | vfms (f : VFmt) (m : MReg) (b : VReg) (a : VReg) (d : VReg)
  /-- VFNMA, R156. -/
  | vfnma (f : VFmt) (m : MReg) (b : VReg) (a : VReg) (d : VReg)
  /-- VEXP2, R157. -/
  | vexp2 (m : MReg) (a : VReg) (d : VReg)
  /-- VLOG2, R157. -/
  | vlog2 (m : MReg) (a : VReg) (d : VReg)
  /-- VRCP, R157. -/
  | vrcp (m : MReg) (a : VReg) (d : VReg)
  /-- VRSQRT, R157. -/
  | vrsqrt (m : MReg) (a : VReg) (d : VReg)
  /-- VSINPI, R157. -/
  | vsinpi (m : MReg) (a : VReg) (d : VReg)
  /-- VCOSPI, R157. -/
  | vcospi (m : MReg) (a : VReg) (d : VReg)
  /-- VTANH, R157. -/
  | vtanh (m : MReg) (a : VReg) (d : VReg)
  /-- VSIGM, R157. -/
  | vsigm (m : MReg) (a : VReg) (d : VReg)
  /-- VADD, R158. -/
  | vadd (f : VFmt) (m : MReg) (b : VReg) (a : VReg) (d : VReg)
  /-- VSUB, R158. -/
  | vsub (f : VFmt) (m : MReg) (b : VReg) (a : VReg) (d : VReg)
  /-- VMUL, R158. -/
  | vmul (f : VFmt) (m : MReg) (b : VReg) (a : VReg) (d : VReg)
  /-- VMULH, R158. -/
  | vmulh (f : VFmt) (m : MReg) (b : VReg) (a : VReg) (d : VReg)
  /-- VAND, R158. -/
  | vand (f : VFmt) (m : MReg) (b : VReg) (a : VReg) (d : VReg)
  /-- VOR, R158. -/
  | vor (f : VFmt) (m : MReg) (b : VReg) (a : VReg) (d : VReg)
  /-- VXOR, R158. -/
  | vxor (f : VFmt) (m : MReg) (b : VReg) (a : VReg) (d : VReg)
  /-- VSHL, R158. -/
  | vshl (f : VFmt) (m : MReg) (b : VReg) (a : VReg) (d : VReg)
  /-- VSHR, R158. -/
  | vshr (f : VFmt) (m : MReg) (b : VReg) (a : VReg) (d : VReg)
  /-- VSRA, R158. -/
  | vsra (f : VFmt) (m : MReg) (b : VReg) (a : VReg) (d : VReg)
  /-- VMIN, R158. -/
  | vmin (f : VFmt) (m : MReg) (b : VReg) (a : VReg) (d : VReg)
  /-- VMAX, R158. -/
  | vmax (f : VFmt) (m : MReg) (b : VReg) (a : VReg) (d : VReg)
  /-- VABS, R158. -/
  | vabs (f : VFmt) (m : MReg) (a : VReg) (d : VReg)
  /-- VCMP, R159. -/
  | vcmp (f : VFmt) (m : MReg) (b : VReg) (a : VReg) (d : MReg) (c : VCond)
  /-- VCVT, R160. -/
  | vcvt (src : Fmt) (dst : Fmt) (mode : RMode) (novf : Bool) (m : MReg) (a : VReg) (d : VReg)
  /-- VQCVT, R161. -/
  | vqcvt (r : RMode) (m : MReg) (b : VReg) (a : VReg) (d : VReg)
  /-- VQADD, R161. -/
  | vqadd (m : MReg) (b : VReg) (a : VReg) (d : VReg)
  /-- VQSUB, R161. -/
  | vqsub (m : MReg) (b : VReg) (a : VReg) (d : VReg)
  /-- VQTOF, R161. -/
  | vqtof (r : RMode) (m : MReg) (b : VReg) (a : VReg) (d : VReg)
  /-- VSCLF, R162. -/
  | vsclf (m : MReg) (e : MxFmt) (a : VReg) (d : VReg)
  /-- VSCLA, R163. -/
  | vscla (m : MReg) (b : VReg) (a : VReg) (d : VReg)
  /-- VREDSUM, R164. -/
  | vredsum (f : VFmt) (m : MReg) (a : VReg) (d : EReg)
  /-- VREDMAX, R164. -/
  | vredmax (f : VFmt) (m : MReg) (a : VReg) (d : EReg)
  /-- VREDMIN, R164. -/
  | vredmin (f : VFmt) (m : MReg) (a : VReg) (d : EReg)
  /-- VARGMAX, R164. -/
  | vargmax (f : VFmt) (m : MReg) (a : VReg) (d : EReg)
  /-- VARGMIN, R164. -/
  | vargmin (f : VFmt) (m : MReg) (a : VReg) (d : EReg)
  /-- VSCAN, R165. -/
  | vscan (f : VFmt) (m : MReg) (a : VReg) (d : VReg)
  /-- VSCANX, R165. -/
  | vscanx (f : VFmt) (m : MReg) (a : VReg) (d : VReg)
  /-- VPERM, R166. -/
  | vperm (m : MReg) (b : VReg) (a : VReg) (d : VReg)
  /-- VSLDU, R166. -/
  | vsldu (f : VFmt) (m : MReg) (b : VReg) (a : VReg) (d : VReg)
  /-- VSLDD, R166. -/
  | vsldd (f : VFmt) (m : MReg) (b : VReg) (a : VReg) (d : VReg)
  /-- VBCST, R166. -/
  | vbcst (f : VFmt) (m : MReg) (a : EReg) (d : VReg)
  /-- VSEL, R166. -/
  | vsel (f : VFmt) (m : MReg) (b : VReg) (a : VReg) (d : VReg)
  /-- VCMPRS, R166. -/
  | vcmprs (f : VFmt) (m : MReg) (a : VReg) (d : VReg)
  /-- VEXPND, R166. -/
  | vexpnd (f : VFmt) (m : MReg) (a : VReg) (d : VReg)
  /-- VMOV, R166. -/
  | vmov (f : VFmt) (m : MReg) (a : VReg) (d : VReg)
  /-- MAND, R167. -/
  | mand (f : VFmt) (b : MReg) (a : MReg) (d : MReg)
  /-- MOR, R167. -/
  | mor (f : VFmt) (b : MReg) (a : MReg) (d : MReg)
  /-- MXOR, R167. -/
  | mxor (f : VFmt) (b : MReg) (a : MReg) (d : MReg)
  /-- MNOT, R167. -/
  | mnot (f : VFmt) (a : MReg) (d : MReg)
  /-- MPOP, R167. -/
  | mpop (f : VFmt) (a : MReg) (d : EReg)
  /-- MSET, R167. -/
  | mset (f : VFmt) (a : EReg) (d : MReg)
  /-- MFIRST, R167. -/
  | mfirst (f : VFmt) (a : MReg) (d : EReg)
  /-- VLD, R168. -/
  | vld (i : BitVec 9) (m : MReg) (e : EReg) (v : VReg)
  /-- VST, R168. -/
  | vst (i : BitVec 9) (m : MReg) (e : EReg) (v : VReg)
  /-- VLDS, R168. -/
  | vlds (s : EReg) (m : MReg) (e : EReg) (v : VReg)
  /-- VSTS, R168. -/
  | vsts (s : EReg) (m : MReg) (e : EReg) (v : VReg)
  /-- VLDX, R168. -/
  | vldx (x : Fin 16) (m : MReg) (e : EReg) (v : VReg)
  /-- VSTX, R168. -/
  | vstx (x : Fin 16) (m : MReg) (e : EReg) (v : VReg)
  /-- VLDZ, R172. -/
  | vldz (m : MReg) (p : Fin 32) (t : ZReg) (d : VReg)
  /-- VSTZ, R172. -/
  | vstz (m : MReg) (p : Fin 32) (t : ZReg) (s : VReg)
  /-- VMRG_KZ, R174. -/
  | vmrgKz (f : VFmt) (b : VReg) (a : VReg) (d : VReg)
  /-- VMRG_DZ, R174. -/
  | vmrgDz (f : VFmt) (b : VReg) (a : VReg) (d : VReg)
  /-- VMRGC, R175. -/
  | vmrgc (f : VFmt) (b : VReg) (a : VReg) (z : Bool) (d : EReg)
  /-- VSTRM, R177. -/
  | vstrm (a : EReg) (d : VReg)
  /-- VSTRMX, R179. -/
  | vstrmx (d : VReg)
  /-- VFADD_C16, R94. -/
  | vfaddC16 (d : Fin 8) (a : Fin 8) (b : Fin 8)
  /-- VFMUL_C16, R94. -/
  | vfmulC16 (d : Fin 8) (a : Fin 8) (b : Fin 8)
  /-- VFMA_C16, R94. -/
  | vfmaC16 (d : Fin 8) (a : Fin 8) (b : Fin 8)
  /-- VADD_C16, R94. -/
  | vaddC16 (d : Fin 8) (a : Fin 8) (b : Fin 8)
  /-- VMOV_C16, R94. -/
  | vmovC16 (d : Fin 8) (a : Fin 8)
  /-- VLD_C16, R94. -/
  | vldC16 (d : Fin 8) (a : Fin 8) (i : BitVec 5)
  /-- VST_C16, R94. -/
  | vstC16 (d : Fin 8) (a : Fin 8) (i : BitVec 5)
  /-- SADDI_C16, R94. -/
  | saddiC16 (d : Fin 8) (a : Fin 8) (i : BitVec 5)
  /-- SNOP_C16, R94. -/
  | snopC16
  /-- SKINC_C16, R94. -/
  | skincC16 (k : KReg)
  /-- SKWAIT_C16, R94. -/
  | skwaitC16 (k : KReg)
  /-- MMA, R189. -/
  | mma (l : Bool) (c : QReg) (b : QReg) (z : ZReg) (a : QReg)
  /-- MMAC, R190. -/
  | mmac (p : Fin 4) (n : Fin 4) (l : Bool) (c : QReg) (b : QReg) (z : ZReg) (a : QReg)
  /-- MMAS, R208. -/
  | mmas (l : Bool) (b : QReg) (z : ZReg) (a : QReg)
  /-- MMA24, R191. -/
  | mma24 (l : Bool) (c : QReg) (b : QReg) (z : ZReg) (a : QReg)
  /-- MMG, R194. -/
  | mmg (c : QReg) (b : QReg) (z : ZReg) (a : QReg)
  /-- MZERO, R195. -/
  | mzero (z : ZReg)
  /-- MZST, R197. -/
  | mzst (n : Bool) (o : RMode) (f : Fmt) (c : QReg) (z : ZReg) (a : QReg)
  /-- MZST_CMAP, R198. -/
  | mzstCmap (n : Bool) (o : RMode) (f : Fmt) (c : QReg) (b : QReg) (z : ZReg) (a : QReg)
  /-- MZLD, R196. -/
  | mzld (z : ZReg) (a : QReg)
  /-- MCFG, R200. -/
  | mcfg (a : QReg)
  /-- MCFG_RD, R200. -/
  | mcfgRd (a : QReg)
  /-- MPROG, R201. -/
  | mprog (a : QReg)
  /-- MXP_MOV, R199. -/
  | mxpMov (s : ZReg) (z : ZReg)
  /-- MXP_TRN, R199. -/
  | mxpTrn (s : ZReg) (z : ZReg)
  /-- MXP_ADD, R199. -/
  | mxpAdd (s : ZReg) (z : ZReg)
  /-- MZPOI_RD, R200. -/
  | mzpoiRd (z : ZReg) (a : QReg)
  /-- MZPOI_WR, R200. -/
  | mzpoiWr (z : ZReg) (a : QReg)
  /-- MZPOI_OR, R200. -/
  | mzpoiOr (z : ZReg) (a : QReg)
  /-- MMA_C16, R94. -/
  | mmaC16 (z : ZReg) (a : QReg) (b : QReg)
  /-- MMA_CLR_C16, R94. -/
  | mmaClrC16 (z : ZReg) (a : QReg) (b : QReg)
  /-- MZERO_C16, R94. -/
  | mzeroC16 (z : ZReg)
  /-- OPEN, R42. -/
  | hostOpen (i : Nat)
  /-- CLOSE, R42. -/
  | close (session : Nat)
  /-- WRITE, R43. -/
  | write (session : Nat)
  /-- READ, R43. -/
  | read (session : Nat)
  /-- QREG, R44. -/
  | qreg (session : Nat)
  /-- QDEL, R44. -/
  | qdel (session : Nat)
  /-- APPEND, R44. -/
  | append (session : Nat)
  /-- CANCEL, R55. -/
  | cancel (session : Nat)
  /-- WREG, R378. -/
  | wreg (session : Nat)
  /-- WDEL, R378. -/
  | wdel (session : Nat)
  /-- WACK, R378. -/
  | wack (session : Nat)
  /-- DESC, R57. -/
  | desc (session : Nat)
  /-- ATTEST, R385. -/
  | attest (session : Nat)
  /-- PMREAD, R384. -/
  | pmread (session : Nat)
  /-- JOBNEW, R58. -/
  | jobnew (session : Nat)
  /-- JOBDEL, R58. -/
  | jobdel (session : Nat)
  /-- JOBMAP, R58. -/
  | jobmap (session : Nat)
  /-- JOBUNMAP, R58. -/
  | jobunmap (session : Nat)
  /-- JOBPIN, R235. -/
  | jobpin (session : Nat)
  /-- JOBSET, R58. -/
  | jobset (session : Nat)
  /-- BRUGUS_SEGMENT_RECEIVE, R57. -/
  | brugusSegmentReceive (frame : List Byte)
  /-- BRUGUS_ACK, R57. -/
  | brugusAck (session : Nat) (opn : Nat) (seg : Nat)
  /-- BRUGUS_RETRANSMIT, R57. -/
  | brugusRetransmit (i : Nat)
  /-- INVALIDATION_COMPLETE, R234. -/
  | invalidationComplete (inv : Nat)
  /-- QUEUE_MAP, R51. -/
  | queueMap (queue : Nat)
  /-- PRIORITY_AGE, R51. -/
  | priorityAge (queue : Nat)
  /-- QUEUE_UNMAP_BLOCKED, R51. -/
  | queueUnmapBlocked (queue : Nat)
  /-- QUEUE_ROTATE, R51. -/
  | queueRotate
  /-- DRAIN_START, R51. -/
  | drainStart (work : Nat)
  /-- ENTRY_TAKE, R48. -/
  | entryTake (queue : Nat)
  /-- PHASE_COMPLETE, R49. -/
  | phaseComplete (work : Nat)
  /-- SEM_RECHECK, R50. -/
  | semRecheck (work : Nat)
  /-- SEM_SIGNAL, R50. -/
  | semSignal (work : Nat)
  /-- ENTRY_COPY, R48. -/
  | entryCopy (work : Nat)
  /-- GRAPH_REPLAY_START, R39. -/
  | graphReplayStart (work : Nat)
  /-- GRAPH_NODE_START, R38. -/
  | graphNodeStart (work : Nat) (node : Nat)
  /-- LAUNCH_ADMIT, R52. -/
  | launchAdmit (work : Nat)
  /-- LAUNCH_SAVE, R367. -/
  | launchSave (launch : Nat)
  /-- SPREAD_RESERVE, R54. -/
  | spreadReserve (i : Nat)
  /-- SPREAD_NOROOM_TIMEOUT, R54. -/
  | spreadNoroomTimeout (i : Nat)
  /-- SPREAD_ANSWER, R54. -/
  | spreadAnswer (i : Nat)
  /-- SPREAD_COMMIT, R54. -/
  | spreadCommit (i : Nat)
  /-- SPREAD_START, R54. -/
  | spreadStart (launch : Nat)
  /-- SPREAD_RETRY, R54. -/
  | spreadRetry (work : Nat)
  /-- CELL_RETIRE, R377. -/
  | cellRetire (cell : Nat)
  /-- LAUNCH_COMPLETE, R377. -/
  | launchComplete (launch : Nat)
  /-- TASK_POP, R62. -/
  | taskPop (cell : Nat)
  /-- COLD_END_PROMOTE, R62. -/
  | coldEndPromote (cell : Nat)
  /-- STEAL_SEND, R70. -/
  | stealSend (cell : Nat)
  /-- STEAL_SERVE, R71. -/
  | stealServe (cell : Nat)
  /-- STEAL_ANSWER_ARRIVE, R70. -/
  | stealAnswerArrive (cell : Nat)
  /-- STEAL_BACKOFF_EXPIRE, R70. -/
  | stealBackoffExpire (cell : Nat)
  /-- SPAWN_RECORD_ARRIVE, R66. -/
  | spawnRecordArrive (msg : Nat)
  /-- SPAWN_ANSWER_ARRIVE, R69. -/
  | spawnAnswerArrive (msg : Nat)
  /-- AM_RESERVE_ARRIVE, R248. -/
  | amReserveArrive (msg : Nat)
  /-- AM_GRANT_ARRIVE, R248. -/
  | amGrantArrive (msg : Nat)
  /-- AM_MESSAGE_ARRIVE, R248. -/
  | amMessageArrive (msg : Nat)
  /-- HANDLER_START, R249. -/
  | handlerStart (cell : Nat)
  /-- DELEG_ROUTINE_START, R252. -/
  | delegRoutineStart (cell : Nat)
  /-- HANDLER_BUDGET_EXPIRE, R64. -/
  | handlerBudgetExpire (cell : Nat) (slot : Nat)
  /-- AM_REPLY_ARRIVE, R251. -/
  | amReplyArrive (msg : Nat)
  /-- REMOTE_REQUEST_SERVE, R236. -/
  | remoteRequestServe (msg : Nat)
  /-- FE_REQUEST_SERVE, R242. -/
  | feRequestServe (msg : Nat)
  /-- LOAD_REPLY_ARRIVE, R238. -/
  | loadReplyArrive (msg : Nat)
  /-- POSTED_ANSWER_ARRIVE, R258. -/
  | postedAnswerArrive (msg : Nat)
  /-- LATE_REFUSAL_ARRIVE, R259. -/
  | lateRefusalArrive (msg : Nat)
  /-- LATE_TRAP_DELIVER, R365. -/
  | lateTrapDeliver (cell : Nat) (slot : Nat)
  /-- REASSEMBLY_RESERVE, R19. -/
  | reassemblyReserve (msg : Nat)
  /-- MESSAGE_DELIVER, R20. -/
  | messageDeliver (msg : Nat)
  /-- INJECTION_HOLD, R17. -/
  | injectionHold
  /-- REASSEMBLY_DROP, R22. -/
  | reassemblyDrop (msg : Nat)
  /-- WAIT_LIMIT_EXPIRE, R323. -/
  | waitLimitExpire (cell : Nat) (slot : Nat)
  /-- TASK_BUDGET_EXPIRE, R360. -/
  | taskBudgetExpire (cell : Nat) (slot : Nat)
  /-- TRAP_HANDLER_START, R359. -/
  | trapHandlerStart (cell : Nat)
  /-- STREAM_START, R73. -/
  | streamStart (cell : Nat) (st : Stream)
  /-- STREAM_WORD_COMPLETE, R87. -/
  | streamWordComplete (cell : Nat) (st : Stream) (i : Nat)
  /-- ARMED_SLOT_FIRE, R270. -/
  | armedSlotFire (cell : Nat)
  /-- VSTRM_VECTOR_FETCH, R178. -/
  | vstrmVectorFetch (cell : Nat) (r : VReg)
  /-- MMAC_CHAIN_START, R190. -/
  | mmacChainStart (cell : Nat)
  /-- TRANSFER_START, R272. -/
  | transferStart (cell : Nat)
  /-- COPY_CHUNK_PERFORM, R272. -/
  | copyChunkPerform (cell : Nat) (id : Nat)
  /-- COPY_CHUNK_REISSUE, R376. -/
  | copyChunkReissue (cell : Nat) (id : Nat)
  /-- GATH_ELEMENT_REPLY, R278. -/
  | gathElementReply (cell : Nat) (id : Nat) (t : Nat)
  /-- TRANSFER_COMPLETE, R275. -/
  | transferComplete (cell : Nat) (id : Nat)
  /-- UMBRA_GATH_DEADLINE, R280. -/
  | umbraGathDeadline (cell : Nat) (id : Nat)
  /-- HOST_WINDOW_TIMEOUT, R378. -/
  | hostWindowTimeout (cell : Nat) (seg : Nat)
  /-- ROUTER_TOKEN_DECIDE, R284. -/
  | routerTokenDecide (die : Nat)
  /-- DISPATCH_ROUND_START, R292. -/
  | dispatchRoundStart (launch : Nat)
  /-- PERMIT_ROUND, R293. -/
  | permitRound (id : Nat)
  /-- SECOND_ROUND, R294. -/
  | secondRound (id : Nat)
  /-- PRISM_PACKET_ARRIVE, R295. -/
  | prismPacketArrive (msg : Nat)
  /-- NOTICE_ARRIVE, R297. -/
  | noticeArrive (msg : Nat)
  /-- RETURN_ROW_ARRIVE, R296. -/
  | returnRowArrive (msg : Nat)
  /-- EXCHANGE_COMPLETE, R291. -/
  | exchangeComplete (sub : Nat)
  /-- CHANNEL_SLOT_ARRIVE, R327. -/
  | channelSlotArrive (msg : Nat)
  /-- CHANNEL_GRANT_ARRIVE, R328. -/
  | channelGrantArrive (msg : Nat)
  /-- EVENT_LINE_STORE_APPLY, R331. -/
  | eventLineStoreApply (msg : Nat)
  /-- PARENT_ARRIVAL, R334. -/
  | parentArrival (msg : Nat)
  /-- PARENT_RELEASE_ARRIVE, R334. -/
  | parentReleaseArrive (msg : Nat)
  /-- COMBINE_RESULT_ARRIVE, R337. -/
  | combineResultArrive (key : Nat) (m : Nat)
  /-- COMBINE_REDO, R339. -/
  | combineRedo (key : Nat) (m : Nat)
  /-- LEASE_REQUEST_ARRIVE, R311. -/
  | leaseRequestArrive (i : Nat)
  /-- LEASE_RECLAIM_RETRY, R313. -/
  | leaseReclaimRetry
  /-- LEASE_NOTICE_EXPIRE, R313. -/
  | leaseNoticeExpire (slot : Nat) (pair : Nat)
  /-- LEASE_GRANT_SETTLE, R312. -/
  | leaseGrantSettle (slot : Nat)
  /-- LEASE_TERM_EXPIRE, R312. -/
  | leaseTermExpire (slot : Nat)
  /-- LEASE_PAIR_DRAINED, R314. -/
  | leasePairDrained (pair : Nat)
  /-- TUROB_FRAME_RECEIVE, R308. -/
  | turobFrameReceive (i : Nat)
  /-- TUROB_FRAME_RESEND, R308. -/
  | turobFrameResend (i : Nat)
  /-- UNCORRECTABLE_ERROR, R227. -/
  | uncorrectableError (cell : Option Nat) (sector : Nat)
  /-- FUNCTION_FENCE, R373. -/
  | functionFence (kind : Nat) (index : Nat)
  /-- POWER_GOOD, R387. -/
  | powerGood
  /-- POWER_CAP_EXCEED, R388. -/
  | powerCapExceed
  /-- POWER_STEP_UP, R388. -/
  | powerStepUp
  /-- THERMAL_LIMIT, R388. -/
  | thermalLimit (fence : Bool)
  /-- S_INSTRUCTION_COMPLETION, R108. -/
  | sInstructionCompletion (cell : Nat) (slot : Nat)
  /-- MMAS_CHUNK_BOUNDARY, R208. -/
  | mmasChunkBoundary (cell : Nat)
  /-- MMG_ENTRY_BOUNDARY, R194. -/
  | mmgEntryBoundary (cell : Nat)
  deriving DecidableEq, Repr

end Sys2Proof
end

