-- ==== Sys2Proof/Machine/Cells.lean ====
section
/-!
DEFINITION. The state of one cell: its fibres, its V and M engines, its scratchpad and caches, its queues.
-/

namespace Sys2Proof.Machine

open Sys2Proof

/-- A finite map from numbers, its keys strictly rising. -/
abbrev AMap (α : Type) := List (Nat × α)

/-- Block state (05 R77). -/
structure Block where
  start : Word
  fin : Word
  left : Word
  deriving DecidableEq, Repr

/-- A task record (04 R66): 40 bytes. -/
structure TaskRec where
  pc : Word
  a0 : Word
  a1 : Word
  a2 : Word
  a3 : Word
  deriving DecidableEq, Repr

/-- A record in a deque, with the device time at which it became the cold-end entry or entered (04 R62). -/
structure DequeEntry where
  task : TaskRec
  entered : Nat
  deriving DecidableEq, Repr

/-- A completion request of the Copy Engine that starts a handler fibre (13 R275). -/
structure CompReq where
  pc : Word
  id : Word
  status : Word
  done : Word
  word0 : Word
  seq : W32
  scope : Scope
  /-- Place in active-message queue order; what an abort has returned to the head comes first (18 R364). -/
  order : Nat
  front : Nat
  deriving DecidableEq, Repr

/-- What an aborted handler was serving, held until its trap handler ends (18 R364). -/
inductive Held where
  /-- The active-message queue entry of that index. -/
  | msg (entry : Nat)
  | completion (c : CompReq)
  deriving DecidableEq, Repr

/-- Whose trap a trap-handler fibre serves (18 Table 18.5). -/
inductive TrapSrc where
  | fibre
  | handler (held : Held)
  | v
  | m
  | copy
  | exch
  deriving DecidableEq, Repr

/-- What a fibre runs (04 R61, 12 R249, R252, 13 R275, 18 R359). -/
inductive FKind where
  | task
  | handler (entry : Nat)
  | completion (c : CompReq)
  | server (entry : Nat)
  | trap (src : TrapSrc)
  deriving DecidableEq, Repr

/-- A refusal of a posted request that waits for delivery (12 R259, 18 R365). -/
structure LateRefusal where
  seq : W32
  addr : Word
  cls : Nat
  word : Option Word
  deriving DecidableEq, Repr

/-- An active message that a handler has buffered (12 R250). -/
structure BufSend where
  target : Word
  pc : Word
  a0 : Word
  a1 : Word
  a2 : Word
  a3 : Word
  order : Order
  scope : Scope
  deriving DecidableEq, Repr

/-- A policy table as a Router or the Exchange Engine has copied it (14 Table 14.1). -/
structure Policy where
  experts : Nat
  k : Nat
  r : Nat
  score : Nat
  groups : Nat
  keep : Nat
  flags : BitVec 8
  scale : W32
  bias : List W32
  /-- Placement entries (14 Table 14.2), one per expert. -/
  place : List (BitVec 128)
  /-- GLOBAL address of the histogram; 0 for none. -/
  hist : Nat
  dead : BitVec 1024
  /-- Logical indices of the dispatchers (14 R282). -/
  disp : List Nat
  deriving DecidableEq, Repr

/-- A combine table as read at an EXSEND (14 Table 14.7). -/
structure CombTable where
  nc : Nat
  k : Nat
  t : Nat
  rowSize : Nat
  buffer : Nat
  weights : Nat
  list : List Nat
  deriving DecidableEq, Repr

/-- A bin entry as the Exchange Engine takes it (14 Table 14.5), with its bin's destination. -/
structure BinEnt where
  token : W32
  seq : Nat
  origin : Nat
  rowSlot : Nat
  j : Nat
  k : Nat
  poison : Bool
  null : Bool
  renorm : Bool
  weight : W32
  spareExpert : Nat
  spareReplica : Nat
  originDev : Nat
  /-- 256 * device + 64 * die + slot. -/
  dest : Nat
  expert : Nat
  replica : Nat
  deriving DecidableEq, Repr

/-- A request of an EXSEND as copied at issue (14 R291). -/
structure ExReq where
  launch : Nat
  device : Nat
  /-- Logical index of the submitting cell. -/
  idx : Nat
  dispatch : Bool
  fast : Bool
  /-- Completion byte. -/
  comp : Nat
  scope : Scope
  role : Nat
  rowSize : Nat
  n : Nat
  rows : Nat
  tags : Nat
  slot : Nat
  policyVa : Word
  slotDir : Word
  combVa : Word
  policy : Option Policy
  comb : CombTable
  ents : List BinEnt
  deriving DecidableEq, Repr

/-- A copy request as copied at issue (13 R261-R267, R277). `desc` holds the bytes of its descriptor, as a number. -/
structure CopyReq where
  /-- none: CPYQ/CPYA; some false: GATH; some true: SCAT. -/
  scat : Option Bool
  w0 : Word
  w1 : Word
  w2 : Word
  w3 : Word
  desc : BitVec 512
  seq : W32
  /-- Device time of issue, for Umbra (13 R280). -/
  issued : Nat
  deriving DecidableEq, Repr

/-- What a wait is on, for waits that issue their word again when the condition holds. -/
inductive Cond where
  /-- OUTST = 0: a release, FENCE, TEND or RTT (12 R254, 06 R118, 18 R361). -/
  | outst0
  /-- OUTST < 64 (12 R258). -/
  | outstLow
  /-- Room in the V fork queue (06 R122). -/
  | forkV
  /-- Room in the M fork queue (06 R122). -/
  | forkM
  /-- Allowance of a sender endpoint (16 R326). -/
  | allowance (e : Fin 16)
  /-- Filled slots of a receiver endpoint (16 R327). -/
  | filled (e : Fin 16)
  /-- A ready endpoint of a CALT mask (16 R329). -/
  | calt (mask : Word)
  /-- Room to inject on a combining group (16 R337). -/
  | inject (g : Fin 16)
  /-- The next result of a combining group (16 R337). -/
  | extract (g : Fin 16)
  /-- An entry in the combine-ready queue (14 R298). -/
  | ready
  /-- Room in the Router's queue (14 R283). -/
  | routerRoom
  deriving DecidableEq, Repr

/-- Why a fibre is parked (04 R61, 18 Table 18.4). -/
inductive Park where
  /-- The word issues again when the condition holds; wait kind and detail as 18 Table 18.4. -/
  | retry (c : Cond) (kind : Nat) (detail : Word)
  /-- KWAIT (take) or KWAITN on a counter (16 R320); the word is so many bytes long. -/
  | counter (k : KReg) (n : W32) (take : Bool) (len : Nat)
  /-- A request that has left the fibre, by number: the answer writes rd and ends the word. `acq` is the scope at which
  the answer acquires; `size` how load data is extended; `addr` the address for the trap detail. -/
  | reply (id : Nat) (addr : Word) (rd : Option GReg) (size : LdSize) (acq : Option Scope) (len : Nat)
  /-- A full/empty operation that waits for the tag (12 R243), here or at the owning cell. -/
  | fe (id : Nat) (addr : Word) (rd : Option GReg) (acq : Option Scope) (len : Nat)
  /-- A SPAWN that waits for the target's answer (04 R69). -/
  | spawn (id : Nat) (addr : Word) (task : TaskRec) (len : Nat)
  /-- An AMSEND without reply that waits until the target's queue takes it (12 R247). -/
  | amAccept (id : Nat) (addr : Word) (len : Nat)
  /-- An AMSEND.R or DELEG; `accepted` once its entry has been taken (12 R247, R252, R260). -/
  | amReply (id : Nat) (addr : Word) (rd : GReg) (acq : Scope) (deleg accepted : Bool) (len : Nat)
  /-- An EVENT line load that waits at the line (16 R333). -/
  | event (addr : Word) (rd : GReg) (len : Nat)
  /-- An EXSEND that waits for room with what it copied at issue, and its operand (14 R291). -/
  | exch (r : ExReq) (off : Word)
  /-- A CPYQ, GATH or SCAT that waits for room in the FIFO with its request as copied at issue (13 R269, R277). -/
  | copy (r : CopyReq)
  /-- A CPYA that waits for a free slot (13 R270). -/
  | arm (r : CopyReq) (k : KReg) (threshold : W32) (rep : Bool) (rd : GReg)
  deriving DecidableEq, Repr

/-- State of a fibre slot that is not FREE (04 R61). -/
inductive FStatus where
  | ready
  /-- The one instruction in flight completes at that device time (06 R108). -/
  | issued (done : Nat)
  | parked (p : Park) (since : Nat)
  /-- Stopped for pre-emption at its word (18 R367). -/
  | saved
  deriving DecidableEq, Repr

/-- What belongs to a fibre and stays with it in a trap frame (04 R60, 18 R359). -/
structure FBody where
  /-- Names the fibre for answers that come back to it. -/
  fid : Nat
  kind : FKind
  g : Vector Word 8
  pc : Word
  blk : Option Block
  /-- The address of a taken branch whose target word has not issued (06 R117). -/
  branch : Option Word
  /-- Posted requests not yet answered (12 R258). -/
  outst : Nat
  /-- PC of the posted request that took OUTST from 0 to 1, and its number (18 R365). -/
  window : Word × W32
  refusals : List LateRefusal
  /-- FIBID start number (06 R120). -/
  startNo : W32
  /-- Budget CCLK used up to `since` (18 R360). -/
  used : Nat
  /-- Device time from which the budget counts; none while it does not (04 R64, 18 R359). -/
  since : Option Nat
  /-- GLOBAL base of the private region (11 R222). -/
  priv : Option Nat
  sends : List BufSend
  replyBuf : Option Word
  /-- AMREPLY has been issued for the message served (12 R251). -/
  replied : Bool
  /-- Start order of handler fibres (04 R63). -/
  order : Nat
  /-- The task is ending after `rtt.drop` and waits for its OUTST (18 R361, R365). -/
  ending : Bool
  /-- The fibre is saved as soon as the request that it waits for has been answered (12 R260, 18 R367). -/
  stop : Bool
  deriving DecidableEq, Repr

/-- The five trap registers and what MTS did to TRAPPC (18 R357, R363). -/
structure TrapRegs where
  code : Word
  pc : Word
  detail : Word
  seq : Word
  stream : Word
  written : Bool
  deriving DecidableEq, Repr

/-- A fibre in a slot; with a frame when a trap handler runs over it (18 R359). -/
structure Fibre where
  body : FBody
  status : FStatus
  trap : TrapRegs
  frame : Option FBody
  /-- Place of the fibre in an ordered wait; none when its word has not waited (13 R269, 16 R326). -/
  parkSeq : Option Nat
  deriving DecidableEq, Repr

/-- A request in a fork queue (06 R122). -/
structure ForkReq where
  pc : Word
  a0 : Word
  a1 : Word
  a2 : Word
  a3 : Word
  deriving DecidableEq, Repr

/-- Where a stream stands (05 R77). -/
structure StreamPos where
  pc : Word
  blk : Option Block
  branch : Option Word
  deriving DecidableEq, Repr

/-- A TOK whose consumes are done and whose word has not issued (05 R88). -/
structure TokSt where
  addr : Word
  use : TokUse
  prod : Option (KReg × Fin 4)
  deriving DecidableEq, Repr

/-- What stalls an engine's issue. -/
inductive EWait where
  | tok (t : TokSt)
  | skwait (k : KReg) (n : W32) (len : Nat)
  /-- SHALT waits for its earlier words (05 R100). -/
  | drain
  /-- VSTRMX waits for the writes of its stream (08 R179). -/
  | strm
  /-- A read stream's vector has not arrived (08 R178). -/
  | vector (r : VReg)
  /-- An array word waits for the one in execution (09 R185). -/
  | array
  /-- The rendezvous of a chain with what the word has read (09 R190). -/
  | chain (n p : Nat) (k mconf : Word) (clear : Bool) (zd : ZReg) (a b : Nat)
  deriving DecidableEq, Repr

/-- A register that a word in flight writes. -/
inductive Dest where
  | g (r : SReg)
  | v (r : VReg)
  | m (r : MReg)
  /-- The effects of an array word, by its number: they are performed when it completes (09 R185). -/
  | arr (n : Nat)
  /-- Those of an array word that runs in parts: it completes with its last part. -/
  | part
  deriving DecidableEq, Repr

/-- A produce of a TOK (05 R88): the counter, the amount, and the address of the prefixed word. -/
structure Produce where
  k : KReg
  n : Nat
  word : Word
  deriving DecidableEq, Repr

/-- A word that has issued (05 R87): its bound, what it writes, what it produces, and whether it has completed before
its bound (then its results may be relied on once the stream has consumed a counter, log 5); or a SKINC, by its
address, that waits for the words before it (05 R100). -/
inductive Flight where
  | word (deadline : Nat) (dests : List Dest) (prod : Option Produce) (done : Bool)
  | skinc (k : KReg) (n : W32) (word : Word) (prod : Option Produce)
  deriving DecidableEq, Repr

/-- The trap of an engine that waits for a handler slot or is being handled (18 R359). -/
structure TrapRec where
  cls : Nat
  sub : Nat
  detail : Word
  pc : Word
  seq : Word
  /-- Address of the word concerned, its When field and source (18 Table 18.3). -/
  word : Word
  when_ : Nat
  src : Nat
  deriving DecidableEq, Repr

/-- What has happened to a counter in this CCLK: whether it has been carried past 2^32 − 1, and the stream and word, for a
V or M stream (05 R89). -/
structure KAct where
  k : KReg
  sat : Bool
  source : Option (Stream × Word)
  deriving DecidableEq, Repr

/-- One accumulator tile: rows of 64 elements of 32 bits, and the row-poison bits (09 R187). -/
structure Tile where
  rows : Vector (BitVec 2048) 64
  poison : BitVec 64
  deriving DecidableEq, Repr

/-- The loop buffer of an engine: the start of the body that it has captured, and the words of it (05 R78). -/
structure LoopBuf where
  start : Word
  words : List (Word × List Byte)
  deriving DecidableEq, Repr

/-- What the V and M engines have alike (05). -/
structure Engine where
  run : Option StreamPos
  tok : Option TokSt
  wait : Option EWait
  waitSince : Nat
  flights : List Flight
  /-- CCLK of device time at which the engine issues next at the earliest (05 R87). -/
  clk : Nat
  forks : List ForkReq
  /-- Stopped by a trap until its handler's RTT (18 R359). -/
  stopped : Bool
  /-- Tiles as they were before M words whose effects no counter has ordered before the words of this stream (08 R173). -/
  stale : List (ZReg × Tile)
  /-- 128 halfwords (01 R14, 05 R78). -/
  loop : Option LoopBuf
  /-- e or q registers. -/
  g : Vector Word 16
  deriving DecidableEq, Repr

/-- A stream bound to a v register (08 R177). -/
structure Binding where
  base : Nat
  stride : Int
  count : Nat
  write : Bool
  counter : Option KReg
  /-- Vectors consumed or stored. -/
  pos : Nat
  /-- Read streams: vectors fetched and not consumed, with segment poison. -/
  fetched : List (Vec × BitVec 8)
  deriving DecidableEq, Repr

/-- The Vector Unit (08). -/
structure VUnit where
  eng : Engine
  v : Vector Vec 32
  /-- Segment poison (08 R154). -/
  vp : Vector (BitVec 8) 32
  /-- m1-m7; entry 0 stands for m0, which reads as all ones (05 R85). -/
  m : Vector Mask 8
  binds : AMap Binding
  /-- Least CCLK at which a unit takes its next word, by major (08 R152). -/
  busy : AMap Nat
  deriving DecidableEq, Repr

/-- A scratchpad (11 R224, R225). -/
structure Spad where
  /-- Bytes that are not 0, addresses rising. -/
  bytes : List Host.Cell
  /-- Words whose tag is full, rising (word number = offset / 8). -/
  full : List Nat
  /-- Poisoned sectors, rising (sector number = offset / 64). -/
  poison : List Nat
  deriving DecidableEq, Repr

/-- The structure of a bitmap tile pair as MMAS reads it at setup (10 R203, R207): bitmap rows, row offsets, and where the
values start. -/
structure SpMeta where
  a : List Nat
  b : List Nat
  aoff : List Nat
  boff : List Nat
  abase : Nat
  bbase : Nat
  /-- A structure sector is poisoned: nothing is accumulated (10 R210). -/
  skip : Bool
  deriving DecidableEq, Repr

/-- An array word in execution, with its operands as read at issue; `word` is its address (09 R185). MMG and MMAS run in
parts (09 R193, 10 R212). -/
inductive ArrWord where
  | mma (zd : ZReg) (clear : Bool) (k mconf : Word) (a b : Nat)
  /-- A word of a chain: its number, its head cell and length, and A once a cell of the chain has read it (09 R190). -/
  | mmac (zd : ZReg) (clear : Bool) (k mconf : Word) (a b chain head n : Nat) (apad : Option Spad)
  | mma24 (zd : ZReg) (clear : Bool) (k mconf : Word) (a b : Nat) (word : Word)
  | mzero (zd : ZReg)
  | mzld (zd : ZReg) (off : Nat)
  /-- The bytes that remain to be stored, with their poison, and the sectors that the whole store writes clean. -/
  | mzst (bytes : List (Nat × Byte × Bool)) (cleans : List Nat)
  | mxpMov (zd zs : ZReg)
  | mxpTrn (zd zs : ZReg)
  | mxpAdd (zd zs : ZReg) (mconf : Word)
  | mzpoiWr (zd : ZReg) (v : Word)
  | mzpoiOr (zd : ZReg) (v : Word)
  | mmg (zd : ZReg) (list : Nat) (count : Nat) (k mconf : Word) (entry : Nat) (word : Word)
  /-- `md` is what the setup has read, `spent` the CCLK of the chunks so far; `halted` once the chunk in which a pre-empt
  request or cancel was seen has completed. -/
  | mmas (zd : ZReg) (clear : Bool) (a b : Nat) (mconf : Word) (chunk : Nat) (md : Option SpMeta) (spent : Nat)
      (halted : Bool) (word : Word)
  /-- An MMG that has trapped at an entry: MPROG still shows it (09 R194). -/
  | failed (entry : Nat)
  deriving DecidableEq, Repr

/-- The array word in execution: its number, the CCLK at which it began, the scratchpad's contents at moments since then
(09 R186), and its tile as the word has it with the elements that VSTZ has written since (08 R173). -/
structure ArrExec where
  word : ArrWord
  seq : Nat
  began : Nat
  past : List Spad
  base : Option Tile
  raced : BitVec 4096
  deriving DecidableEq, Repr

/-- The Matrix Engine (09). -/
structure MUnit where
  eng : Engine
  z : Vector Tile 8
  mconf : Word
  /-- Array words issued since admission (09 R201). -/
  issued : Nat
  arr : Option ArrExec
  /-- Least CCLK at which the array takes its next word (09 R185). -/
  arrFree : Nat
  deriving DecidableEq, Repr

/-- A sector held by an L1 (11 R228). -/
structure L1Sector where
  /-- Virtual address / 64. -/
  va : Nat
  /-- Physical sector it was filled from or is to be written to. -/
  pa : Nat
  data : BitVec 512
  valid : BitVec 64
  dirty : BitVec 64
  poison : Bool
  deriving DecidableEq, Repr

/-- Who waits for an answer: a fibre of a cell of a device. -/
structure Asker where
  dev : Nat
  cell : Nat
  slot : Nat
  fid : Nat
  id : Nat
  deriving DecidableEq, Repr

/-- The modes that wait for a tag (12 Table 12.1). -/
inductive FeWait where | take | peek | put
  deriving DecidableEq, Repr

/-- A full/empty request that waits at the owning cell, oldest first (12 R243). -/
structure FePending where
  word : Nat
  mode : FeWait
  data : Word
  who : Asker
  /-- The address of the request, for a trap (12 R242). -/
  addr : Word
  deriving DecidableEq, Repr

/-- The job and, for a spread launch, its origin device and number: what a request to another device carries so that
its addresses can be resolved there (15 R309). -/
structure RCtx where
  job : Nat
  key : Option (Nat × Nat)
  deriving DecidableEq, Repr

/-- An active message or delegation on its way (12 R247, R252). -/
structure AmMsg where
  ctx : RCtx
  who : Asker
  id : W32
  target : Word
  /-- The target's device and cell there. -/
  toDev : Nat
  toCell : Nat
  pc : Word
  a0 : Word
  a1 : Word
  a2 : Word
  a3 : Word
  sender : Word
  reply : Bool
  deleg : Bool
  scope : Scope
  /-- Sent from a handler's buffer: no fibre waits for its acceptance. -/
  buffered : Bool
  deriving DecidableEq, Repr

/-- An entry of the active-message queue (12 Table 12.4). -/
structure AmEntry where
  /-- Free for the next reservation (12 R248); the other fields keep their last values. -/
  free : Bool
  /-- Place in queue order (12 R248); what an abort has returned to the head comes first, the latest before the others
  (18 R364). -/
  order : Nat
  front : Nat
  /-- The message has arrived. -/
  valid : Bool
  running : Bool
  deleg : Bool
  reply : Bool
  held : Bool
  id : W32
  sender : Word
  target : Word
  a0 : Word
  a1 : Word
  a2 : Word
  a3 : Word
  pc : Word
  scope : Scope
  /-- Who waits for the reply. -/
  from_ : Asker
  deriving DecidableEq, Repr

/-- Which side an endpoint has (16 R324). -/
inductive ChanSide where | unused | sender | receiver
  deriving DecidableEq, Repr

/-- A channel endpoint (16 Table 16.3). -/
structure Endpoint where
  side : ChanSide
  slots : Nat
  /-- Slot size in bytes. -/
  size : Nat
  /-- Logical index of the other end; none when the sender is a Router. -/
  peer : Option Nat
  peerEp : Nat
  filled : Nat
  /-- Allowance (sender) or held h (receiver). -/
  count : Nat
  seq : Nat
  /-- Receiver: slot-array offset and filled counter. -/
  array : Nat
  k : KReg
  deriving DecidableEq, Repr

/-- An armed slot (13 R270, R271). -/
structure ArmedSlot where
  req : CopyReq
  k : KReg
  threshold : W32
  rep : Bool
  fired : Bool
  armed : Bool
  /-- Firings that have not entered the FIFO. -/
  pending : Nat
  deriving DecidableEq, Repr

/-- The answer to a piece of a transfer that left the device (13 R276, 19 R378): bytes with their poison, or a status. -/
inductive SegAns where
  | data (l : List (Byte × Bool))
  | refused (status : Nat)
  deriving DecidableEq, Repr

/-- A piece of a transfer that is read from or written to another device or a host window. -/
structure Seg where
  id : Nat
  read : Bool
  /-- Where it stands in processing order: a byte, or an element. -/
  pos : Nat
  /-- The host window it reaches, if it reaches one. -/
  window : Option Nat
  answer : Option SegAns
  deriving DecidableEq, Repr

/-- Where a byte of a transfer lies. -/
inductive CPlace where
  | spad (cell off : Nat)
  | mem (pa : Nat)
  | window (n off : Nat)
  | device (dev : Nat) (a : Word)
  deriving DecidableEq, Repr

/-- Where the bytes of a run come from. -/
inductive CSrc where
  | addr (a : Word)
  | zeros
  /-- A byte of a FILL pattern, by its index in the element. -/
  | fill (i : Nat)
  deriving DecidableEq, Repr

/-- Bytes that lie together at their source and at their destination. -/
structure Run where
  pos : Nat
  src : CSrc
  dst : Word
  n : Nat
  deriving DecidableEq, Repr

/-- A run with the places that its ends lead to; no source place for zeros and patterns. -/
structure PRun where
  run : Run
  src : Option CPlace
  dst : CPlace
  deriving DecidableEq, Repr

/-- An element of a GATH whose read is under way: its place in the list, its index, and either the status of its refusal
or the places of its pieces as they were translated when it began (11 R235). -/
structure GathEl where
  t : Nat
  i : Nat
  status : Nat
  places : List (CPlace × Nat)
  deriving DecidableEq, Repr

/-- A transfer in flight (13 R272-R276). -/
structure Transfer where
  id : Nat
  req : CopyReq
  descending : Bool
  /-- Bytes, or elements for GATH and SCAT, done. -/
  done : Nat
  /-- CHECKEDGATHER: the CRC register; in descending order the CRC of the bytes read, started from 0. -/
  crc : BitVec 64
  /-- CHECKEDGATHER: the check word has been written or compared. -/
  checked : Bool
  /-- GATH: elements whose index has been read. -/
  asked : Nat
  /-- The runs of the chunk that has begun and waits for what it has asked for, with their places as they were translated
  when it began (11 R235); none when no chunk has begun. -/
  plan : List PRun
  /-- GATH: elements whose reads are under way. -/
  pending : List GathEl
  /-- The status and the place of the lowest failure: the element of a GATH or SCAT, the bytes before the chunk of any
  other transfer. -/
  failed : Option (Nat × Nat)
  segs : List Seg
  deriving DecidableEq, Repr

/-- The Copy Engine (13). -/
structure CopyUnit where
  fifo : List CopyReq
  slots : AMap ArmedSlot
  xfers : List Transfer
  /-- Completions that wait for a handler slot, in order. -/
  comps : List CompReq
  deriving DecidableEq, Repr

/-- What became of an entry of a DISPATCH round (14 R294). -/
inductive NoticeStatus where | granted | dropped | null
  deriving DecidableEq, Repr

/-- A notice at a combiner (14 R294). -/
structure Notice where
  token : W32
  seq : Nat
  k : Nat
  j : Nat
  /-- Destination as in Table 14.4, bits 31 to 12: device, die, slot. -/
  dest : Nat
  weight : W32
  poison : Bool
  renorm : Bool
  status : NoticeStatus
  deriving DecidableEq, Repr

/-- A combine entry that holds a token (14 R290, R296, R297). -/
structure CombEntry where
  token : W32
  notices : List Notice
  /-- Slots whose row has been performed, with the row's poison. -/
  rows : List (Nat × Bool)
  /-- Posted to the combine-ready queue and not yet taken. -/
  posted : Bool
  deriving DecidableEq, Repr

/-- A result of the combining network at a cell (16 R337, R338). -/
structure CombRes where
  group : Nat
  m : Nat
  /-- 0, or a code of 16 R338. -/
  code : Nat
  op : CombOp
  value : Word
  ovf : Bool
  deriving DecidableEq, Repr

/-- Where a thief stands (04 R70). -/
inductive StealPhase where
  | idle
  /-- A victim, by physical number, has been asked. -/
  | asked (victim : Nat)
  /-- Its answer is on its way. -/
  | answered (t : Option TaskRec)
  /-- A round of EMPTY answers is over since a device time. -/
  | backoff (since : Nat)
  deriving DecidableEq, Repr

/-- A cell as a thief (04 R70). -/
structure Steal where
  /-- Logical index of the last victim asked. -/
  last : Option Nat
  /-- EMPTY answers in a row. -/
  empties : Nat
  phase : StealPhase
  deriving DecidableEq, Repr

/-- A value that a special register of a cell held before a write, until the device time from which no issuing word sees it
(06 R126). -/
structure LateVal where
  reg : Nat
  till : Nat
  old : Word
  deriving DecidableEq, Repr

/-- A cell of a launch. -/
structure Cell where
  /-- The launch that holds the cell. -/
  launch : Option Nat
  x : Nat
  y : Nat
  role : Nat
  /-- Device time at which CCYCLE was 0. -/
  cbase : Nat
  seed : W32
  qovf : Bool
  binbase : BitVec 20
  reqseq : W32
  pmc : Vector Word 4
  pmsel : W32
  /-- Device time from which a PMC that counts CCLK counts (19 R384). -/
  pmSince : Vector Nat 4
  /-- Values from before writes of Cell registers by MTS or SMTS that a word may still see (06 R126); for SEED the state of
  the sequence before the write (07 R137), for a PMC what it was ahead of the value written. -/
  late : List LateVal
  /-- Sectors of code in the instruction cache, by physical address / 64 (05 R73). -/
  icache : AMap (BitVec 512)
  /-- The bin-table shadow: loaded descriptors (14 R287). -/
  bins : List (BitVec 128)
  k : Vector W32 32
  /-- What has reached the counters in this CCLK and has not been tested (05 R89, 16 R321). -/
  acts : List KAct
  fibres : AMap Fibre
  v : VUnit
  m : MUnit
  spad : Spad
  l1 : List L1Sector
  fe : List FePending
  am : AMap AmEntry
  /-- Reservations that wait for an entry, in arrival order (12 R248). -/
  amWaiting : List AmMsg
  chans : Vector Endpoint 16
  copy : CopyUnit
  deque : List DequeEntry
  steal : Steal
  started : W32
  /-- Slot that the task rotation served last (04 R63). -/
  lastTask : Nat
  /-- Device times of the latest handler and server issues, newest first (04 R63). -/
  handlerIssues : List Nat
  /-- Combine entries that hold a token (14 R290). -/
  comb : AMap CombEntry
  /-- The combine-ready queue: EXPOLL results, oldest first (14 R297, R298). -/
  readyQ : List Word
  /-- DISPATCHes issued (14 R292). -/
  exIssued : Nat
  /-- Expert slots that wait for their release counter, and those that have consumed it: 256 * round + 64d + s,
  rising (14 R295, 16 R321). -/
  prismWait : AMap KReg
  prismOk : List Nat
  /-- Counters that have been incremented by a release wider than the cell, and words of the scratchpad that another cell
  has filled, since a test of them acquired; and a test has passed whose acquire the L1 still owes (17 R346). -/
  kwide : BitVec 32
  feWide : List Nat
  acqDue : Bool
  /-- Operations injected into and extracted from each combining group (16 R337). -/
  injected : AMap Nat
  extracted : AMap Nat
  results : List CombRes
  /-- Unit traps that wait for earlier words of their stream or for a handler slot, in order (18 R354, R359; 22 R393). -/
  traps : List (TrapSrc × TrapRec)
  /-- Numbers for start order and ordered waits. -/
  nextOrder : Nat
  deriving DecidableEq, Repr

end Sys2Proof.Machine
end

