-- ==== Sys2Proof/Machine/System.lean ====
section
/-!
DEFINITION. The state outside the cells: messages in flight, event units, launches, jobs.
-/

namespace Sys2Proof.Machine

open Sys2Proof

/-- A party of the on-package network (01 R21). -/
inductive Node where
  | cell (c : Nat)
  | router (die : Nat)
  | exch (die : Nat)
  /-- The home of device memory at an L2 slice: 16 * C-die + slice (11 R230). -/
  | home (slice : Nat)
  | xdie
  /-- The event unit's line 16 * cluster + line. -/
  | line (key : Nat)
  /-- Another device of the domain, as a source. -/
  | device (d : Nat)
  deriving DecidableEq, Repr

/-- Message classes (01 Table 1.3, 15 Table 15.2). -/
inductive MsgClass where | request | response | bulk | exchange | control | combine
  deriving DecidableEq, Repr

/-- Operations of AMO and ACAS (12 Table 12.3, R246). -/
inductive AmoFn where | add | min | max | minu | maxu | and | or | xor | swp | fadd | cas
  deriving DecidableEq, Repr

/-- Full/empty operations (12 Table 12.1). -/
inductive FeFn where | take | peek | tag | put | force | clear
  deriving DecidableEq, Repr

/-- What a memory request does at its home. -/
inductive MemOp where
  /-- A load; `home` when it is performed at the home and not in the L1 (12 R240). -/
  | load (size : LdSize) (home : Bool)
  /-- A store; `home` when it is performed at the home and not in the L1 (12 R236, R240). -/
  | store (n : Nat) (data : Word) (home : Bool)
  | amo (f : AmoFn) (size : AmoSize) (b e : Word)
  | fe (f : FeFn) (data : Word)
  deriving DecidableEq, Repr

/-- Where a memory request goes (11 R219). -/
inductive MemPlace where
  | spad (cell off : Nat)
  | global (va : Nat)
  /-- An address on another device of the domain. -/
  | device (dev : Nat) (addr : Word)
  deriving DecidableEq, Repr

/-- A memory request of a fibre (12 R236). -/
structure MemReq where
  ctx : RCtx
  who : Asker
  posted : Bool
  seq : W32
  /-- The word that issued it. -/
  pc : Word
  addr : Word
  place : MemPlace
  op : MemOp
  deriving DecidableEq, Repr

/-- The answer of a memory request: data with its poison, or a refusal by class (12 R237, R259). -/
inductive AnsRes where
  | ok (data : Word) (poison : Bool)
  | refused (cls : Nat)
  deriving DecidableEq, Repr

/-- An answer on its way to a fibre. -/
structure MemAns where
  who : Asker
  posted : Bool
  seq : W32
  pc : Word
  addr : Word
  res : AnsRes
  deriving DecidableEq, Repr

/-- A contribution to a combining operation (16 R337). -/
structure Contrib where
  who : Nat
  m : Nat
  op : CombOp
  value : Word
  deriving DecidableEq, Repr

/-- A used expert slot of a round (14 R289, R295). -/
structure ExSlot where
  /-- 256 * device + 64 * die + slot. -/
  dest : Nat
  cell : Nat
  cap : Nat
  buffer : Nat
  tags : Nat
  filled : KReg
  done : KReg
  release : KReg
  /-- Rows granted (FAST: accepted). -/
  granted : Nat
  /-- Rows placed. -/
  pos : Nat
  /-- FAST: rows bound for the slot that have not arrived. -/
  toCome : Nat
  /-- The release counter has been consumed. -/
  started : Bool
  finished : Bool
  deriving DecidableEq, Repr

/-- A request that the Exchange Engine holds (14 R291). -/
structure ExSub where
  id : Nat
  req : ExReq
  /-- The round of a DISPATCH: 16 times its number among the cell's, plus the cell's role (14 R292). -/
  round : Nat
  /-- A DISPATCH whose round has started. -/
  started : Bool
  /-- Its round has been decided, or it is a RETURN that has been sent. -/
  decided : Bool
  /-- Rows and notices that have been sent and not been performed. -/
  owed : Nat
  deriving DecidableEq, Repr

/-- Where a row or notice of the Exchange Engines comes from: the device whose engine waits for it, and the launch and
round by which every device of a spread launch knows it (15 R309, 14 R292). -/
structure ExOrg where
  dev : Nat
  key : Option (Nat × Nat)
  round : Nat
  deriving DecidableEq, Repr

/-- What a message carries. -/
inductive MsgBody where
  | mem (r : MemReq)
  | memAns (a : MemAns)
  | spawn (who : Asker) (t : TaskRec)
  | spawnAns (who : Asker) (ok : Bool)
  | amReserve (m : AmMsg)
  | amGrant (m : AmMsg) (entry : Nat)
  | am (m : AmMsg) (entry : Nat)
  /-- The target's queue has taken the message. -/
  | amTaken (who : Asker)
  | amReply (who : Asker) (data : Word)
  /-- The target cell or its device is fenced (18 R375). -/
  | amRefused (who : Asker)
  /-- A wait at another device is to be withdrawn; it has been, or its answer is on its way or is not yet known (12 R243,
  16 R323). -/
  | withdraw (who : Asker)
  | withdrawn (who : Asker) (ok : Bool)
  | slot (cell ep : Nat) (data : List Byte) (poison : List Nat) (off : Nat)
  | grant (cell ep n : Nat)
  | eventStore (who : Asker) (seq : W32) (cluster : Nat) (line : Fin 16) (cfg : Bool) (data : Word)
  /-- A Prism packet (14 R295): the round, the submission, the slots it names with their weights, and the row. -/
  | packet (round sub : Nat) (token : W32) (seq : Nat) (bad bypass : Bool) (origin dev : Nat)
      (slots : List (Nat × W32)) (row : List Byte) (poison : List Nat) (org : ExOrg)
  /-- A notice on its way to entry `t` of a combiner (14 R294). -/
  | notice (cell t : Nat) (ct : CombTable) (n : Notice) (sub : Nat) (org : ExOrg)
  /-- A RETURN row on its way to entry `t` of a combiner (14 R296). -/
  | retRow (cell t : Nat) (ct : CombTable) (token : W32) (dest : Nat) (bad : Bool) (row : List Byte)
      (poison : List Nat) (sub : Nat) (org : ExOrg)
  /-- A piece of a transfer of cell `cell` to be read or written on another device; `k` a HALO mailbox (13 R267). -/
  | bulkRead (ctx : RCtx) (cell seg : Nat) (addr : Word) (n : Nat)
  | bulkWrite (ctx : RCtx) (cell seg : Nat) (addr : Word) (data : List (Byte × Bool)) (k : Option (KReg × Scope))
  | bulkAns (job cell seg : Nat) (ans : SegAns)
  /-- Lease protocol (15 R311, R313): a request with its offers, the count of one in flight as a renewal changes it, a
  grant, a revocation notice, or a pair lost without one, a freed pair, and the end of a lease whose request is in
  flight. A pair is 16 * wavelength + plane. -/
  | leaseReq (id count : Nat) (offers : List Nat)
  | leaseUpdate (id count : Nat)
  | leaseGrant (id : Nat) (pairs : List Nat)
  | leaseNotice (id pair : Nat) (now : Bool)
  | leaseFree (pair : Nat)
  | leaseCancel (id : Nat)
  /-- Rows or notices of a submission performed on another device. -/
  | exAck (sub n : Nat)
  /-- A DISPATCH of another part of a spread launch, the slots of another device's directory, the end of a round that a
  device has abandoned, and whether a FAST slot of another device has taken a row (14 R292, R293). -/
  | exDemand (key : Nat × Nat) (sub : ExSub)
  | exSlots (key : Nat × Nat) (round : Nat) (slots : List ExSlot)
  | exAbandon (key : Nat × Nat) (round code x : Nat)
  | exFast (key : Nat × Nat) (sub : Nat) (token : W32) (dest : Nat) (granted : Bool)
  /-- A contribution of another part of a spread launch to a group's operation (16 R337). -/
  | contrib (key : Nat × Nat) (group : Nat) (c : Contrib)
  /-- An arrival that a line sends to its parent, and a parent's release, over the event-line wiring (16 R334). -/
  | lineArrive (key : Nat)
  | lineRelease (key : Nat)
  /-- Spread launches (03 R54): RESERVE with the launch's copies, its answers, the release of a hold, COMMIT, and what
  the parts tell each other about cancel, pre-emption and completion (02 R35, 18 R367). -/
  | spReserve (key : Nat × Nat) (job set : Nat) (devs : List Nat) (hdrVa : Nat) (hdr roles chans : List Byte)
      (arg : Word) (resume : Bool)
  | spHeld (key : Nat × Nat)
  | spNoroom (key : Nat × Nat)
  | spUndefined (key : Nat × Nat)
  | spRelease (key : Nat × Nat)
  | spCommit (key : Nat × Nat) (start : Nat)
  | spCancel (key : Nat × Nat)
  | spPreempt (key : Nat × Nat)
  | spStopped (key : Nat × Nat)
  | spSaved (key : Nat × Nat)
  | spDone (key : Nat × Nat) (status : Nat) (detail : Nat) (rec : List Byte)
  /-- A part that has completed is to work again (19 R377). -/
  | spUndone (key : Nat × Nat)
  /-- A device has taken its PHASE_END and finished what counts in the phase, with the number of it (03 R49); or has
  nothing left of a phase that is cancelled. A cancel of a phase, with its device set, or of a job that reaches every
  device (03 R56). -/
  | phaseDone (job phase n : Nat) (cancelled : Bool)
  | phaseCancel (job phase : Nat) (set : List Nat)
  | jobCancel (job : Nat)
  | jobGone (job : Nat)
  /-- A frame of a class and number has been received whole, or has failed its CRC (15 R308). -/
  | frameAck (cls : MsgClass) (seq : Nat) (good : Bool)
  /-- A partial reassembly from a source has been dropped (01 R22). -/
  | dropReport (source : Node)
  deriving DecidableEq, Repr

/-- How far a message, or its present part of at most 32 flits, has come (01 R19, R20). -/
inductive MsgStage where
  /-- Its copy stands at the source's network interface. -/
  | staged
  /-- The request for reassembly space is on its way; it has arrived; space is reserved; the grant is on its way. -/
  | asking
  | asked
  | granting
  | granted
  /-- Its flits enter the network. -/
  | opened
  /-- Every flit has arrived. -/
  | whole
  /-- Delivered to the units of its destination. -/
  | landed
  deriving DecidableEq, Repr

/-- A message in flight (01 R19-R22). -/
structure Msg where
  id : Nat
  src : Node
  dst : Node
  cls : MsgClass
  body : MsgBody
  stage : MsgStage
  /-- Its present part, and the flits of it that have entered the network and that have arrived. -/
  part : Nat
  sent : Nat
  got : Nat
  /-- The NCLK in which space was reserved for its present part (01 R22). -/
  since : Nat
  deriving DecidableEq, Repr

/-- The message has been delivered to the units of its destination (01 R20). -/
def Msg.landed (m : Msg) : Bool := m.stage == .landed

/-- What a flit carries: a request for reassembly space, its grant, or 128 bytes of its message (01 R16, R19). -/
inductive FlitKind where | ask | grant | data
  deriving DecidableEq, Repr

/-- A flit in the torus (01 R16-R18). -/
structure Flit where
  msg : Nat
  kind : FlitKind
  dst : Nat
  /-- The node that it is at or on its way to, the input port, and the NCLK of its arrival there. -/
  node : Nat
  port : Nat
  due : Nat
  /-- The NCLK in which it was injected. -/
  born : Nat
  deriving DecidableEq, Repr

/-- The age field (01 R18). -/
def Flit.age (f : Flit) (t : Nat) : Nat := min 255 ((t - f.born) / 32)

/-- The on-package torus (01 R16-R18): the flits in it, the nodes whose injection waits, with the NCLK since which it
does, and the nodes that assert a hold. -/
structure Torus where
  flits : List Flit
  waits : AMap Nat
  holds : List Nat
  deriving DecidableEq, Repr

/-- The number of a class in tables by class. -/
def MsgClass.code : MsgClass → Nat
  | .request => 0 | .response => 1 | .bulk => 2 | .exchange => 3 | .control => 4 | .combine => 5

/-- A message of another device that has been received and waits for its unit, with the time in ns of its arrival. -/
structure InMsg where
  src : Nat
  body : MsgBody
  since : Nat
  deriving DecidableEq, Repr

/-- A frame to another device, or from another device (15 R307, R308): the other device, the place in the sequence of
its (source, destination, class), whether the frame passes its CRC, and the circuit pair that it leaves on; none for the
shared wavelengths. -/
structure FabricMsg where
  dev : Nat
  seq : Nat
  good : Bool
  cls : MsgClass
  body : MsgBody
  pair : Option Nat
  deriving DecidableEq, Repr

/-- A frame that has been sent and not acknowledged (15 R308): the time in ns at which it was last sent, and whether the
receiver has reported a failed CRC. -/
structure KeptFrame where
  frame : FabricMsg
  sentAt : Nat
  failed : Bool
  /-- Times that it has been sent again. -/
  tries : Nat
  deriving DecidableEq, Repr

/-- Kind of an event line (16 Table 16.7). -/
inductive LineKind where | off | barrier | mutex | event
  deriving DecidableEq, Repr

/-- A fibre that waits at an event line, with the phase it arrived in. -/
structure LineWaiter where
  who : Asker
  phase : Nat
  deriving DecidableEq, Repr

/-- An event line (16 R331-R334). -/
structure Line where
  cfg : Word
  kind : LineKind
  arrivals : Nat
  /-- Phases completed since configuration. -/
  phase : Nat
  /-- Phases whose arrivals are complete (they may wait for a parent). -/
  closed : Nat
  busy : Bool
  set : Bool
  waiters : List LineWaiter
  deriving DecidableEq, Repr

/-- A token that a Router has accepted (14 R283). -/
structure RouterTok where
  policy : Policy
  /-- Scores, widened to F32. -/
  row : List W32
  token : W32
  seq : Nat
  slot : BitVec 16
  /-- Logical index of the gate cell. -/
  gate : Nat
  poison : Bool
  deriving DecidableEq, Repr

/-- A decided record that waits for its dispatcher's allowance: the dispatcher's logical index, the record, and the
histogram words of its selected slots, which are counted as it is written (14 R285). -/
structure HeldRec where
  disp : Nat
  record : List Byte
  counted : List Nat
  deriving DecidableEq, Repr

/-- The Router of a C-die (14 R282-R285). -/
structure Router where
  launch : Option Nat
  /-- none: the next GATEQ loads the table that ROUTER names. -/
  loaded : Option Policy
  queue : List RouterTok
  /-- Decided records, oldest first. -/
  held : List HeldRec
  /-- Round-robin counters by expert. -/
  rr : AMap Nat
  /-- Counts by the address of their histogram word. -/
  hist : AMap Nat
  /-- Allowance of, and slots sent to, each dispatcher by logical index. -/
  allow : AMap Nat
  sent : AMap Nat
  deriving DecidableEq, Repr

/-- A combining group context of a job (16 R337). -/
structure Group where
  launch : Nat
  contribs : List Contrib
  deriving DecidableEq, Repr

/-- How an entry of a round stands. -/
inductive EntState where | waiting | granted | dropped | null
  deriving DecidableEq, Repr

/-- An entry of a round (14 R292-R294). -/
structure RoundEnt where
  /-- Source index. -/
  src : Nat
  ent : BinEnt
  dest : Nat
  expert : Nat
  replica : Nat
  state : EntState
  deriving DecidableEq, Repr

/-- What a round does next. -/
inductive RoundPhase where | permit | second | decided
  deriving DecidableEq, Repr

/-- A DISPATCH round (14 R292). -/
structure Round where
  id : Nat
  n : Nat
  launch : Nat
  fast : Bool
  policy : Nat
  /-- Submissions in source order. -/
  subs : List Nat
  slots : List ExSlot
  /-- Slots of the other devices of a spread launch. -/
  far : List ExSlot
  ents : List RoundEnt
  phase : RoundPhase
  deriving DecidableEq, Repr

/-- An agent that can hold the turn: a stream of a cell, and for S a fibre slot. -/
structure Agent where
  cell : Nat
  slot : Nat
  stream : Stream
  deriving DecidableEq, Repr

/-- Which agent moves next (log 3). -/
inductive Turn where
  /-- The Sequencer of a cell issues from the fibre that 04 R63 chooses. -/
  | seq (cell : Nat)
  /-- The V stream of a cell issues. -/
  | issueV (cell : Nat)
  /-- The M stream of a cell issues. -/
  | issueM (cell : Nat)
  /-- A step of the opcode table that has no encoding. -/
  | event (i : Instr)
  /-- An L1 drops a sector, writing its dirty bytes back first (11 R228, log 12). -/
  | evict (cell va : Nat)
  /-- The instruction cache of a cell takes in the sector of code at a GLOBAL address, or drops a sector (05 R73, log 31). -/
  | codeFill (cell va : Nat)
  | codeDrop (cell sector : Nat)
  /-- ECC corrects an error in a cell's scratchpad, or in the L2 or HBM of a C-die (11 R227, R230). -/
  | corrected (cell : Option Nat) (die : Nat)
  deriving DecidableEq, Repr

/-- Where a launch stands between admission and its end. -/
inductive LaunchStage where
  /-- Its cells are held and its other parts are not (03 R54). -/
  | held
  /-- It starts at that time in ns. -/
  | committed (start : Nat)
  | running
  /-- Saved since that time in ns (18 R369). -/
  | saved (since : Nat)
  deriving DecidableEq, Repr

/-- How a launch that does not end by itself ends (03 Table 3.4). -/
inductive LaunchEnd where
  | cancelled
  /-- The trap record of the first trap that failed it (18 R366). -/
  | trapped (rec : List Byte)
  /-- The detail of the fence (18 R373). -/
  | fenced (detail : Nat)
  /-- An address of its job that it needs is unmapped (03 R58). -/
  | unmapped (va : Nat)
  deriving DecidableEq, Repr

/-- What is saved beside the launch record at pre-emption (18 R369, 16 R335, 14 R301). -/
structure SavedCtx where
  /-- The origin at which it stood. -/
  col0 : Nat
  row0 : Nat
  /-- Time in ns at which the save completed (03 R53). -/
  since : Nat
  /-- Cells by logical index. -/
  cells : AMap Cell
  /-- Event lines by 16 * (logical index of the cluster's lowest cell) + line. -/
  lines : AMap Line
  /-- Routers by die. -/
  routers : AMap Router
  deriving DecidableEq, Repr

/-- A launch that has been admitted (02, 03 R52). -/
structure Launch where
  job : Nat
  /-- The work whose LAUNCH it is; none for a part whose origin is another device. -/
  work : Option Nat
  w : Nat
  h : Nat
  col0 : Nat
  row0 : Nat
  kernelId : W32
  roleCount : Nat
  /-- Role id of each logical cell. -/
  roles : List Nat
  /-- NOSTEAL of each role. -/
  nosteal : List Bool
  flags : BitVec 16
  actions : Word
  handlerPc : Word
  /-- Private region size in bytes, and the reservation in bytes (03 R52, 11 R222). -/
  privSize : Nat
  reserve : Nat
  budget : Nat
  waitlim : Nat
  umbra : Bool
  preempt : Bool
  cancel : Bool
  router : Word
  arg : Word
  /-- The copies of the header, the role map and the channel table (02 R32), and the header's address. -/
  hdrVa : Nat
  hdr : List Byte
  roleMap : List Byte
  chanTab : List Byte
  /-- Devices of a spread launch, rising; its origin device and number there; the peers that hold their parts, that
  have stopped and saved them under a pre-emption, and that have completed. -/
  spread : List Nat
  key : Option (Nat × Nat)
  heldBy : List Nat
  stoppedBy : List Nat
  savedBy : List Nat
  doneBy : List Nat
  stage : LaunchStage
  /-- Regions of the private pool in use by this launch, as GLOBAL bases. -/
  regions : List Nat
  /-- Logical indices of the cells that have retired, rising (19 R377). -/
  retired : List Nat
  /-- An event line has been configured (16 R335). -/
  lined : Bool
  /-- How it has failed or been cancelled. -/
  ended : Option LaunchEnd
  saved : Option SavedCtx
  deriving DecidableEq, Repr

/-- What a message of the device to the host says (03 R57, 19 Table 19.1). -/
inductive HostBody where
  /-- The answer to an operation of a code: a status of 03 Table 3.8 and the reply payload. -/
  | reply (code status : Nat) (data : List Byte)
  /-- A completion record (19 Table 19.2). -/
  | completion (rec : List Byte)
  /-- An EVENT message of a kind with what follows its job id (19 R380). -/
  | event (kind job : Nat) (data : List Byte)
  | winw (window off : Nat) (data : List Byte)
  | winr (window off n : Nat)
  /-- Acknowledged segments: operation number and segment index. -/
  | ack (l : List (Nat × Nat))
  /-- The device description (03 Table 3.7): device number, usable cells, excluded cells as (col, row), fenced functions,
  security version, certificate chain, domain form where link training found it, the bring-up step that failed. -/
  | desc (device usable : Nat) (excluded fenced : List (Nat × Nat)) (version : Nat) (certs : List Byte)
      (form failed : Option Nat)
  /-- The attestation report (19 R385): serial number, security version, measurements, nonce, signature. -/
  | report (serial : List Byte) (version : Nat) (measurements : List (List Byte)) (nonce signature : List Byte)
  deriving DecidableEq, Repr

/-- A message of the device to the host; its operation number is the request's for a reply and of the device's own
series otherwise (03 R57). -/
structure HostMsg where
  session : Nat
  op : Nat
  body : HostBody
  /-- The segments that are sent, rising: all of them at first, those due when a message is sent again. -/
  segs : List Nat
  deriving DecidableEq, Repr

/-- A WINW or WINR that has not been answered: its session and number, and the segment of the transfer it serves, with
the device whose transfer it is. -/
structure WinOp where
  session : Nat
  op : Nat
  dev : Nat
  cell : Nat
  seg : Nat
  /-- Bytes that a WINR asks for; none for a WINW. -/
  n : Option Nat
  /-- The job and window, and the time in ns at which it was sent (19 R378). -/
  job : Nat
  window : Nat
  sentAt : Nat
  deriving DecidableEq, Repr

/-- A segment of the host that has been kept (03 R57). -/
structure InSeg where
  op : Nat
  idx : Nat
  code : Nat
  last : Bool
  data : List Byte
  deriving DecidableEq, Repr

/-- A session (03 R42); an administrative session has no job. -/
structure Session where
  job : Option Nat
  /-- Number of the next operation of the host, and of the next one of the device. -/
  next : Nat
  devNext : Nat
  segs : List InSeg
  /-- An operation that has begun and has not completed (03 R58 JOBMAP, JOBUNMAP, JOBDEL). -/
  busy : Bool
  deriving DecidableEq, Repr

/-- A submission queue (03 R44, R48, R51). -/
structure Queue where
  job : Nat
  base : Nat
  logN : Nat
  notify : Bool
  /-- Entries appended and taken since its registration. -/
  tail : Nat
  taken : Nat
  /-- Sessions that appended the entries not yet taken, oldest first. -/
  owners : List Nat
  /-- Indices, ascending, of entries that a cancel has removed from the ring (03 R56). -/
  removed : List Nat
  /-- The phase that is open on it and its device set. -/
  phase : Option (Nat × List Nat)
  /-- Hardware slot, and the time in ns since which it holds it. -/
  slot : Option (Nat × Nat)
  /-- Time in ns since which its head has waited; priority levels gained by waiting. -/
  waitSince : Nat
  aged : Nat
  /-- Time in ns since which it has not been runnable. -/
  blockedSince : Option Nat
  /-- The entry at whose start it is unmapped by a rotation (03 R51 rule 5). -/
  leaving : Option Nat
  deriving DecidableEq, Repr

/-- A node of a replay's copy of its graph (02 Table 2.7). -/
structure GNode where
  kind : Nat
  param : Bool
  body : Nat
  arg : Nat
  succs : List Nat
  preds : Nat
  deriving DecidableEq, Repr

/-- A replay of a graph object (02 R38-R40). -/
structure Replay where
  /-- GLOBAL address of the object. -/
  va : Nat
  nodes : List GNode
  /-- Copy of the instance area, and its GLOBAL address. -/
  copy : Nat
  inst : Nat
  concurrent : Bool
  startedNodes : List Nat
  /-- The replay's completion counter counts these. -/
  doneNodes : List Nat
  deriving DecidableEq, Repr

/-- A COPY entry under way (03 Table 3.5): bytes read so far, bytes written so far, and its pieces outside the device. -/
structure CopyProg where
  buf : List (Byte × Bool)
  written : Nat
  segs : List Seg
  /-- The status and detail that it ends with once every piece that it wrote has been answered (19 R379). -/
  ending : Option (Nat × Nat)
  deriving DecidableEq, Repr

/-- An entry that has been taken, or a graph node that has started (03 R46-R48, 02 R38). -/
structure Work where
  job : Nat
  /-- Queue and ring index, for an entry. -/
  entry : Option (Nat × Nat)
  /-- Work of the replay and node index, for a graph node. -/
  node : Option (Nat × Nat)
  session : Nat
  notify : Bool
  tag : Nat
  kind : Nat
  /-- The 64 bytes of the entry; for a node its body at offsets 8 to 63. -/
  bytes : List Byte
  /-- The devices of a spread LAUNCH, by the sets that the job had when it was taken (03 R58). -/
  devs : List Nat
  /-- The address that the address operands of a PARAM node take (02 R39). -/
  param : Option Nat
  phase : Option Nat
  started : Bool
  waitSince : Nat
  launch : Option Nat
  /-- The origin that launches are being saved for (03 R53), with the shape. -/
  hold : Option (Nat × Nat × Nat × Nat)
  copy : Option CopyProg
  replay : Option Replay
  /-- Being cancelled, with the status that it ends with (03 R56, 18 R374). -/
  cancel : Option Nat
  /-- The effective priority that a launch had when it was saved (03 R53). -/
  eff : Nat
  /-- Time in ns before which a spread admission that met NOROOM is not tried again. -/
  retryAt : Nat
  deriving DecidableEq, Repr

/-- A phase of a job on this device (03 R49). -/
structure Phase where
  job : Nat
  id : Nat
  set : List Nat
  /-- Graphs and launches counted in it that have completed on this device (02 Table 2.8). -/
  graphs : Nat
  /-- This device has told the others that it is done; devices that have told this one, with what they counted. -/
  told : Bool
  done : List (Nat × Nat)
  /-- It is being cancelled (03 R56). -/
  cancel : Bool
  deriving DecidableEq, Repr

/-- The counter of a phase: what has completed in it, summed over the domain (02 Table 2.8). -/
def Phase.total (p : Phase) : Nat := p.done.foldl (fun n e => n + e.2) p.graphs

/-- An invalidation under way (11 R234): the job, the pages in units of 64 KiB, and the operation that waits for it. -/
structure Inv where
  job : Nat
  page : Nat
  n : Nat
  session : Nat
  op : Nat
  code : Nat
  /-- The tables before the change: until the invalidation completes an access may still use them. -/
  old : List ((Nat × Nat) × Word)
  deriving DecidableEq, Repr

/-- A translation that a TLB holds: the job, the level of the leaf and its page (11 R234). -/
structure TlbEntry where
  job : Nat
  level : Nat
  page : Nat
  deriving DecidableEq, Repr

/-- A pin of whole pages of 64 KiB (11 R235). -/
structure Pin where
  /-- First page (virtual address / 65536) and number of pages. -/
  page : Nat
  n : Nat
  revoking : Bool
  deriving DecidableEq, Repr

/-- State of a lease (15 Table 15.4). -/
inductive LeaseState where | pending | granted | ended
  deriving DecidableEq, Repr

/-- A lease of this device (15 R310-R318). -/
structure Lease where
  /-- Generation and slot (15 R316). -/
  id : Nat
  job : Nat
  /-- Launch and logical index of the cell whose counter it names. -/
  launch : Nat
  idx : Nat
  k : KReg
  dest : Nat
  /-- Count of the last LEASE. -/
  want : Nat
  /-- End of the term in ns. -/
  endsAt : Nat
  st : LeaseState
  /-- Pairs granted and not under notice, in grant order. -/
  pairs : List Nat
  /-- Pairs under notice, with the time in ns at which each notice ends. -/
  notice : List (Nat × Nat)
  /-- A grant that has arrived and not settled. -/
  arrived : Option (List Nat)
  deriving DecidableEq, Repr

/-- A request of a lease in flight, with what it offers (15 R311); it may outlive its lease. -/
structure LeaseAsk where
  id : Nat
  dest : Nat
  offers : List Nat
  deriving DecidableEq, Repr

/-- A lease of another device that ends here, as this device's Lease Controller holds it (15 R311, R313). -/
structure InLease where
  src : Nat
  id : Nat
  /-- Time in ns at which it last entered GRANTED. -/
  since : Nat
  pairs : List Nat
  deriving DecidableEq, Repr

/-- A request of another device that waits here (15 R313). -/
structure InReq where
  src : Nat
  id : Nat
  count : Nat
  offers : List Nat
  /-- The pair that is being revoked for it. -/
  revoking : Option Nat
  deriving DecidableEq, Repr

/-- A job (03 R58, Table 3.10). -/
structure Job where
  priority : Nat
  preemptible : Bool
  /-- 0 OFF, 1 ON, 2 BY_KERNEL. -/
  umbra : Nat
  /-- 0 LAUNCH, 1 GRAPH, 2 PHASE (18 R374). -/
  containment : Nat
  digest : List Byte
  allotBase : Nat
  allotSize : Nat
  shadowSize : Nat
  /-- Device sets by index. -/
  sets : AMap (List Nat)
  /-- Phases completed (02 Table 2.8). -/
  phases : Nat
  /-- Being cancelled as a whole (03 R56); this device has told the others that it is done; devices that have told
  this one. -/
  cancel : Bool
  told : Bool
  gone : List Nat
  /-- Page-table entries: ((level, index from bit 16 up), entry) (11 R231). -/
  pt : List ((Nat × Nat) × Word)
  devSet : List Nat
  poolBase : Nat
  poolSize : Nat
  /-- GLOBAL address of the poison log's status block and of its ring, and log2 of its entries (19 R382). -/
  poisonBlock : Nat
  poisonRing : Nat
  poisonN : Nat
  pins : List Pin
  /-- Lease quota on the device (15 R310). -/
  quota : Nat
  /-- Host windows by number, with the session that registered them and their size in bytes (19 R378). -/
  windows : AMap (Nat × Nat)
  deriving DecidableEq, Repr

end Sys2Proof.Machine
end

