-- ==== Sys2Proof/Machine/State.lean ====
section
/-!
DEFINITION. The state of the machine, the reasons a step can stop, and the state right after reset.
-/

namespace Sys2Proof.Machine

open Sys2Proof

/-- The state of one device. -/
structure State where
  /-- The agent that the last turn chose (log 3). -/
  cur : Agent
  /-- Which agents move next: the turns of one CCLK, then those of the next (log 3). -/
  agenda : List (List Turn)
  /-- Device time in CCLK (log 4). -/
  now : Nat
  /-- Free values drawn so far (log 5). -/
  fresh : Nat
  /-- Next number for a message or a fibre. -/
  nextId : Nat
  /-- Cells by physical number col + 24 * row; an unlisted cell is idle. -/
  cells : AMap Cell
  /-- Bytes of device memory that are not 0, addresses rising. -/
  mem : List Host.Cell
  /-- Poisoned sectors of device memory, rising (sector = address / 64) (11 R230). -/
  memPoison : List Nat
  /-- The launch, entry or graph node under way that last wrote a byte of device memory, by address; the model's own
  record for a cancel (03 R56, log 57). -/
  authors : AMap Nat
  /-- Event lines by 16 * cluster + line; an unlisted line is OFF. -/
  lines : AMap Line
  net : List Msg
  torus : Torus
  /-- Sources of dropped reassemblies, as reported to the system controller (01 R22). -/
  dropReports : List Node
  /-- Frames sent to other devices, oldest first (log 8), and those that are kept until they are acknowledged. -/
  fabricOut : List FabricMsg
  fabricKept : List KeptFrame
  /-- Next sequence numbers towards and from other devices, by 8 * device + class (15 R307). -/
  fabricSeqOut : AMap Nat
  fabricSeqIn : AMap Nat
  /-- Frames on their way from other devices: an input (log 8). -/
  fabricIn : List FabricMsg
  /-- Messages of class CONTROL of other devices that have been received and wait for their unit. -/
  inbox : List InMsg
  /-- Fibres whose waits at other devices are being withdrawn. -/
  recalls : List Asker
  /-- Messages sent to the host, oldest first, and those with segments not yet acknowledged, with these and the time in
  ns at which each was last sent (03 R57). -/
  hostOut : List HostMsg
  unacked : List (HostMsg × List (Nat × Nat))
  sessions : AMap Session
  /-- Segments of OPEN requests that have arrived. -/
  opens : List InSeg
  winOps : List WinOp
  /-- The TLBs: of cluster k under k, of C-die d under 96 + d (11 R234). -/
  tlbs : AMap (List TlbEntry)
  /-- Translation invalidations under way, by number (11 R234). -/
  invs : AMap Inv
  /-- Submission queues by number, entries and nodes under way, and open phases (03). -/
  queues : AMap Queue
  works : AMap Work
  phases : List Phase
  /-- The LAUNCH that drains the device (03 R51), and the hardware slot admitted last. -/
  drainFor : Option Nat
  lastSlot : Nat
  jobs : AMap Job
  launches : AMap Launch
  /-- Routers by C-die. -/
  routers : AMap Router
  /-- Requests that the Exchange Engines hold, oldest first, and the rounds that have started. -/
  exch : List ExSub
  rounds : List Round
  /-- Slots that other devices have told of: the launch's key, the round, the device. -/
  farSlots : List ((Nat × Nat) × Nat × Nat × List ExSlot)
  /-- Combining groups that are claimed, by 16 * job + group, and contributions of other parts of spread launches: the
  launch's key, the group and the contribution. -/
  groups : AMap Group
  farContribs : List ((Nat × Nat) × Nat × Contrib)
  /-- Counters of the die monitors, by 32 * die + index (19 Table 19.5). -/
  dieMon : AMap Nat
  /-- Leases of this device by slot (15 R316), requests in flight, and egress pairs that drain, with their destinations
  (15 R314). -/
  leases : AMap Lease
  asks : List LeaseAsk
  draining : List (Nat × Nat)
  /-- Leases and requests of other devices that end here (15 R311, R313), in arrival order, and ingress pairs under
  notice, with their sources. -/
  inLeases : List InLease
  inReqs : List InReq
  noticed : List (Nat × Nat)
  /-- Device number in the domain (15). -/
  device : Nat
  /-- Physical cells that the repair map excludes (01 R15), and cells fenced since (18 R373). -/
  excluded : List Nat
  /-- ROUTE_EMPTY (06 Table 6.4). -/
  routeEmpty : Word
  /-- Functions fenced beside cells: 1 Router, 2 Exchange Engine and 3 Turob port with their number; 4 the device
  (18 Table 18.9). -/
  fencedFns : List (Nat × Nat)
  /-- Bring-up has been run (19 R387), and the step of it that failed. -/
  up : Bool
  bootFailed : Option Nat
  /-- The four measurement registers (19 R385), and the domain form that link training found (15 R304). -/
  measured : List (List Byte)
  form : Option Nat
  /-- The Ethernet source filter of the manifest: the addresses that it lets in; none where it lets all in (19 R386). -/
  sources : Option (List (List Byte))
  /-- The power cap in W, and the time in ns at which a window last had 90 % of it or more, or the device was last too hot (19
  R388). -/
  cap : Nat
  warmAt : Nat
  /-- The device runs at the half power step (01 R2, 19 R388). -/
  half : Bool
  /-- The device time in CCLK at which the power step last changed, and the device time in sevenths of a ns at that moment
  (00 R2, 01 R25). -/
  stepAt : Nat
  sevenths : Nat
  deriving DecidableEq, Repr

/-- Why the machine stops with a fault. -/
inductive Fault where
  /-- The agenda names an encoded word as a step without an encoding: an input that is no step of the spec. Raised by
  `step`. Safe: no behaviour of the device is lost. -/
  | badTurn
  deriving DecidableEq, Repr

/-- Why an instruction has no meaning. -/
inductive Refusal where
  /-- The instruction of that mnemonic has no meaning in the model. Raised by `exec`. Safe. -/
  | notModelled (mnemonic : String)
  deriving DecidableEq, Repr

/-- The state right after reset. -/
def State.reset : State where
  cur := { cell := 0, slot := 17, stream := .s }
  agenda := []
  now := 0
  fresh := 0
  nextId := 0
  cells := []
  mem := []
  memPoison := []
  authors := []
  lines := []
  net := []
  torus := { flits := [], waits := [], holds := [] }
  dropReports := []
  fabricOut := []
  fabricKept := []
  fabricSeqOut := []
  fabricSeqIn := []
  fabricIn := []
  inbox := []
  recalls := []
  hostOut := []
  unacked := []
  sessions := []
  opens := []
  winOps := []
  tlbs := []
  invs := []
  queues := []
  works := []
  phases := []
  drainFor := none
  lastSlot := 63
  jobs := []
  launches := []
  routers := []
  exch := []
  rounds := []
  farSlots := []
  groups := []
  farContribs := []
  dieMon := []
  leases := []
  asks := []
  draining := []
  inLeases := []
  inReqs := []
  noticed := []
  device := 0
  excluded := []
  routeEmpty := 0
  fencedFns := []
  up := false
  bootFailed := none
  measured := List.replicate 4 (List.replicate 48 0)
  form := none
  sources := none
  cap := 3200
  warmAt := 0
  half := false
  stepAt := 0
  sevenths := 0

end Sys2Proof.Machine
end

