-- ==== Sys2Proof/Machine/Maps.lean ====
section
/-!
DEFINITION. Finite maps, sets of numbers and byte memories as sorted lists.
-/

namespace Sys2Proof.Machine

open Sys2Proof

/-- The value at a key. -/
def AMap.find {α : Type} : AMap α → Nat → Option α
  | [], _ => none
  | (k, a) :: r, n => if k = n then some a else AMap.find r n

/-- The map with a value put at a key, keys kept rising. -/
def AMap.put {α : Type} : AMap α → Nat → α → AMap α
  | [], n, x => [(n, x)]
  | (k, a) :: r, n, x =>
    if n < k then (n, x) :: (k, a) :: r
    else if k = n then (n, x) :: r
    else (k, a) :: AMap.put r n x

/-- The map without a key. -/
def AMap.del {α : Type} : AMap α → Nat → AMap α
  | [], _ => []
  | (k, a) :: r, n => if k = n then r else (k, a) :: AMap.del r n

/-- Keys rise from a bound on. -/
def AMap.wfFrom {α : Type} : Nat → AMap α → Bool
  | _, [] => true
  | lo, (k, _) :: r => lo ≤ k && AMap.wfFrom (k + 1) r

/-- Keys rise. -/
def AMap.wf {α : Type} (m : AMap α) : Bool := AMap.wfFrom 0 m

/-- The lowest number from `lo` on, at most `fuel` numbers further, that is no key. -/
def AMap.lowestFree {α : Type} (m : AMap α) : Nat → Nat → Option Nat
  | 0, _ => none
  | fuel + 1, lo => if (m.find lo).isSome then AMap.lowestFree m fuel (lo + 1) else some lo

/-- A rising list of numbers with a number put in. -/
def setAdd : List Nat → Nat → List Nat
  | [], n => [n]
  | k :: r, n => if n < k then n :: k :: r else if k = n then k :: r else k :: setAdd r n

/-- A rising list of numbers without a number. -/
def setDel : List Nat → Nat → List Nat
  | [], _ => []
  | k :: r, n => if k = n then r else k :: setDel r n

/-- A rising list of numbers with a number put in or taken out. -/
def setTo (l : List Nat) (n : Nat) (b : Bool) : List Nat := if b then setAdd l n else setDel l n

/-- A byte of a memory: an address that is not listed reads as 0 (11 R225, 19 R387). -/
def Mem.read : List Host.Cell → Nat → Byte
  | [], _ => 0
  | (k, b) :: r, a => if k = a then b else Mem.read r a

/-- Put a byte that is not 0, or take the entry out when the byte is 0, so that the form stays canonical. -/
def Mem.write : List Host.Cell → Nat → Byte → List Host.Cell
  | [], a, x => if x = 0 then [] else [(a, x)]
  | (k, b) :: r, a, x =>
    if a < k then (if x = 0 then (k, b) :: r else (a, x) :: (k, b) :: r)
    else if k = a then (if x = 0 then r else (a, x) :: r)
    else (k, b) :: Mem.write r a x

/-- Addresses rise from a bound on and no listed byte is 0. -/
def Mem.wfFrom : Nat → List Host.Cell → Bool
  | _, [] => true
  | lo, (k, b) :: r => lo ≤ k && b != 0 && Mem.wfFrom (k + 1) r

/-- The canonical form of a memory. -/
def Memory.wf (m : List Host.Cell) : Bool := Mem.wfFrom 0 m

/-- The `n` bytes from an address, lowest first. -/
def Mem.readBytes (m : List Host.Cell) : Nat → Nat → List Byte
  | 0, _ => []
  | n + 1, a => Mem.read m a :: Mem.readBytes m n (a + 1)

/-- Write bytes from an address on. -/
def Mem.writeBytes (m : List Host.Cell) : Nat → List Byte → List Host.Cell
  | _, [] => m
  | a, b :: r => Mem.writeBytes (Mem.write m a b) (a + 1) r

/-- The number that bytes stand for, little-endian. -/
def bytesNat : List Byte → Nat
  | [] => 0
  | b :: r => b.toNat + 256 * bytesNat r

/-- The low `n` bytes of a number, little-endian. -/
def natBytes : Nat → Nat → List Byte
  | 0, _ => []
  | n + 1, x => BitVec.ofNat 8 x :: natBytes n (x / 256)

/-- The little-endian number in `n` bytes from an address. -/
def Mem.readNat (m : List Host.Cell) (n a : Nat) : Nat := bytesNat (Mem.readBytes m n a)

/-- The numbers from `lo`, `n` of them. -/
def upFrom : Nat → Nat → List Nat
  | 0, _ => []
  | n + 1, lo => lo :: upFrom n (lo + 1)

/-- Sectors of 64 B that the `n` bytes from an address touch. -/
def sectors (a n : Nat) : List Nat := if n = 0 then [] else upFrom ((a + n - 1) / 64 - a / 64 + 1) (a / 64)

/-- The poison of the sectors of `n` bytes from an address. -/
def anyPoison (p : List Nat) (a n : Nat) : Bool := (sectors a n).any (fun s => p.contains s)

/-- The poison after a write of `n` bytes from an address (11 R227): a poisoned write sets the bit of each sector, a
clean one clears it where it covers the sector. -/
def poisonAfter (p : List Nat) (a n : Nat) (bad : Bool) : List Nat :=
  (sectors a n).foldl (fun p s =>
    if bad then setAdd p s
    else if a ≤ 64 * s ∧ 64 * s + 64 ≤ a + n then setDel p s else p) p

/-- Bits `hi` down to `lo` of a word, as a number. -/
def fld (w : Word) (hi lo : Nat) : Nat := w.toNat / 2 ^ lo % 2 ^ (hi + 1 - lo)

/-- Bits `hi` down to `lo` of a number. -/
def nfld (w hi lo : Nat) : Nat := w / 2 ^ lo % 2 ^ (hi + 1 - lo)

/-- A Boolean as the number 0 or 1. -/
def b2n (b : Bool) : Nat := if b then 1 else 0

/-- A number as a 64-bit word. -/
abbrev w64 (n : Nat) : Word := BitVec.ofNat 64 n

/-- Replace the element at an index of a list. -/
def listSet {α : Type} : List α → Nat → α → List α
  | [], _, _ => []
  | _ :: r, 0, x => x :: r
  | a :: r, n + 1, x => a :: listSet r n x

end Sys2Proof.Machine
end

