-- ==== Sys2Proof/Machine/Ops.lean ====
section
/-!
DEFINITION. The named operations over cells, fibres and counters, and taking and leaving a trap.
-/

namespace Sys2Proof.Machine

open Sys2Proof

/-! ## Empty units -/

/-- No trap (18 R357). -/
def TrapRegs.zero : TrapRegs := { code := 0, pc := 0, detail := 0, seq := 0, stream := 0, written := false }

/-- A fibre's body before anything has been put into it. -/
def FBody.zero : FBody where
  fid := 0
  kind := .task
  g := Vector.replicate 8 0
  pc := 0
  blk := none
  branch := none
  outst := 0
  window := (0, 0)
  refusals := []
  startNo := 0
  used := 0
  since := none
  priv := none
  sends := []
  replyBuf := none
  replied := false
  order := 0
  ending := false
  stop := false

/-- A fibre before anything has been put into it. -/
def Fibre.zero : Fibre :=
  { body := .zero, status := .ready, trap := .zero, frame := none, parkSeq := none }

/-- An engine with no stream (05 R86). -/
def Engine.idle : Engine where
  run := none
  tok := none
  wait := none
  waitSince := 0
  flights := []
  clk := 0
  forks := []
  stopped := false
  stale := []
  loop := none
  g := Vector.replicate 16 0

/-- The Vector Unit at admission (05 R86, 08 R154). -/
def VUnit.idle : VUnit where
  eng := .idle
  v := Vector.replicate 32 0
  vp := Vector.replicate 32 0
  m := (Vector.replicate 8 0).set 0 (BitVec.allOnes 512)
  binds := []
  busy := []

/-- A tile of zeros (05 R86). -/
def Tile.zero : Tile := { rows := Vector.replicate 64 0, poison := 0 }

/-- The Matrix Engine at admission (05 R86, 09 R182). -/
def MUnit.idle : MUnit where
  eng := .idle
  z := Vector.replicate 8 .zero
  mconf := 0
  issued := 0
  arr := none
  arrFree := 0

/-- An endpoint that the channel table does not name (16 R324). -/
def Endpoint.unused : Endpoint where
  side := .unused
  slots := 1
  size := 64
  peer := none
  peerEp := 0
  filled := 0
  count := 0
  seq := 0
  array := 0
  k := 0

/-- A cell that no launch holds, every register at its value at admission, its caches empty (06 R125, 05 R73, R86, 11 R225; log 1). -/
def Cell.idle : Cell where
  launch := none
  x := 0
  y := 0
  role := 0
  cbase := 0
  seed := 1
  qovf := false
  binbase := 0
  reqseq := 0
  pmc := Vector.replicate 4 0
  pmsel := 0
  pmSince := Vector.replicate 4 0
  late := []
  icache := []
  bins := []
  k := Vector.replicate 32 0
  acts := []
  fibres := []
  v := .idle
  m := .idle
  spad := { bytes := [], full := [], poison := [] }
  l1 := []
  fe := []
  am := []
  amWaiting := []
  chans := Vector.replicate 16 .unused
  copy := { fifo := [], slots := [], xfers := [], comps := [] }
  deque := []
  steal := { last := none, empties := 0, phase := .idle }
  started := 0
  lastTask := 255
  handlerIssues := []
  comb := []
  readyQ := []
  exIssued := 0
  prismWait := []
  prismOk := []
  kwide := 0
  feWide := []
  acqDue := false
  injected := []
  extracted := []
  results := []
  traps := []
  nextOrder := 0

/-- A launch record with nothing in it, read where a cell has no launch. -/
def Launch.zero : Launch where
  job := 0
  work := none
  w := 1
  h := 1
  col0 := 0
  row0 := 0
  kernelId := 0
  roleCount := 0
  roles := []
  nosteal := []
  flags := 0
  actions := 0
  handlerPc := 0
  privSize := 0
  reserve := 0
  budget := 0
  waitlim := 0
  umbra := false
  preempt := false
  cancel := false
  router := 0
  arg := 0
  hdrVa := 0
  hdr := []
  roleMap := []
  chanTab := []
  spread := []
  key := none
  heldBy := []
  stoppedBy := []
  savedBy := []
  doneBy := []
  stage := .running
  regions := []
  retired := []
  lined := false
  ended := none
  saved := none

/-- A job with nothing in it, read where there is none. -/
def Job.zero : Job where
  priority := 0
  preemptible := false
  umbra := 0
  containment := 0
  digest := []
  allotBase := 0
  allotSize := 0
  shadowSize := 0
  sets := []
  phases := 0
  cancel := false
  told := false
  gone := []
  pt := []
  devSet := []
  poolBase := 0
  poolSize := 0
  poisonBlock := 0
  poisonRing := 0
  poisonN := 0
  pins := []
  quota := 0
  windows := []

/-! ## Time -/

/-- Device time in sevenths of a ns: a CCLK takes 10/7 ns at the full power step, 700 MHz, and 20/7 ns at the half step,
350 MHz (00 R2). DEDUCED, unsafe (log 4): the clock runs at exactly these rates. -/
def State.time7 (s : State) : Nat := s.sevenths + (s.now - s.stepAt) * (if s.half then 20 else 10)

/-- Device time in ns since boot. -/
def State.ns (s : State) : Nat := s.time7 / 7

/-! ## Cells, launches, fibres -/

/-- A cell by physical number. -/
def State.cell (s : State) (c : Nat) : Cell := (s.cells.find c).getD .idle

/-- Put a cell back. -/
def State.setCell (s : State) (c : Nat) (x : Cell) : State := { s with cells := s.cells.put c x }

/-- Change a cell. -/
def State.updCell (s : State) (c : Nat) (f : Cell → Cell) : State := s.setCell c (f (s.cell c))

/-- The cell whose agent acts. -/
def State.here (s : State) : Cell := s.cell s.cur.cell

/-- A launch by number. -/
def State.launch (s : State) (l : Nat) : Launch := (s.launches.find l).getD .zero

/-- The launch that holds a cell. -/
def State.launchOf (s : State) (c : Nat) : Launch :=
  match (s.cell c).launch with
  | some l => s.launch l
  | none => .zero

/-- The launch of the acting cell. -/
def State.myLaunch (s : State) : Launch := s.launchOf s.cur.cell

/-- A launch holds the cell and runs: it has started and is neither saved, nor being pre-empted or cancelled. -/
def State.active (s : State) (c : Nat) : Bool :=
  (s.cell c).launch.isSome && (s.launchOf c).stage == .running && !(s.launchOf c).preempt && !(s.launchOf c).cancel

/-- Change a launch. -/
def State.updLaunch (s : State) (l : Nat) (f : Launch → Launch) : State :=
  { s with launches := s.launches.put l (f (s.launch l)) }

/-- A job by number. -/
def State.job (s : State) (j : Nat) : Job := (s.jobs.find j).getD .zero

/-- Physical number of a logical cell (01 R13). -/
def Launch.phys (l : Launch) (x y : Nat) : Nat := (l.col0 + x) + Config.cols * (l.row0 + y)

/-- Physical number of a logical index (01 R13). -/
def Launch.physIdx (l : Launch) (i : Nat) : Nat := l.phys (i % l.w) (i / l.w)

/-- Logical index of a cell of a launch (01 R13). -/
def Cell.idx (c : Cell) (l : Launch) : Nat := c.x + c.y * l.w

/-- Cluster of a physical cell (01 R12). -/
def clusterOf (c : Nat) : Nat := (c % Config.cols) / 2 + 12 * ((c / Config.cols) / 4)

/-- C-die of a physical cell (01 R12). -/
def dieOf (c : Nat) : Nat := (c % Config.cols) / 12 + 2 * ((c / Config.cols) / 16)

/-- Member number of a physical cell in its cluster (01 R12). -/
def memberOf (c : Nat) : Nat := (c % Config.cols) % 2 + 2 * ((c / Config.cols) % 4)

/-- The physical cell that is member `m` of the cluster of cell `c` (01 R12). -/
def memberCell (c m : Nat) : Nat :=
  (2 * ((c % Config.cols) / 2) + m % 2) + Config.cols * (4 * ((c / Config.cols) / 4) + m / 2)

/-- The fibre in a slot. -/
def Cell.fibre (c : Cell) (slot : Nat) : Fibre := (c.fibres.find slot).getD .zero

/-- Put a fibre in a slot. -/
def Cell.setFibre (c : Cell) (slot : Nat) (f : Fibre) : Cell := { c with fibres := c.fibres.put slot f }

/-- Make a slot FREE (04 R61). -/
def Cell.freeSlot (c : Cell) (slot : Nat) : Cell := { c with fibres := c.fibres.del slot }

/-- The fibre that acts. -/
def State.fibre (s : State) : Fibre := s.here.fibre s.cur.slot

/-- Change the fibre that acts. -/
def State.updFibre (s : State) (f : Fibre → Fibre) : State :=
  s.updCell s.cur.cell (fun c => c.setFibre s.cur.slot (f (c.fibre s.cur.slot)))

/-- Change the acting cell. -/
def State.updHere (s : State) (f : Cell → Cell) : State := s.updCell s.cur.cell f

/-- A g register of the fibre that acts. -/
def State.g (s : State) (r : GReg) : Word := s.fibre.body.g[r]

/-- Put a message into the network (01 R19-R21). -/
def State.send (s : State) (src dst : Node) (cls : MsgClass) (body : MsgBody) : State :=
  let m : Msg :=
    { id := s.nextId
      src := src
      dst := dst
      cls := cls
      body := body
      stage := .staged
      part := 0
      sent := 0
      got := 0
      since := 0 }
  { s with
    net := s.net ++ [m]
    nextId := s.nextId + 1 }

/-- The job of a launch by its key on this device. -/
def State.keyJob (s : State) (key : Nat × Nat) : Option Nat :=
  (s.launches.find? (fun e => e.2.key = some key)).map (fun e => e.2.job)

/-- The job whose circuit wavelengths a message may use; none where it travels on shared wavelengths (15 Table 15.2). -/
def MsgBody.job? (b : MsgBody) (s : State) : Option Nat :=
  match b with
  | .bulkRead ctx _ _ _ _ => some ctx.job
  | .bulkWrite ctx _ _ _ _ _ => some ctx.job
  | .bulkAns job _ _ _ => some job
  | .packet _ _ _ _ _ _ _ _ _ _ _ org => org.key.bind s.keyJob
  | .notice _ _ _ _ _ org => org.key.bind s.keyJob
  | .retRow _ _ _ _ _ _ _ _ _ org => org.key.bind s.keyJob
  | .exDemand key _ => s.keyJob key
  | .exSlots key _ _ => s.keyJob key
  | .exAbandon key _ _ _ => s.keyJob key
  | .exFast key _ _ _ _ => s.keyJob key
  | _ => none

/-- The pairs that a job's leases hold towards a device, before and during a notice (15 R306, R314). -/
def State.pairsOf (s : State) (job dev : Nat) : List Nat :=
  s.leases.flatMap (fun e =>
    if e.2.job = job ∧ e.2.dest = dev ∧ e.2.st ≠ .ended then e.2.pairs ++ e.2.notice.map Prod.fst else [])

/-- The pairs that carry a message of a class to a device (15 R307): a lease carries BULK and EXCHANGE alone. -/
def State.pairsFor (s : State) (dev : Nat) (cls : MsgClass) (body : MsgBody) : List Nat :=
  match cls, body.job? s with
  | .bulk, some job => s.pairsOf job dev
  | .exchange, some job => s.pairsOf job dev
  | _, _ => []

/-- The pair that the next frame of a message leaves on: any that is allowed (15 R307). -/
def State.pickPair (s : State) (n dev : Nat) (cls : MsgClass) (body : MsgBody) : Option Nat :=
  match s.pairsFor dev cls body with
  | [] => none
  | l => l[Config.pick s.fresh 13 n % l.length]?

/-- Send a message to another device of the domain, under the next number of its sequence (15 R307); its frame is kept
until it is acknowledged (15 R308). -/
def State.sendFabric (s : State) (dev : Nat) (cls : MsgClass) (body : MsgBody) : State :=
  let key := 8 * dev + cls.code
  let n := (s.fabricSeqOut.find key).getD 0
  let f : FabricMsg :=
    { dev := dev, seq := n, good := true, cls := cls, body := body, pair := s.pickPair n dev cls body }
  { s with
    fabricOut := s.fabricOut ++ [f]
    fabricKept := s.fabricKept ++ [{ frame := f, sentAt := s.ns, failed := false, tries := 0 }]
    fabricSeqOut := s.fabricSeqOut.put key (n + 1) }

/-- Tell another device that a frame has been received or has failed its CRC (15 R308); no acknowledgement is kept. -/
def State.ackFrame (s : State) (f : FabricMsg) (good : Bool) : State :=
  { s with fabricOut := s.fabricOut ++
      [{ dev := f.dev, seq := f.seq, good := true, cls := .response, body := .frameAck f.cls f.seq good, pair := none }] }

/-- The operation code of a message to the host (03 Table 3.7). -/
def HostBody.code : HostBody → Nat
  | .reply c _ _ => c
  | .completion _ => 32
  | .event _ _ _ => 33
  | .winw _ _ _ => 34
  | .winr _ _ _ => 35
  | .ack _ => 48
  | .desc _ _ _ _ _ _ _ _ => 12
  | .report _ _ _ _ _ => 13

/-- A message to the host is a reply (03 R57). -/
def HostBody.isReply : HostBody → Bool
  | .reply _ _ _ => true
  | .desc _ _ _ _ _ _ _ _ => true
  | .report _ _ _ _ _ => true
  | _ => false

/-- The status field of a message to the host (03 Table 3.6). -/
def HostBody.status : HostBody → Nat
  | .reply _ st _ => st
  | _ => 0

/-- The payload of a message to the host (03 Table 3.7). -/
def HostBody.payload : HostBody → List Byte
  | .reply _ _ d => d
  | .completion r => r
  | .event kind job d => natBytes 1 kind ++ natBytes 3 0 ++ natBytes 4 job ++ d
  | .winw w off d => natBytes 1 w ++ natBytes 8 off ++ d
  | .winr w off n => natBytes 1 w ++ natBytes 8 off ++ natBytes 4 n
  | .ack l => (l.map (fun e => natBytes 2 e.2 ++ natBytes 2 0 ++ natBytes 4 e.1)).flatten
  | .desc device usable excluded fenced version certs form failed =>
    Config.descriptionBytes (device, usable, excluded, fenced, version, certs, form, failed)
  | .report serial version measurements nonce signature =>
    Config.reportLayout serial version measurements nonce signature

/-- Segment indices of a message: 8,192 bytes each but the last (03 R57). -/
def HostBody.segs (b : HostBody) : List Nat := upFrom (max 1 ((b.payload.length + 8191) / 8192)) 0

/-- The datagram of a segment of a message to the host: the header of 03 Table 3.6 and its part of the payload. -/
def HostMsg.datagram (m : HostMsg) (i : Nat) : List Byte :=
  let d := (m.body.payload.drop (8192 * i)).take 8192
  let last := i + 1 = m.body.segs.length
  natBytes 1 1 ++ natBytes 1 m.body.code ++ natBytes 1 (b2n m.body.isReply + 2 * b2n last) ++ natBytes 1 0 ++
  natBytes 4 m.session ++ natBytes 4 m.op ++ natBytes 2 i ++ natBytes 2 d.length ++ natBytes 2 m.body.status ++
  natBytes 14 0 ++ d

/-- The datagrams by which a message is sent. -/
def HostMsg.datagrams (m : HostMsg) : List (List Byte) := m.segs.map m.datagram

/-- Send a message to the host; each segment is kept until it is acknowledged (03 R57). -/
def State.hostSend (s : State) (session op : Nat) (b : HostBody) : State :=
  let m : HostMsg := { session := session, op := op, body := b, segs := b.segs }
  { s with hostOut := s.hostOut ++ [m], unacked := s.unacked ++ [(m, b.segs.map (fun i => (i, s.ns)))] }

/-- Send an ACK (03 R57); no ACK is acknowledged. -/
def State.hostAck (s : State) (session : Nat) (l : List (Nat × Nat)) : State :=
  { s with hostOut := s.hostOut ++ [{ session := session, op := 0, body := .ack l, segs := [0] }] }

/-- The operation of a number among segments that have been kept, once every segment of it has arrived: its code and
payload (03 R57). -/
def assembled (l : List InSeg) (op : Nat) : Option (Nat × List Byte) :=
  let mine := l.filter (fun g => g.op = op)
  match mine.find? (fun g => g.last), mine.find? (fun g => g.idx = 0) with
  | some z, some a =>
    let parts := (upFrom (z.idx + 1) 0).map (fun i => mine.find? (fun g => g.idx = i))
    if parts.all Option.isSome then some (a.code, (parts.filterMap (fun g => g.map (·.data))).flatten) else none
  | _, _ => none

/-- The operation that a session performs next, once it has arrived whole (03 R43, R57). -/
def Session.ready (x : Session) : Option (Nat × List Byte) := assembled x.segs x.next

/-- Send an operation of the device's own in an open session, under the next number of its series; none in a closed
session (03 R57, 19 R379). -/
def State.hostOp (s : State) (session : Nat) (b : HostBody) : State :=
  match s.sessions.find session with
  | some x =>
    let s1 : State := { s with sessions := s.sessions.put session { x with devNext := x.devNext + 1 } }
    s1.hostSend session x.devNext b
  | none => s

/-- As `hostOp`, for a WINW or WINR whose answer goes to a segment of a transfer (19 R378); what a closed session cannot
carry stays without an answer. -/
def State.winSend (s : State) (job window dev cell seg : Nat) (b : HostBody) : State :=
  let session := (((s.job job).windows.find window).getD (0, 0)).1
  let asked : Option Nat := match b with
    | .winr _ _ n => some n
    | _ => none
  let op := match s.sessions.find session with
    | some x => x.devNext
    | none => 0
  let w : WinOp :=
    { session := session, op := op, dev := dev, cell := cell, seg := seg, n := asked, job := job, window := window,
      sentAt := s.ns }
  { s.hostOp session b with winOps := s.winOps ++ [w] }

/-- A new number. -/
def State.newId (s : State) : State := { s with nextId := s.nextId + 1 }

/-! ## Monitors (19 R384) -/

/-- The source that PMSEL names for a counter. -/
def Cell.pmCode (c : Cell) (i : Fin 4) : Nat := nfld c.pmsel.toNat (8 * i.val + 7) (8 * i.val)

/-- Count `n` events of a source in every counter that selects it. -/
def Cell.count (c : Cell) (src n : Nat) : Cell :=
  { c with pmc := c.pmc.mapFinIdx (fun i x h => if c.pmCode ⟨i, h⟩ = src then x + w64 n else x) }

/-- Bring the counters that count CCLK up to a device time. -/
def Cell.pmFold (c : Cell) (now : Nat) : Cell :=
  { c with
    pmc := c.pmc.mapFinIdx (fun i x h => if c.pmCode ⟨i, h⟩ = 1 then x + w64 (now - c.pmSince[i]) else x)
    pmSince := Vector.replicate 4 now }

/-- Count events at a cell. -/
def State.count (s : State) (c src n : Nat) : State := s.updCell c (fun x => x.count src n)

/-! ## Program counters and blocks (05 R77) -/

/-- The stream past a word of `len` bytes: when the word ends its body, the next repeat or the word after the body. -/
def nextPos (pc : Word) (blk : Option Block) (len : Nat) : Word × Option Block :=
  let q := pc + w64 len
  match blk with
  | none => (q, none)
  | some b =>
    if q = b.fin then
      if b.left.toNat ≤ 1 then (b.fin, none) else (b.start, some { b with left := b.left - 1 })
    else (q, some b)

/-- A fibre's body past a word of `len` bytes. -/
def FBody.past (b : FBody) (len : Nat) : FBody :=
  { b with pc := (nextPos b.pc b.blk len).1, blk := (nextPos b.pc b.blk len).2, branch := none }

/-- A stream past a word of `len` bytes. -/
def StreamPos.past (p : StreamPos) (len : Nat) : StreamPos :=
  { pc := (nextPos p.pc p.blk len).1, blk := (nextPos p.pc p.blk len).2, branch := none }

/-- The word in hand has issued: the fibre stands past it and completes in `lat` CCLK (06 R108). -/
def State.finish (s : State) (len lat : Nat) : State :=
  s.updFibre (fun f => { f with body := f.body.past len, status := .issued (s.now + lat), parkSeq := none })

/-- Write a g register of the fibre that acts. -/
def State.putG (s : State) (d : GReg) (v : Word) : State :=
  s.updFibre (fun f => { f with body := { f.body with g := f.body.g.set d v } })

/-- Write rd and finish the word. -/
def State.writeRd (s : State) (d : GReg) (v : Word) (len lat : Nat) : State := (s.putG d v).finish len lat

/-- A wait for the answers of posted requests: it has no order among fibres, and takes no place in one. -/
def Park.onOutst : Park → Bool
  | .retry .outst0 _ _ => true
  | .retry .outstLow _ _ => true
  | _ => false

/-- Park the fibre at its word (04 R61). A fibre that waited so before keeps its place in ordered waits. -/
def State.park (s : State) (p : Park) : State :=
  (s.updHere (fun c => { c with nextOrder := c.nextOrder + 1 })).updFibre
    (fun f => { f with
      status := .parked p s.now
      parkSeq := if p.onOutst then f.parkSeq else some (f.parkSeq.getD s.here.nextOrder) })

/-- Park until OUTST is 0, the word then issuing again (12 R254; wait kind 15). -/
def State.parkOutst (s : State) : State := s.park (.retry .outst0 15 (w64 s.fibre.body.outst))

/-! ## Traps (18) -/

/-- TRAPCODE (18 Table 18.3). -/
def trapCode (cls sub : Nat) : Word := w64 (cls + 256 * sub)

/-- TRAPSTREAM (18 Table 18.3): PC[56:1] of the word concerned, the When field and the source. -/
def trapStream (word : Word) (when_ src : Nat) : Word :=
  w64 (word.toNat / 2 % 2 ^ 56 * 256 + when_ * 64 + src)

/-- The action of a trap class in the trap-action word (02 Table 2.3): 0 ABORT, 1 HANDLER, 2 IGNORE. -/
def trapAction (actions : Word) (cls : Nat) : Nat := fld actions (2 * cls + 1) (2 * cls)

/-- CCYCLE of a cell (06 Table 6.4). -/
def State.ccycle (s : State) (c : Nat) : Word := w64 (s.now - (s.cell c).cbase)

/-- The trap record (18 Table 18.6). `slot` is 255 for an engine or unit source. -/
def State.trapRecord (s : State) (c : Nat) (t : TrapRegs) (slot : Nat) (nested inHandlerSlot : Bool) : List Byte :=
  natBytes 8 t.code.toNat ++ natBytes 8 t.detail.toNat ++ natBytes 8 t.seq.toNat ++ natBytes 8 t.stream.toNat ++
  natBytes 8 t.pc.toNat ++ natBytes 4 0 ++ natBytes 4 (s.launchOf c).kernelId.toNat ++
  natBytes 2 ((s.cell c).idx (s.launchOf c)) ++ natBytes 1 slot ++
  natBytes 1 (b2n nested + 2 * b2n inHandlerSlot) ++ natBytes 4 s.device ++ natBytes 8 (s.ccycle c).toNat

/-- The data that a cancelled unit of work wrote is undefined (03 R56). -/
def State.undefine (s : State) (unit : Nat) : State :=
  { s with mem := (s.authors.filter (fun e => e.2 = unit)).foldl (fun m e =>
      Mem.write m e.1 (Config.freeByte (s.fresh * 2 ^ 60 + e.1))) s.mem }

/-- A launch is to end: no more of it is admitted or issued, a save of it stops (18 R371), what it wrote is undefined (03
R56), and every other part of a spread launch hears of it (02 R35, 18 R366). A launch that is being cancelled already goes
on as it was. -/
def State.killLaunch (s : State) (n : Nat) (e : Option LaunchEnd) : State :=
  let l := s.launch n
  if l.cancel || (s.launches.find n).isNone then s
  else
    let s1 : State := (s.undefine n).updLaunch n (fun x =>
      { x with cancel := true, preempt := false, ended := if x.ended.isNone then e else x.ended })
    match l.key with
    | some key => (l.spread.filter (fun d => d != s.device)).foldl (fun s d => s.sendFabric d .control (.spCancel key)) s1
    | none => s1

/-- A trap fails the launch of a cell (18 R366): the first trap's record is kept and the launch is cancelled. -/
def State.failLaunch (s : State) (c : Nat) (rec : List Byte) : State :=
  match (s.cell c).launch with
  | some l => s.killLaunch l (some (.trapped rec))
  | none => s

/-- The registers of a trap record of an engine or unit. -/
def TrapRec.regs (t : TrapRec) : TrapRegs where
  code := trapCode t.cls t.sub
  pc := t.pc
  detail := t.detail
  seq := t.seq
  stream := trapStream t.word t.when_ t.src
  written := false

/-- The g registers at the start of a trap handler (18 R359). -/
def TrapRegs.start (t : TrapRegs) : Vector Word 8 :=
  (((((Vector.replicate 8 0).set 0 t.code).set 1 t.detail).set 2 t.pc).set 3 t.seq).set 4 t.stream

/-- A body that stops counting its budget at a moment (18 R359, R360). -/
def FBody.stopBudget (b : FBody) (now : Nat) : FBody :=
  match b.since with
  | some t => { b with used := b.used + (now - t), since := none }
  | none => b

/-- A trap-handler fibre over an optional frame (18 R359). -/
def trapHandler (fid pc : Nat) (t : TrapRegs) (src : TrapSrc) (frame : Option FBody) (order : Nat) : Fibre :=
  { body := { FBody.zero with fid := fid, kind := .trap src, g := t.start, pc := w64 pc, order := order }
    status := .ready
    trap := t
    frame := frame
    parkSeq := none }

/-- Start a trap handler in a slot of a cell. -/
def State.startTrapHandler (s : State) (c slot : Nat) (t : TrapRegs) (src : TrapSrc) (frame : Option FBody) : State :=
  (s.updCell c (fun x =>
    { x.setFibre slot (trapHandler s.nextId (s.launchOf c).handlerPc.toNat t src frame x.nextOrder) with
      nextOrder := x.nextOrder + 1 })).newId

/-- Trap class numbers (18 Table 18.2). -/
abbrev cILLEGAL := 0x01
abbrev cBLOCK := 0x02
abbrev cALIGN := 0x03
abbrev cAPERTURE := 0x04
abbrev cXLATE := 0x05
abbrev cXLATELATE := 0x06
abbrev cPROTECT := 0x07
abbrev cPOISON := 0x08
abbrev cBANKGRP := 0x09
abbrev cSPMETA := 0x0A
abbrev cOVERLAP := 0x0B
abbrev cWAITLIMIT := 0x0C
abbrev cCOUNTER := 0x0D
abbrev cWATCHDOG := 0x0E
abbrev cHANDLER := 0x0F
abbrev cCOPY := 0x10
abbrev cROUTE := 0x11
abbrev cLEASE := 0x12
abbrev cSHARDCHANGED := 0x13
abbrev cPINREVOKED := 0x14
abbrev cSTREAM := 0x15
abbrev cPRIV := 0x16
abbrev cBREAK := 0x17
abbrev cUSER := 0x18
abbrev cCOMBINE := 0x19

/-- A handler fibre is aborted (18 R364): its sends are discarded, its message or completion is held, and HANDLER is
raised with the inner class as subcode and the inner detail. `word` is the word concerned, 0 when there is none. -/
def State.handlerAbort (s : State) (c slot : Nat) (sub : Nat) (detail word : Word) : State :=
  let f := (s.cell c).fibre slot
  let held : Held := match f.body.kind with
    | .completion r => .completion { r with front := (s.cell c).nextOrder + 1 }
    | .handler e => .msg e
    | _ => .msg 0
  let seq : Word := match f.body.kind with
    | .completion r => r.seq.setWidth 64
    | .handler e => match (s.cell c).am.find e with
      | some a => a.id.setWidth 64
      | none => 0
    | _ => 0
  let t : TrapRegs :=
    { code := trapCode cHANDLER sub, pc := 0, detail := detail, seq := seq, stream := trapStream word 0 5,
      written := false }
  let s1 := (s.count c 15 1).updCell c (fun x => match f.body.kind with
    | .handler e => match x.am.find e with
      | some a =>
        { x with
          am := x.am.put e { a with running := false, held := true, front := x.nextOrder + 1 }
          nextOrder := x.nextOrder + 1 }
      | none => x
    | _ => x)
  if trapAction (s.launchOf c).actions cHANDLER = 1 then s1.startTrapHandler c slot t (.handler held) none
  else (s1.updCell c (fun x => x.freeSlot slot)).failLaunch c (s.trapRecord c t slot false false)

/-- A fibre takes a trap (18 R354-R360). `body` is the fibre as it will stand in its frame (at the word or past it),
`word` the word concerned. -/
def State.takeTrap (s : State) (c slot : Nat) (body : FBody) (cls sub : Nat) (detail seq pc word : Word)
    (when_ : Nat) : State :=
  let t : TrapRegs :=
    { code := trapCode cls sub, pc := pc, detail := detail, seq := seq, stream := trapStream word when_ 0,
      written := false }
  match body.kind with
  | .trap _ => s.failLaunch c (s.trapRecord c t slot true (slot < 16))
  | .handler _ => s.handlerAbort c slot cls detail word
  | .completion _ => s.handlerAbort c slot cls detail word
  | _ =>
    if trapAction (s.launchOf c).actions cls = 1 then
      s.startTrapHandler c slot t .fibre (some (body.stopBudget s.now))
    else s.failLaunch c (s.trapRecord c t slot false false)

/-- The acting fibre takes an exact trap at its word (18 R354, R355: resume At). -/
def State.trap (s : State) (cls : Nat) (detail : Word) : State :=
  s.takeTrap s.cur.cell s.cur.slot s.fibre.body cls 0 detail 0 s.fibre.body.pc s.fibre.body.pc 0

/-- A trap-handler fibre (18 R359). -/
def FKind.isTrap : FKind → Bool
  | .trap _ => true
  | _ => false

/-- An active-message or completion handler (12 R249, 13 R275). -/
def FKind.isHandler : FKind → Bool
  | .handler _ => true
  | .completion _ => true
  | _ => false

/-- The acting fibre takes an exact trap whose resume point is the word after (18 R355: Past); under IGNORE the word
acts as a NOP (18 R356). -/
def State.trapPast (s : State) (cls : Nat) (detail : Word) (len : Nat) : State :=
  if trapAction s.myLaunch.actions cls = 2 ∧ s.fibre.body.kind.isTrap = false then
    s.finish len 1
  else
    s.takeTrap s.cur.cell s.cur.slot (s.fibre.body.past len) cls 0 detail 0 (s.fibre.body.past len).pc
      s.fibre.body.pc 0

/-! ## Unit traps and their handlers -/

/-- The lowest FREE handler slot (18 Table 18.5). -/
def Cell.freeHandler (c : Cell) : Option Nat := c.fibres.lowestFree 16 0

/-- A flight is a word that has completed. -/
def Flight.isDone : Flight → Bool
  | .word _ _ _ done => done
  | .skinc _ _ _ _ => false

/-- Every word of the engine has completed. -/
def Engine.drained (e : Engine) : Bool := e.flights.all Flight.isDone

/-- A trap of a source can be taken: that of a V or M stream when every word that the stream has issued has completed (18
R354, 22 R393; log 83). -/
def Cell.trapReady (x : Cell) : TrapSrc → Bool
  | .v => x.v.eng.drained
  | .m => x.m.eng.drained
  | _ => true

/-- The action of a trap's class is HANDLER (18 R356). -/
def State.trapHandled (s : State) (c : Nat) (t : TrapRec) : Bool := trapAction (s.launchOf c).actions t.cls = 1

/-- A trap that waits is due: it can be taken, and a handler that it needs has a FREE slot (18 R359). -/
def State.trapDue (s : State) (c : Nat) (e : TrapSrc × TrapRec) : Bool :=
  (s.cell c).trapReady e.1 && (!s.trapHandled c e.2 || (s.cell c).freeHandler.isSome)

/-- The first trap of an engine or unit that is due is taken (18 R354, R359): its handler starts in the lowest FREE handler
slot, or the launch fails. -/
def State.startUnitHandler (s : State) (c : Nat) : State :=
  match (s.cell c).traps.find? (s.trapDue c) with
  | some (src, t) =>
    let s1 := s.updCell c (fun x => { x with traps := x.traps.eraseP (s.trapDue c) })
    if s.trapHandled c t then
      match (s.cell c).freeHandler with
      | some slot => s1.startTrapHandler c slot t.regs src none
      | none => s
    else s1.failLaunch c (s.trapRecord c t.regs 255 false false)
  | none => s

/-- An engine or unit traps (18 R354, R356, R359): the trap is taken at once where it can be and a handler that it needs has
a FREE slot, and waits otherwise. -/
def State.unitTrap (s : State) (c : Nat) (src : TrapSrc) (t : TrapRec) : State :=
  if (s.cell c).trapReady src && !s.trapHandled c t then s.failLaunch c (s.trapRecord c t.regs 255 false false)
  else (s.updCell c (fun x => { x with traps := x.traps ++ [(src, t)] })).startUnitHandler c

/-! ## Counters (05 R89, 16 R321) -/

/-- Every counter a TOK names holds at least as many as it is named (05 R88). -/
def Cell.tokReady (c : Cell) (u : TokUse) : Bool := u.list.all (fun x => u.list.count x ≤ (c.k[x]).toNat)

/-- Take one from each counter, as often as it is named. -/
def Cell.tokTake (c : Cell) (l : List KReg) : Cell :=
  l.foldl (fun (c : Cell) (x : KReg) => { c with k := c.k.set x (c.k[x] - 1) }) c

/-- Increment a counter, saturating at 2^32 − 1 (05 R89). -/
def Cell.addK (c : Cell) (k : KReg) (n : Nat) : Cell :=
  { c with k := c.k.set k (BitVec.ofNat 32 (min ((c.k[k]).toNat + n) 4294967295)) }

/-- Whether an increment carries the counter past 2^32 − 1. -/
def Cell.satK (c : Cell) (k : KReg) (n : Nat) : Bool := 4294967295 < (c.k[k]).toNat + n

/-- An increment reaches a counter; what waits on the counter is tested when all of the CCLK have (05 R89). -/
def Cell.incK (c : Cell) (k : KReg) (n : Nat) (source : Option (Stream × Word)) : Cell :=
  { c.addK k n with acts := c.acts ++ [{ k := k, sat := c.satK k n, source := source }] }

/-- Give the consumes of a TOK back (05 R90); a counter stands at 2^32 − 1 at most (05 R89). -/
def Cell.tokGive (c : Cell) (l : List KReg) : Cell :=
  l.foldl (fun (c : Cell) (x : KReg) =>
    { c.addK x 1 with acts := c.acts ++ [{ k := x, sat := false, source := none }] }) c

/-- An engine past a word of `len` bytes. -/
def Engine.past (e : Engine) (len : Nat) : Engine := { e with run := e.run.map (·.past len) }

/-- CCLK before a later pass of a body that is longer than the loop buffer (05 R78). -/
def Engine.gap (e : Engine) (len : Nat) : Nat :=
  match e.run.bind (fun p => p.blk.map (fun b => (p.pc, b))) with
  | some (pc, b) => if pc + w64 len = b.fin ∧ 1 < b.left.toNat ∧ 256 < (b.fin - b.start).toNat then 2 else 0
  | none => 0

/-- The produce of the TOK before the word in hand. -/
def Engine.produce? (e : Engine) : Option Produce :=
  (e.tok.bind (·.prod)).map (fun p => { k := p.1, n := p.2.val + 1, word := (e.run.map (·.pc)).getD 0 })

/-- The word in hand of an engine issues with nothing to write: its TOK's produce goes with it. -/
def Engine.issue (e : Engine) (len bound : Nat) (dests : List Dest) : Engine :=
  let prod := e.produce?
  { e.past len with
    tok := none
    wait := none
    clk := e.clk + 1 + e.gap len
    flights := if dests.isEmpty && prod.isNone && bound = 0 then e.flights
      else e.flights ++ [.word (e.clk + bound) dests prod false] }

/-- A word of the stream has consumed a counter: what has completed may be relied on (05 R88, 08 R173, log 5). -/
def Engine.relied (e : Engine) : Engine :=
  { e with stale := [], flights := e.flights.filter (fun f => match f with | .word _ _ _ done => !done | .skinc _ _ _ _ => true) }

/-- The M or V stream's test in the order of R89: a TOK or SKWAIT that waits and finds its counters passes. -/
def Cell.serveEngine (c : Cell) (e : Engine) : Cell × Engine :=
  match e.wait with
  | some (.tok t) =>
    if c.tokReady t.use then (c.tokTake t.use.list, { e.relied.past 4 with tok := some t, wait := none, clk := e.clk + 1 })
    else (c, e)
  | some (.skwait k n len) =>
    if n ≤ c.k[k] then ({ c with k := c.k.set k (c.k[k] - n) }, e.relied.issue len 0 []) else (c, e)
  | _ => (c, e)

/-- Serve the M stream. -/
def Cell.serveM (c : Cell) : Cell :=
  let r := c.serveEngine c.m.eng
  { r.1 with m := { r.1.m with eng := r.2 } }

/-- Serve the V stream. -/
def Cell.serveV (c : Cell) : Cell :=
  let r := c.serveEngine c.v.eng
  { r.1 with v := { r.1.v with eng := r.2 } }

/-- A test of a counter has passed: where a release wider than the cell has incremented it, the L1 owes an acquire (17
R346). -/
def Cell.observe (c : Cell) (k : KReg) : Cell :=
  if c.kwide.getLsbD k.val then { c with kwide := c.kwide &&& ~~~ BitVec.ofNat 32 (2 ^ k.val), acqDue := true } else c

/-- Serve the fibres that wait on counters, in ascending slot order (05 R89). -/
def Cell.serveFibres (c : Cell) : List (Nat × Fibre) → Cell
  | [] => c
  | (slot, f) :: r =>
    match f.status with
    | .parked (.counter k n take len) _ =>
      if n ≤ c.k[k] then
        Cell.serveFibres
          (({ c with k := if take then c.k.set k (c.k[k] - n) else c.k }.observe k).setFibre slot
            { f with body := f.body.past len, status := .ready, parkSeq := none }) r
      else Cell.serveFibres c r
    | _ => Cell.serveFibres c r

/-- Fire one armed slot when its counter has reached the threshold (13 R270). -/
def Cell.testSlot (c : Cell) (i : Nat) : Cell :=
  match c.copy.slots.find i with
  | some a =>
    if a.armed ∧ a.threshold ≤ c.k[a.k] then
      { c with
        k := c.k.set a.k (c.k[a.k] - a.threshold)
        copy := { c.copy with
          slots := c.copy.slots.put i { a with fired := true, armed := a.rep, pending := a.pending + 1 } } }
    else c
  | none => c

/-- A request enters the tail of the FIFO under a fresh number (13 R269). -/
def Cell.enterFifo (c : Cell) (r : CopyReq) : Cell :=
  { c with reqseq := c.reqseq + 1, copy := { c.copy with fifo := c.copy.fifo ++ [{ r with seq := c.reqseq }] } }

/-- Requests of fired slots enter the FIFO as room appears, in slot order, each with a fresh number (13 R270). -/
def Cell.enterFired (c : Cell) : List (Nat × ArmedSlot) → Cell
  | [] => c
  | (i, a) :: r =>
    if 0 < a.pending ∧ c.copy.fifo.length < 16 then
      let c1 := c.enterFifo a.req
      let a1 : ArmedSlot := { a with pending := a.pending - 1 }
      Cell.enterFired { c1 with copy := { c1.copy with slots := c1.copy.slots.put i a1 } } r
    else Cell.enterFired c r

/-- The slot of the fibre that parked first among those that `want` accepts. -/
def firstParked (want : Park → Bool) (l : List (Nat × Fibre)) : Option Nat :=
  (l.foldl (fun (b : Option (Nat × Nat)) e =>
    match e.2.status with
    | .parked p _ =>
      if want p then
        match b with
        | none => some (e.1, e.2.parkSeq.getD 0)
        | some y => if e.2.parkSeq.getD 0 < y.2 then some (e.1, e.2.parkSeq.getD 0) else b
      else b
    | _ => b) none).map Prod.fst

/-- A parked fibre goes past its word of `len` bytes. -/
def Fibre.wake (f : Fibre) (len : Nat) : Fibre := { f with body := f.body.past len, status := .ready, parkSeq := none }

/-- The armed slot that a CPYA takes: the lowest that is not armed and whose request has entered the FIFO (13 R270). -/
def CopyUnit.freeSlot (u : CopyUnit) : Option Nat :=
  (upFrom 32 0).find? (fun i =>
    match u.slots.find i with
    | some a => !a.armed && a.pending == 0
    | none => true)

/-- Arm a slot. -/
def Cell.arm (c : Cell) (i : Nat) (r : CopyReq) (k : KReg) (threshold : W32) (rep : Bool) : Cell :=
  let a : ArmedSlot :=
    { req := r, k := k, threshold := threshold, rep := rep, fired := false, armed := true, pending := 0 }
  { c with copy := { c.copy with slots := c.copy.slots.put i a } }

/-- Fibres that wait for room go on in the order in which they parked: CPYQ, GATH and SCAT on the FIFO, CPYA on the
slots (13 R269, R270). -/
def Cell.enterParked (c : Cell) : Nat → Cell
  | 0 => c
  | fuel + 1 =>
    match firstParked (fun p => match p with | .copy _ => true | _ => false) c.fibres with
    | some slot =>
      let f := c.fibre slot
      match f.status with
      | .parked (.copy r) _ =>
        if c.copy.fifo.length < 16 then Cell.enterParked ((c.enterFifo r).setFibre slot (f.wake 4)) fuel
        else c
      | _ => c
    | none => c

/-- CPYAs that wait for a slot. -/
def Cell.armParked (c : Cell) : Nat → Cell
  | 0 => c
  | fuel + 1 =>
    match firstParked (fun p => match p with | .arm _ _ _ _ _ => true | _ => false) c.fibres, c.copy.freeSlot with
    | some slot, some i =>
      let f := c.fibre slot
      match f.status with
      | .parked (.arm r k t rep rd) _ =>
        let f1 : Fibre := { f with body := { f.body with g := f.body.g.set rd (w64 i) } }
        Cell.armParked ((c.arm i r k t rep).setFibre slot (f1.wake 4)) fuel
      | _ => c
    | _, _ => c

/-- Room in the FIFO and the slots is given out: first to fired requests, then to parked fibres (13 R269). -/
def Cell.pumpCopy (c : Cell) : Cell :=
  let c1 := c.enterFired c.copy.slots
  let c2 := c1.enterParked c1.fibres.length
  c2.armParked c2.fibres.length

/-- Test the armed slots after the other tests, in ascending slot number, and let what fired enter the FIFO. -/
def Cell.serveSlots (c : Cell) : Cell :=
  let c1 := (c.copy.slots.map Prod.fst).foldl Cell.testSlot c
  c1.pumpCopy

/-- Prism consumes release counters for the expert slots that wait, in ascending slot number (16 R321). -/
def Cell.servePrism (c : Cell) : List (Nat × KReg) → Cell
  | [] => c
  | (i, k) :: r =>
    if c.k[k] = 0 then Cell.servePrism c r
    else
      Cell.servePrism
        { c with k := c.k.set k (c.k[k] - 1), prismWait := c.prismWait.del i, prismOk := setAdd c.prismOk i } r

/-- The tests of a counter's CCLK in the order of 16 R321: M, V, fibres, Prism, then the armed slots. -/
def Cell.serve (c : Cell) : Cell :=
  let c1 := c.serveM.serveV
  let c2 := c1.serveFibres c1.fibres
  (c2.servePrism c2.prismWait).serveSlots

end Sys2Proof.Machine
end

