-- ==== Sys2Proof/Machine/Flags.lean ====
section
/-!
DEFINITION. The results of integer arithmetic (06 Table 6.2, 05 R97, 08 Table 8.5). The machine has no condition flags;
its one sticky flag, QOVF, follows the exact results here (07 R150).
-/

namespace Sys2Proof.Machine

open Sys2Proof

/-- High half of the signed product (06 Table 6.2). -/
def mulHi (a b : Word) : Word := BitVec.ofInt 64 ((a.toInt * b.toInt) / 2 ^ 64)

/-- High half of the unsigned product (06 Table 6.2). -/
def mulHiU (a b : Word) : Word := w64 (a.toNat * b.toNat / 2 ^ 64)

/-- Signed quotient (06 R110). -/
def divS (a b : Word) : Word :=
  if b = 0 then BitVec.allOnes 64 else BitVec.ofInt 64 (a.toInt.tdiv b.toInt)

/-- Unsigned quotient (06 R110). -/
def divU (a b : Word) : Word := if b = 0 then BitVec.allOnes 64 else w64 (a.toNat / b.toNat)

/-- Signed remainder (06 R110). -/
def remS (a b : Word) : Word := if b = 0 then a else BitVec.ofInt 64 (a.toInt.tmod b.toInt)

/-- Unsigned remainder (06 R110). -/
def remU (a b : Word) : Word := if b = 0 then a else w64 (a.toNat % b.toNat)

/-- The shift amount b[5:0] (06 Table 6.2). -/
def shAmt (b : Word) : Nat := b.toNat % 64

/-- A rotated left by b[5:0]. -/
def rolW (a : Word) (n : Nat) : Word := a.rotateLeft n

/-- One bits among the low `n` bits. -/
def popFrom (a : Word) : Nat → Nat
  | 0 => 0
  | n + 1 => b2n (a.getLsbD n) + popFrom a n

/-- Leading zero bits of the low `n` bits. -/
def clzFrom (a : Word) : Nat → Nat
  | 0 => 0
  | n + 1 => if a.getLsbD n then 0 else clzFrom a n + 1

/-- Trailing zero bits from bit `i` on, at most `n`. -/
def ctzFrom (a : Word) (i : Nat) : Nat → Nat
  | 0 => 0
  | n + 1 => if a.getLsbD i then 0 else ctzFrom a (i + 1) n + 1

/-- A condition as 0 or 1 in a register. -/
def boolW (b : Bool) : Word := if b then 1 else 0

/-- Sign extension of the low bits by SEXT size (06 Table 6.2). -/
def sextW (z : ExtSize) (a : Word) : Word :=
  match z with
  | .b => (a.setWidth 8).signExtend 64
  | .h => (a.setWidth 16).signExtend 64
  | .w => (a.setWidth 32).signExtend 64

/-- Zero extension of the low bits by ZEXT size (06 Table 6.2). -/
def zextW (z : ExtSize) (a : Word) : Word :=
  match z with
  | .b => (a.setWidth 8).setWidth 64
  | .h => (a.setWidth 16).setWidth 64
  | .w => (a.setWidth 32).setWidth 64

/-- Signed minimum. -/
def minS (a b : Word) : Word := if a.slt b then a else b
/-- Signed maximum. -/
def maxS (a b : Word) : Word := if a.slt b then b else a
/-- Unsigned minimum. -/
def minU (a b : Word) : Word := if a.ult b then a else b
/-- Unsigned maximum. -/
def maxU (a b : Word) : Word := if a.ult b then b else a

/-- Replace halfword `k` of a register (06 R113, 05 R98). -/
def putHalf (old : Word) (i : BitVec 16) (k : Fin 4) : Word :=
  (old &&& ~~~ (w64 (0xFFFF * 2 ^ (16 * k.val)))) ||| w64 (i.toNat * 2 ^ (16 * k.val))

/-- Whether an integer lies in the range of I64 (07 R150). -/
def inI64 (x : Int) : Bool := -9223372036854775808 ≤ x && x ≤ 9223372036854775807

/-- An integer brought to the nearer end of the I64 range. -/
def satI64 (x : Int) : Int := max (-9223372036854775808) (min x 9223372036854775807)

end Sys2Proof.Machine
end

