-- ==== Sys2Proof/Machine/Float.lean ====
section
/-!
DEFINITION. Number formats and rounding (07): exact values, encodings, rounding modes, conversions, F32 arithmetic.
-/

namespace Sys2Proof.Machine

open Sys2Proof

/-- The value of a float: a finite one is (−1)^neg × m × 2^e. -/
inductive FVal where
  | nan
  | inf (neg : Bool)
  | fin (neg : Bool) (m : Nat) (e : Int)
  deriving DecidableEq, Repr

/-- The zero of a sign. -/
def FVal.zero (neg : Bool) : FVal := .fin neg 0 0

/-- An integer as a value. -/
def FVal.ofInt (x : Int) : FVal := .fin (x < 0) x.natAbs 0

/-- The value is a zero. -/
def FVal.isZero : FVal → Bool
  | .fin _ m _ => m == 0
  | _ => false

/-- The value is not a number. -/
def FVal.isNan : FVal → Bool
  | .nan => true
  | _ => false

/-- The sign of a value; a NaN has none. -/
def FVal.neg : FVal → Bool
  | .nan => false
  | .inf s => s
  | .fin s _ _ => s

/-- The value with its sign turned; a NaN stays. -/
def FVal.negate : FVal → FVal
  | .nan => .nan
  | .inf s => .inf (!s)
  | .fin s m e => .fin (!s) m e

/-- The value with a given sign. -/
def FVal.withSign (neg : Bool) : FVal → FVal
  | .nan => .nan
  | .inf _ => .inf neg
  | .fin _ m e => .fin neg m e

/-! ## Formats (07 Table 7.2) -/

/-- Exponent bits. -/
def expBits : Fmt → Nat
  | .f32 | .bf16 => 8
  | .f16 | .e5m2 => 5
  | .e4m3 => 4
  | .e2m1 => 2
  | _ => 8

/-- Fraction bits. -/
def manBits : Fmt → Nat
  | .f32 => 23
  | .bf16 => 7
  | .f16 => 10
  | .e4m3 => 3
  | .e5m2 => 2
  | .e2m1 => 1
  | _ => 0

/-- Exponent bias. -/
def expBias (f : Fmt) : Nat := if f = .e2m1 then 1 else 2 ^ (expBits f - 1) - 1

/-- The format has infinities. -/
def hasInf : Fmt → Bool
  | .f32 | .bf16 | .f16 | .e5m2 => true
  | _ => false

/-- Encoding of the largest finite magnitude. -/
def maxFinite (f : Fmt) : Nat :=
  match f with
  | .e4m3 => 0x7E
  | .e2m1 => 0x7
  | _ => (2 ^ expBits f - 1) * 2 ^ manBits f - 1

/-- The canonical NaN; F4E2M1 has none and takes +0 (07 R138). -/
def canonNan (f : Fmt) : Nat :=
  match f with
  | .e4m3 => 0x7F
  | .e2m1 => 0
  | .e8m0 => 0xFF
  | _ => (2 ^ expBits f - 1) * 2 ^ manBits f + 2 ^ (manBits f - 1)

/-- The encoding of an infinity. -/
def infBits (f : Fmt) (neg : Bool) : Nat :=
  b2n neg * 2 ^ (expBits f + manBits f) + (2 ^ expBits f - 1) * 2 ^ manBits f

/-- The value that bits of a floating-point format stand for (07 R132). -/
def decodeFloat (f : Fmt) (bits : Nat) : FVal :=
  let mb := manBits f
  let m := bits % 2 ^ mb
  let x := bits / 2 ^ mb % 2 ^ expBits f
  let neg := bits / 2 ^ (mb + expBits f) % 2 = 1
  let bias : Int := expBias f
  if x = 0 then .fin neg m (1 - bias - mb)
  else if x = 2 ^ expBits f - 1 ∧ hasInf f then (if m = 0 then .inf neg else .nan)
  else if f = .e4m3 ∧ x = 15 ∧ m = 7 then .nan
  else .fin neg (m + 2 ^ mb) (x - bias - mb)

/-- The value that bits of a format stand for; Q64 and I64 elements stand for their integer. -/
def decodeFmt (f : Fmt) (bits : Nat) : FVal :=
  match f with
  | .e8m0 => if bits % 256 = 255 then .nan else .fin false 1 ((bits % 256 : Nat) - 127)
  | .i32 => .ofInt (BitVec.ofNat 32 bits).toInt
  | .u32 => .ofInt (bits % 2 ^ 32 : Nat)
  | .i16 => .ofInt (BitVec.ofNat 16 bits).toInt
  | .i8 => .ofInt (BitVec.ofNat 8 bits).toInt
  | .u8 => .ofInt (bits % 256 : Nat)
  | .q64 | .i64 => .ofInt (BitVec.ofNat 64 bits).toInt
  | _ => decodeFloat f bits

/-- A subnormal value of a format becomes the zero of its sign (07 R134). -/
def flushIn (f : Fmt) (v : FVal) : FVal :=
  match v with
  | .fin s m e => if m < 2 ^ manBits f ∧ e = 1 - (expBias f : Int) - manBits f then .zero s else .fin s m e
  | x => x

/-! ## Rounding (07 R135, R136) -/

/-- The multiple of 2^q that m × 2^e rounds to, as its number of quanta. `seed` is the generator's state after the
element's step. -/
def roundQ (mode : RMode) (seed : Nat) (neg : Bool) (m : Nat) (e q : Int) : Nat :=
  if q ≤ e then m * 2 ^ (e - q).toNat
  else
    let d := 2 ^ (q - e).toNat
    let lo := m / d
    let r := m % d
    let up : Bool :=
      match mode with
      | .rne => d < 2 * r || (d == 2 * r && lo % 2 == 1)
      | .rtz => false
      | .rdn => r != 0 && neg
      | .rup => r != 0 && !neg
      | .rsn => r != 0 && decide (seed < r * 2 ^ 32 / d)
    if up then lo + 1 else lo

/-- Exponent of the leading bit of m × 2^e, for m ≠ 0. -/
def leadExp (m : Nat) (e : Int) : Int := (Nat.log2 m : Int) + e

/-- The format flushes its results (07 R134): a narrowing conversion or arithmetic of the small formats. -/
def isFlushing : Fmt → Bool
  | .bf16 | .f16 | .e4m3 | .e5m2 => true
  | _ => false

/-- What becomes of a magnitude above the largest finite one (07 R138). -/
def overflowBits (f : Fmt) (mode : RMode) (novf neg : Bool) : Nat :=
  let sign := b2n neg * 2 ^ (expBits f + manBits f)
  let big := sign + maxFinite f
  if novf = false then big
  else
    match f with
    | .e4m3 => 0x7F
    | .e2m1 => big
    | _ =>
      match mode with
      | .rne | .rsn => infBits f neg
      | .rtz => big
      | .rdn => if neg then infBits f neg else big
      | .rup => if neg then big else infBits f neg

/-- Round a finite value to a floating-point format: precision, flushing, overflow (07 R134, R138). -/
def roundFinite (f : Fmt) (mode : RMode) (novf flush : Bool) (seed : Nat) (neg : Bool) (m : Nat) (e : Int) : Nat :=
  let mb := manBits f
  let sign := b2n neg * 2 ^ (expBits f + mb)
  if m = 0 then sign
  else
    let emin : Int := 1 - (expBias f : Int)
    let top := leadExp m e
    let q := if flush then top - mb else max top emin - mb
    let k := roundQ mode seed neg m e q
    -- k is below 2^(mb+1), or equal to it when the rounding carried
    let k1 := if k = 2 ^ (mb + 1) then 2 ^ mb else k
    let q1 := if k = 2 ^ (mb + 1) then q + 1 else q
    if k1 < 2 ^ mb then sign + k1
    else if q1 + mb < emin then sign
    else
      let bits := (q1 + mb - emin + 1).toNat * 2 ^ mb + (k1 - 2 ^ mb)
      if maxFinite f < bits then overflowBits f mode novf neg else sign + bits

/-- Round a value to a floating-point format as a conversion does (07 R138), flushing what is subnormal or not (07 R134). -/
def convFloat (f : Fmt) (mode : RMode) (novf flush : Bool) (seed : Nat) (v : FVal) : Nat :=
  match v with
  | .nan => canonNan f
  | .inf s => if hasInf f then infBits f s else overflowBits f .rne novf s
  | .fin s m e => roundFinite f mode novf flush seed s m e

/-- Round a value to E8M0 (07 R138). -/
def convE8m0 (mode : RMode) (seed : Nat) (v : FVal) : Nat :=
  match v with
  | .nan => 0xFF
  | .inf s => if s then 0 else 0xFE
  | .fin s m e =>
    if s || m == 0 then 0
    else
      let p := leadExp m e
      let lg := Nat.log2 m
      let r := m - 2 ^ lg
      let up : Bool :=
        match mode with
        | .rtz | .rdn => false
        | .rup => r != 0
        | .rne => 2 ^ lg ≤ 2 * r
        | .rsn => r != 0 && decide (seed < r * 2 ^ 32 / 2 ^ lg)
      let x := (if up then p + 1 else p) + 127
      if x < 0 then 0 else if 254 < x then 0xFE else x.toNat

/-- Round a value to an integer (07 R138); none for a NaN, and an infinity as its sign. -/
def roundInt (mode : RMode) (seed : Nat) (v : FVal) : Option (Int ⊕ Bool) :=
  match v with
  | .nan => none
  | .inf s => some (.inr s)
  | .fin s m e =>
    let k : Int := roundQ mode seed s m e 0
    some (.inl (if s then -k else k))

/-- The range of an integer format (07 R133). -/
def intRange : Fmt → Int × Int
  | .i32 => (-2147483648, 2147483647)
  | .u32 => (0, 4294967295)
  | .i16 => (-32768, 32767)
  | .i8 => (-128, 127)
  | .u8 => (0, 255)
  | _ => (-9223372036854775808, 9223372036854775807)

/-- Round and saturate a value to an integer format, as the bits of its element (07 R138). -/
def convInt (f : Fmt) (mode : RMode) (seed : Nat) (v : FVal) : Nat :=
  let r := intRange f
  let x : Int :=
    match roundInt mode seed v with
    | none => 0
    | some (.inr s) => if s then r.1 else r.2
    | some (.inl x) => max r.1 (min x r.2)
  (x % (2 ^ f.width : Nat)).toNat

/-- Convert a value to an element of any format (07 R138); `flush` for a narrowing conversion to a flushing format (07
R134). -/
def convert (f : Fmt) (mode : RMode) (novf flush : Bool) (seed : Nat) (v : FVal) : Nat :=
  match f with
  | .f32 | .bf16 | .f16 | .e4m3 | .e5m2 | .e2m1 => convFloat f mode novf flush seed v
  | .e8m0 => convE8m0 mode seed v
  | _ => convInt f mode seed v

/-- One step of the stochastic-rounding generator (07 R136). -/
def seedStep (s : W32) : W32 := if s.getLsbD 0 then (s >>> 1) ^^^ 0x80200003 else s >>> 1

/-! ## Exact operations (07 R140) -/

/-- The exact sum of two finite values: its zero is +0 unless both are −0. -/
def addFin (s1 : Bool) (m1 : Nat) (e1 : Int) (s2 : Bool) (m2 : Nat) (e2 : Int) : FVal :=
  let e := min e1 e2
  let a : Int := (m1 * 2 ^ (e1 - e).toNat : Nat)
  let b : Int := (m2 * 2 ^ (e2 - e).toNat : Nat)
  let x := (if s1 then -a else a) + (if s2 then -b else b)
  if x = 0 then .zero (s1 && s2) else .fin (x < 0) x.natAbs e

/-- The exact sum of two values. -/
def addE (a b : FVal) : FVal :=
  match a, b with
  | .nan, _ => .nan
  | _, .nan => .nan
  | .inf s, .inf t => if s = t then .inf s else .nan
  | .inf s, .fin _ _ _ => .inf s
  | .fin _ _ _, .inf t => .inf t
  | .fin s1 m1 e1, .fin s2 m2 e2 => addFin s1 m1 e1 s2 m2 e2

/-- The exact product of two values. -/
def mulE (a b : FVal) : FVal :=
  match a, b with
  | .nan, _ => .nan
  | _, .nan => .nan
  | .inf s, .inf t => .inf (s != t)
  | .inf s, .fin t m _ => if m = 0 then .nan else .inf (s != t)
  | .fin s m _, .inf t => if m = 0 then .nan else .inf (s != t)
  | .fin s1 m1 e1, .fin s2 m2 e2 => .fin (s1 != s2) (m1 * m2) (e1 + e2)

/-- The quotient of two values, with more bits than any format has and a last bit that stands for the rest. -/
def divE (a b : FVal) : FVal :=
  match a, b with
  | .nan, _ => .nan
  | _, .nan => .nan
  | .inf _, .inf _ => .nan
  | .inf s, .fin t _ _ => .inf (s != t)
  | .fin s _ _, .inf t => .zero (s != t)
  | .fin s1 m1 e1, .fin s2 m2 e2 =>
    if m2 = 0 then (if m1 = 0 then .nan else .inf (s1 != s2))
    else if m1 = 0 then .zero (s1 != s2)
    else
      let n := m1 * 2 ^ 64
      .fin (s1 != s2) (2 * (n / m2) + b2n (n % m2 != 0)) (e1 - e2 - 65)

/-- The integer square root of `n` found from bit `i` down, given the part `r` found so far. -/
def isqrtFrom (n : Nat) : Nat → Nat → Nat
  | 0, r => r
  | i + 1, r => let t := r + 2 ^ i; isqrtFrom n i (if t * t ≤ n then t else r)

/-- The integer square root. -/
def isqrt (n : Nat) : Nat := isqrtFrom n (Nat.log2 n / 2 + 1) 0

/-- The square root of a value, with more bits than any format has and a last bit that stands for the rest. -/
def sqrtE (a : FVal) : FVal :=
  match a with
  | .nan => .nan
  | .inf s => if s then .nan else .inf false
  | .fin s m e =>
    if m = 0 then .zero s
    else if s then .nan
    else
      let odd := e % 2 = 1
      let n := (if odd then 2 * m else m) * 2 ^ 64
      let h := (if odd then e - 1 else e) / 2
      let r := isqrt n
      .fin false (2 * r + b2n (r * r != n)) (h - 33)

/-- The order of two values that are no NaNs, −0 below +0 (07 R140). -/
def ltE (a b : FVal) : Bool :=
  match a, b with
  | .nan, _ => false
  | _, .nan => false
  | .inf s, .inf t => s && !t
  | .inf s, .fin _ _ _ => s
  | .fin _ _ _, .inf t => !t
  | .fin s1 m1 e1, .fin s2 m2 e2 =>
    let e := min e1 e2
    let x : Int := (m1 * 2 ^ (e1 - e).toNat : Nat)
    let y : Int := (m2 * 2 ^ (e2 - e).toNat : Nat)
    if m1 = 0 ∧ m2 = 0 then s1 && !s2
    else decide ((if s1 then -x else x) < (if s2 then -y else y))

/-- VFMIN of two values (07 R140). -/
def minE (a b : FVal) : FVal := if a.isNan then b else if b.isNan then a else if ltE b a then b else a

/-- VFMAX of two values (07 R140). -/
def maxE (a b : FVal) : FVal := if a.isNan then b else if b.isNan then a else if ltE a b then b else a

/-! ## Arithmetic of the V stream (07 R134, R140) -/

/-- Round an arithmetic result: RNE, overflow to an infinity. -/
def roundArith (f : Fmt) (v : FVal) : Nat := convFloat f .rne true (isFlushing f) 0 v

/-- An operand of arithmetic: the small formats flush it. -/
def operand (f : Fmt) (bits : Nat) : FVal :=
  if isFlushing f then flushIn f (decodeFloat f bits) else decodeFloat f bits

/-- F32 addition, RNE. -/
def f32Add (a b : W32) : W32 :=
  BitVec.ofNat 32 (roundArith .f32 (addE (decodeFloat .f32 a.toNat) (decodeFloat .f32 b.toNat)))

/-- F32 multiplication, RNE. -/
def f32Mul (a b : W32) : W32 :=
  BitVec.ofNat 32 (roundArith .f32 (mulE (decodeFloat .f32 a.toNat) (decodeFloat .f32 b.toNat)))

/-- F32 division, RNE. -/
def f32Div (a b : W32) : W32 :=
  BitVec.ofNat 32 (roundArith .f32 (divE (decodeFloat .f32 a.toNat) (decodeFloat .f32 b.toNat)))

/-- F32 minimum by VFMIN. -/
def f32Min (a b : W32) : W32 :=
  BitVec.ofNat 32 (roundArith .f32 (minE (decodeFloat .f32 a.toNat) (decodeFloat .f32 b.toNat)))

/-- F32 maximum by VFMAX. -/
def f32Max (a b : W32) : W32 :=
  BitVec.ofNat 32 (roundArith .f32 (maxE (decodeFloat .f32 a.toNat) (decodeFloat .f32 b.toNat)))

/-- One level of the pairwise tree: an entry without a partner passes up unchanged (07 R148, R149). -/
def pairUp {α : Type} (f : α → α → α) : List α → List α
  | a :: b :: r => f a b :: pairUp f r
  | l => l

/-- The pairwise tree over a list, level by level. -/
def treeFold {α : Type} (f : α → α → α) : Nat → List α → List α
  | 0, l => l
  | n + 1, l => treeFold f n (pairUp f l)

/-- The F32 sum of a list in the tree of 07 R148 and R149. -/
def f32Tree (l : List W32) : W32 := (treeFold f32Add 32 l).headD 0

end Sys2Proof.Machine
end

