-- ==== Sys2Proof/Machine/Special.lean ====
section
/-!
DEFINITION. The special functions of the V stream (07 R141): each result is the exact value rounded once. A value is
found in fixed point with 256 fraction bits, far beyond what tells any two roundings of an F32 input apart (log 15).
-/

namespace Sys2Proof.Machine

open Sys2Proof

/-- Fraction bits of the working fixed point. -/
abbrev fxBits : Nat := 256

/-- One in the working fixed point. -/
def fxOne : Int := 2 ^ 256

/-- ln 2. -/
def fxLn2 : Int :=
  0xB17217F7D1CF79ABC9E3B39803F2F6AF40F343267298B62D8A0D175B8BAAFA2B

/-- log2 e. -/
def fxLog2e : Int :=
  0x171547652B82FE1777D0FFDA0D23A7D11D6AEF551BAD2B4B1164A2CD9A342648F

/-- π. -/
def fxPi : Int :=
  0x3243F6A8885A308D313198A2E03707344A4093822299F31D0082EFA98EC4E6C89

/-- The product of two fixed-point numbers. -/
def fxMul (a b : Int) : Int := a * b / fxOne

/-- 1 + t/1·(1 + t/2·(1 + … )), down from step `n`: the exponential series. -/
def fxExpSeries (t : Int) : Nat → Int → Int
  | 0, r => r
  | n + 1, r => fxExpSeries t n (fxOne + fxMul t r / (n + 1 : Nat))

/-- e^t for |t| < 1. -/
def fxExp (t : Int) : Int := fxExpSeries t 60 fxOne

/-- e^(−a) for a ≥ 0, as a fixed-point number. -/
def fxExpNeg (a : Int) : Int :=
  let k := a / fxLn2
  fxExp (-(a - k * fxLn2)) / 2 ^ k.toNat

/-- 1 − q/(n(n+1))·(1 − …) in steps of two, down to step `lo`: the sine series (lo = 2) or cosine series (lo = 1). -/
def fxTrig (q : Int) (lo : Nat) : Nat → Int → Int
  | 0, r => r
  | n + 1, r => fxTrig q lo n (fxOne - fxMul q r / ((2 * n + lo) * (2 * n + lo + 1) : Nat))

/-- sin(π r) for 0 ≤ r ≤ 1/2. -/
def fxSinPi (r : Int) : Int :=
  let x := fxMul r fxPi
  fxMul x (fxTrig (fxMul x x) 2 36 fxOne)

/-- cos(π r) for 0 ≤ r ≤ 1/2. -/
def fxCosPi (r : Int) : Int :=
  let x := fxMul r fxPi
  fxTrig (fxMul x x) 1 36 fxOne

/-- The sum of z^(2i)/(2i+1) from step `n` down: the series of ln((1+z)/(1−z)) / 2z. -/
def fxLnSeries (q : Int) : Nat → Int → Int
  | 0, r => r
  | n + 1, r => fxLnSeries q n (fxOne / (2 * n + 1 : Nat) + fxMul q r)

/-- ln y for 1 ≤ y < 2. -/
def fxLn (y : Int) : Int :=
  let z := (y - fxOne) * fxOne / (y + fxOne)
  2 * fxMul z (fxLnSeries (fxMul z z) 90 0)

/-- A finite value as a fixed-point number; F32 values have at most 149 fraction bits, so it is exact. -/
def fxOf (m : Nat) (e : Int) : Int := m * 2 ^ (e + fxBits).toNat

/-- A fixed-point number that stands for an irrational value, its last bit for the rest. -/
def fxVal (v : Int) (scale : Int) : FVal := .fin (v < 0) (2 * v.natAbs + 1) (scale - fxBits - 1)

/-- 2^x (07 Table 7.4). -/
def exp2V (a : FVal) : FVal :=
  match a with
  | .nan => .nan
  | .inf s => if s then .zero false else .inf false
  | .fin s m e =>
    if m ≠ 0 ∧ 9 ≤ leadExp m e then (if s then .zero false else .inf false)
    else
      let x := if s then -(fxOf m e) else fxOf m e
      let n := x / fxOne
      let f := x % fxOne
      if f = 0 then .fin false 1 n else fxVal (fxExp (fxMul f fxLn2)) n

/-- log2 x (07 Table 7.4). -/
def log2V (a : FVal) : FVal :=
  match a with
  | .nan => .nan
  | .inf s => if s then .nan else .inf false
  | .fin s m e =>
    if m = 0 then .inf true
    else if s then .nan
    else
      let lg := Nat.log2 m
      let k := leadExp m e
      if m = 2 ^ lg then .ofInt k
      else fxVal (k * fxOne + fxMul (fxLn ((m : Int) * fxOne / 2 ^ lg)) fxLog2e) 0

/-- 1/x (07 Table 7.4). -/
def rcpV (a : FVal) : FVal := divE (.fin false 1 0) a

/-- 1/√x (07 Table 7.4). -/
def rsqrtV (a : FVal) : FVal :=
  match a with
  | .nan => .nan
  | .inf s => if s then .nan else .zero false
  | .fin s m e =>
    if m = 0 then .inf s
    else if s then .nan
    else
      let odd := e % 2 = 1
      let m1 := if odd then 2 * m else m
      let h := (if odd then e - 1 else e) / 2
      let r := isqrt (2 ^ 160 / m1)
      .fin false (2 * r + b2n (r * r * m1 != 2 ^ 160)) (-h - 81)

/-- sin(π x) for a fixed-point x ≥ 0 that is not an integer, by quarters of the period. -/
def sinPiPos (x : Int) : Int :=
  let r := x % fxOne
  let neg := x / fxOne % 2 = 1
  let v := if 2 * r ≤ fxOne then fxSinPi r else fxSinPi (fxOne - r)
  if neg then -v else v

/-- sin πx (07 Table 7.4): an integer gives the zero of its sign. -/
def sinpiV (a : FVal) : FVal :=
  match a with
  | .nan => .nan
  | .inf _ => .nan
  | .fin s m e =>
    let x := fxOf m e
    if m = 0 ∨ 0 ≤ e ∨ x % fxOne = 0 then .zero s
    else if 2 * x % fxOne = 0 then .ofInt (if (x / fxOne % 2 = 1) != s then -1 else 1)
    else fxVal (if s then -(sinPiPos x) else sinPiPos x) 0

/-- cos πx (07 Table 7.4): n + 1/2 gives +0. -/
def cospiV (a : FVal) : FVal :=
  match a with
  | .nan => .nan
  | .inf _ => .nan
  | .fin _ m e =>
    if m = 0 then .ofInt 1
    else if 0 ≤ e then .ofInt (if 1 ≤ e ∨ m % 2 = 0 then 1 else -1)
    else
      let x := fxOf m e
      let r := x % fxOne
      let neg := x / fxOne % 2 = 1
      if r = 0 then .ofInt (if neg then -1 else 1)
      else if 2 * r = fxOne then .zero false
      else
        let v := if 2 * r < fxOne then fxCosPi r else -(fxCosPi (fxOne - r))
        fxVal (if neg then -v else v) 0

/-- tanh x (07 Table 7.4). -/
def tanhV (a : FVal) : FVal :=
  match a with
  | .nan => .nan
  | .inf s => .ofInt (if s then -1 else 1)
  | .fin s m e =>
    if m = 0 then .zero s
    else if 5 ≤ leadExp m e then .ofInt (if s then -1 else 1)
    else
      let t := fxExpNeg (2 * fxOf m e)
      fxVal ((if s then -1 else 1) * ((fxOne - t) * fxOne / (fxOne + t))) 0

/-- 1/(1 + e^−x) (07 Table 7.4). -/
def sigmV (a : FVal) : FVal :=
  match a with
  | .nan => .nan
  | .inf s => if s then .zero false else .ofInt 1
  | .fin s m e =>
    if m = 0 then .fin false 1 (-1)
    else if 7 ≤ leadExp m e then (if s then .zero false else .ofInt 1)
    else
      let t := fxExpNeg (fxOf m e)
      fxVal (if s then t * fxOne / (fxOne + t) else fxOne * fxOne / (fxOne + t)) 0

/-- Apply a special function to an F32 word. -/
def f32Special (f : FVal → FVal) (a : W32) : W32 :=
  BitVec.ofNat 32 (roundArith .f32 (f (decodeFloat .f32 a.toNat)))

end Sys2Proof.Machine
end

