-- ==== Sys2Proof/WellFormed.lean ====
section
/-!
DEFINITION. Which instructions are well formed: the operand values that a description assigns (05 R84).
-/

namespace Sys2Proof

/-- fmt3 values accepted by VFA and VFMA (08 Table 8.2). -/
def VFmt.isSmallFloat : VFmt → Bool
  | .f32 | .bf16 | .f16 => true
  | _ => false

/-- fmt3 values accepted by VIA (08 Table 8.2). -/
def VFmt.isViaInt : VFmt → Bool
  | .i32 | .u32 | .i16 | .i8 => true
  | _ => false

/-- fmt3 values accepted by VSCAN (08 Table 8.2). -/
def VFmt.isScan : VFmt → Bool
  | .f32 | .i32 | .u32 | .q64 => true
  | _ => false

/-- fmt3 values accepted by VMRG (08 Table 8.2). -/
def VFmt.isMerge : VFmt → Bool
  | .f32 | .i32 => true
  | _ => false

/-- Source and destination formats of VCVT: codes 0-11 (08 R160). -/
def Fmt.isVcvt : Fmt → Bool
  | .q64 | .i64 => false
  | _ => true

/-- Destination formats of MZST: not 6, 13, 14 or 15 (09 R197). -/
def Fmt.isMzst : Fmt → Bool
  | .e8m0 | .i64 => false
  | _ => true

/-- The fields of an atomic (12 Table 12.2): a posted atomic has rd zero and neither acquires. -/
def amoOk (p : Bool) (o : Order) (d : GReg) : Bool := !p || (d == 0 && !o.acquires)

/-- A BLK header is legal in a stream (05 R76, R77): L is not 0, the count register field is zero when N ≠ 0, and names
g0-g7 in the S stream. -/
def blkOk (st : Stream) (n : BitVec 12) (c : Fin 16) (l : BitVec 9) : Bool :=
  l != 0 && (n == 0 || c == 0) && (st != .s || c.val < 8)

/-- The operand conditions of an instruction in a stream, beyond what the types of its operands say. The formats of
each V group follow 08 Table 8.2. -/
def Instr.wf (st : Stream) : Instr → Bool
  | .blk n c l => blkOk st n c l
  | .mts r _ => r != 4 && r != 6 && r != 7 && r != 9
  | .aadd p _ o _ d _ _ => amoOk p o d
  | .amin p _ o _ d _ _ => amoOk p o d
  | .amax p _ o _ d _ _ => amoOk p o d
  | .aminu p _ o _ d _ _ => amoOk p o d
  | .amaxu p _ o _ d _ _ => amoOk p o d
  | .aand p _ o _ d _ _ => amoOk p o d
  | .aor p _ o _ d _ _ => amoOk p o d
  | .axor p _ o _ d _ _ => amoOk p o d
  | .aswp p _ o _ d _ _ => amoOk p o d
  | .afadd p s o _ d _ _ => amoOk p o d && s == .w32
  | .amsend r o _ d _ _ => !o.acquires && (r || d == 0)
  | .deleg o _ _ _ _ => !o.acquires
  | .sbr _ b c _ => (c != .z && c != .nz) || b == 0
  | .vfadd f _ _ _ _ => f.isSmallFloat
  | .vfsub f _ _ _ _ => f.isSmallFloat
  | .vfmul f _ _ _ _ => f.isSmallFloat
  | .vfmin f _ _ _ _ => f.isSmallFloat
  | .vfmax f _ _ _ _ => f.isSmallFloat
  | .vfdiv f _ _ _ _ => f.isSmallFloat
  | .vfsqrt f _ _ _ => f.isSmallFloat
  | .vfabs f _ _ _ => f.isSmallFloat
  | .vfneg f _ _ _ => f.isSmallFloat
  | .vfcpys f _ _ _ _ => f.isSmallFloat
  | .vfma f _ _ _ _ => f.isSmallFloat
  | .vfms f _ _ _ _ => f.isSmallFloat
  | .vfnma f _ _ _ _ => f.isSmallFloat
  | .vadd f _ _ _ _ => f.isViaInt
  | .vsub f _ _ _ _ => f.isViaInt
  | .vmul f _ _ _ _ => f.isViaInt
  | .vmulh f _ _ _ _ => f.isViaInt
  | .vand f _ _ _ _ => f.isViaInt
  | .vor f _ _ _ _ => f.isViaInt
  | .vxor f _ _ _ _ => f.isViaInt
  | .vshl f _ _ _ _ => f.isViaInt
  | .vshr f _ _ _ _ => f.isViaInt
  | .vsra f _ _ _ _ => f.isViaInt
  | .vmin f _ _ _ _ => f.isViaInt
  | .vmax f _ _ _ _ => f.isViaInt
  | .vabs f _ _ _ => f.isViaInt && f != .u32
  | .vcmp f _ _ _ d c => d != 0 && ((c != .un && c != .ord) || f.isSmallFloat)
  | .vcvt src dst _ _ _ _ _ => src.isVcvt && dst.isVcvt
  | .vscan f _ _ _ => f.isScan
  | .vscanx f _ _ _ => f.isScan
  | .mand _ _ _ d => d != 0
  | .mor _ _ _ d => d != 0
  | .mxor _ _ _ d => d != 0
  | .mnot _ _ d => d != 0
  | .mset _ _ d => d != 0
  | .vmrgKz f b a d => f.isMerge && b.val % 2 == 0 && a.val % 2 == 0 && d.val % 2 == 0
  | .vmrgDz f b a d => f.isMerge && b.val % 2 == 0 && a.val % 2 == 0 && d.val % 2 == 0
  | .vmrgc f b a _ _ => f.isMerge && b.val % 2 == 0 && a.val % 2 == 0
  | .vstrm _ d => 24 ≤ d.val
  | .mmac p n _ _ _ _ a => n != 0 && p.val < n.val + 1 && (p == 0 || a == 0)
  | .mzst _ _ f _ _ _ => f.isMzst
  | .mzstCmap _ _ f _ _ _ _ => f.isMzst
  | _ => true

end Sys2Proof
end

