-- ==== Sys2Proof/Decode.lean ====
section
/-!
DEFINITION. The encodings of the opcode table: one row per encoded instruction, the decoders of the three streams, and
after them the encoder. Instr has more constructors with fields than compiled code can tag, so the definitions here that
build one are marked noncomputable: Lean's kernel evaluates them.
-/

namespace Sys2Proof

/-- One piece of an encoding, from bit 0 upward: a fixed piece of a width and value, or an operand field of a width. -/
inductive Seg where
  | fix (width value : Nat)
  | op (width : Nat)
  deriving DecidableEq, Repr

/-- The word whose pieces are fixed or hold the given field values, lowest field first. -/
def packSegs : List Seg → List Nat → Nat
  | [], _ => 0
  | .fix n c :: r, vs => c + 2 ^ n * packSegs r vs
  | .op n :: r, v :: vs => v + 2 ^ n * packSegs r vs
  | .op n :: r, [] => 2 ^ n * packSegs r []

/-- The field values of a word, lowest field first, when every fixed piece holds its value and nothing lies above. -/
def unpackSegs : List Seg → Nat → Option (List Nat)
  | [], w => if w = 0 then some [] else none
  | .fix n c :: r, w => if w % 2 ^ n = c then unpackSegs r (w / 2 ^ n) else none
  | .op n :: r, w => (unpackSegs r (w / 2 ^ n)).map (fun vs => w % 2 ^ n :: vs)

/-- One row of the encoding tables: the length of the word in bits, its pieces, and the instruction that its field
values name (none for a value that the instruction's description does not assign, 05 R84). -/
structure Row where
  nbits : Nat
  segs : List Seg
  build : List Nat → Option Instr


/-- BLK (R77). -/
noncomputable def Enc.blk : Row := ⟨32, [.op 9, .fix 7 127, .op 4, .op 12], fun
  | [l, c, n] => some (.blk (BitVec.ofNat 12 n) (Fin.ofNat 16 c) (BitVec.ofNat 9 l))
  | _ => none⟩

/-- ADD (R109). -/
noncomputable def Enc.add : Row := ⟨32, [.op 3, .op 3, .op 3, .fix 23 64], fun
  | [b, a, d] => some (.add (Fin.ofNat 8 d) (Fin.ofNat 8 a) (Fin.ofNat 8 b))
  | _ => none⟩

/-- SUB (R109). -/
noncomputable def Enc.sub : Row := ⟨32, [.op 3, .op 3, .op 3, .fix 23 192], fun
  | [b, a, d] => some (.sub (Fin.ofNat 8 d) (Fin.ofNat 8 a) (Fin.ofNat 8 b))
  | _ => none⟩

/-- MUL (R109). -/
noncomputable def Enc.mul : Row := ⟨32, [.op 3, .op 3, .op 3, .fix 23 320], fun
  | [b, a, d] => some (.mul (Fin.ofNat 8 d) (Fin.ofNat 8 a) (Fin.ofNat 8 b))
  | _ => none⟩

/-- MULH (R109). -/
noncomputable def Enc.mulh : Row := ⟨32, [.op 3, .op 3, .op 3, .fix 23 448], fun
  | [b, a, d] => some (.mulh (Fin.ofNat 8 d) (Fin.ofNat 8 a) (Fin.ofNat 8 b))
  | _ => none⟩

/-- MULHU (R109). -/
noncomputable def Enc.mulhu : Row := ⟨32, [.op 3, .op 3, .op 3, .fix 23 576], fun
  | [b, a, d] => some (.mulhu (Fin.ofNat 8 d) (Fin.ofNat 8 a) (Fin.ofNat 8 b))
  | _ => none⟩

/-- DIV (R110). -/
noncomputable def Enc.div : Row := ⟨32, [.op 3, .op 3, .op 3, .fix 23 704], fun
  | [b, a, d] => some (.div (Fin.ofNat 8 d) (Fin.ofNat 8 a) (Fin.ofNat 8 b))
  | _ => none⟩

/-- DIVU (R110). -/
noncomputable def Enc.divu : Row := ⟨32, [.op 3, .op 3, .op 3, .fix 23 832], fun
  | [b, a, d] => some (.divu (Fin.ofNat 8 d) (Fin.ofNat 8 a) (Fin.ofNat 8 b))
  | _ => none⟩

/-- REM (R110). -/
noncomputable def Enc.rem : Row := ⟨32, [.op 3, .op 3, .op 3, .fix 23 960], fun
  | [b, a, d] => some (.rem (Fin.ofNat 8 d) (Fin.ofNat 8 a) (Fin.ofNat 8 b))
  | _ => none⟩

/-- REMU (R110). -/
noncomputable def Enc.remu : Row := ⟨32, [.op 3, .op 3, .op 3, .fix 23 1088], fun
  | [b, a, d] => some (.remu (Fin.ofNat 8 d) (Fin.ofNat 8 a) (Fin.ofNat 8 b))
  | _ => none⟩

/-- AND (R109). -/
noncomputable def Enc.and : Row := ⟨32, [.op 3, .op 3, .op 3, .fix 23 1216], fun
  | [b, a, d] => some (.and (Fin.ofNat 8 d) (Fin.ofNat 8 a) (Fin.ofNat 8 b))
  | _ => none⟩

/-- OR (R109). -/
noncomputable def Enc.or : Row := ⟨32, [.op 3, .op 3, .op 3, .fix 23 1344], fun
  | [b, a, d] => some (.or (Fin.ofNat 8 d) (Fin.ofNat 8 a) (Fin.ofNat 8 b))
  | _ => none⟩

/-- XOR (R109). -/
noncomputable def Enc.xor : Row := ⟨32, [.op 3, .op 3, .op 3, .fix 23 1472], fun
  | [b, a, d] => some (.xor (Fin.ofNat 8 d) (Fin.ofNat 8 a) (Fin.ofNat 8 b))
  | _ => none⟩

/-- ANDN (R109). -/
noncomputable def Enc.andn : Row := ⟨32, [.op 3, .op 3, .op 3, .fix 23 1600], fun
  | [b, a, d] => some (.andn (Fin.ofNat 8 d) (Fin.ofNat 8 a) (Fin.ofNat 8 b))
  | _ => none⟩

/-- SHL (R109). -/
noncomputable def Enc.shl : Row := ⟨32, [.op 3, .op 3, .op 3, .fix 23 1728], fun
  | [b, a, d] => some (.shl (Fin.ofNat 8 d) (Fin.ofNat 8 a) (Fin.ofNat 8 b))
  | _ => none⟩

/-- SHR (R109). -/
noncomputable def Enc.shr : Row := ⟨32, [.op 3, .op 3, .op 3, .fix 23 1856], fun
  | [b, a, d] => some (.shr (Fin.ofNat 8 d) (Fin.ofNat 8 a) (Fin.ofNat 8 b))
  | _ => none⟩

/-- SRA (R109). -/
noncomputable def Enc.sra : Row := ⟨32, [.op 3, .op 3, .op 3, .fix 23 1984], fun
  | [b, a, d] => some (.sra (Fin.ofNat 8 d) (Fin.ofNat 8 a) (Fin.ofNat 8 b))
  | _ => none⟩

/-- ROL (R109). -/
noncomputable def Enc.rol : Row := ⟨32, [.op 3, .op 3, .op 3, .fix 23 2112], fun
  | [b, a, d] => some (.rol (Fin.ofNat 8 d) (Fin.ofNat 8 a) (Fin.ofNat 8 b))
  | _ => none⟩

/-- MIN (R109). -/
noncomputable def Enc.min : Row := ⟨32, [.op 3, .op 3, .op 3, .fix 23 2240], fun
  | [b, a, d] => some (.min (Fin.ofNat 8 d) (Fin.ofNat 8 a) (Fin.ofNat 8 b))
  | _ => none⟩

/-- MAX (R109). -/
noncomputable def Enc.max : Row := ⟨32, [.op 3, .op 3, .op 3, .fix 23 2368], fun
  | [b, a, d] => some (.max (Fin.ofNat 8 d) (Fin.ofNat 8 a) (Fin.ofNat 8 b))
  | _ => none⟩

/-- MINU (R109). -/
noncomputable def Enc.minu : Row := ⟨32, [.op 3, .op 3, .op 3, .fix 23 2496], fun
  | [b, a, d] => some (.minu (Fin.ofNat 8 d) (Fin.ofNat 8 a) (Fin.ofNat 8 b))
  | _ => none⟩

/-- MAXU (R109). -/
noncomputable def Enc.maxu : Row := ⟨32, [.op 3, .op 3, .op 3, .fix 23 2624], fun
  | [b, a, d] => some (.maxu (Fin.ofNat 8 d) (Fin.ofNat 8 a) (Fin.ofNat 8 b))
  | _ => none⟩

/-- SLT (R109). -/
noncomputable def Enc.slt : Row := ⟨32, [.op 3, .op 3, .op 3, .fix 23 2752], fun
  | [b, a, d] => some (.slt (Fin.ofNat 8 d) (Fin.ofNat 8 a) (Fin.ofNat 8 b))
  | _ => none⟩

/-- SLTU (R109). -/
noncomputable def Enc.sltu : Row := ⟨32, [.op 3, .op 3, .op 3, .fix 23 2880], fun
  | [b, a, d] => some (.sltu (Fin.ofNat 8 d) (Fin.ofNat 8 a) (Fin.ofNat 8 b))
  | _ => none⟩

/-- SEQ (R109). -/
noncomputable def Enc.seq : Row := ⟨32, [.op 3, .op 3, .op 3, .fix 23 3008], fun
  | [b, a, d] => some (.seq (Fin.ofNat 8 d) (Fin.ofNat 8 a) (Fin.ofNat 8 b))
  | _ => none⟩

/-- CLZ (R109). -/
noncomputable def Enc.clz : Row := ⟨32, [.fix 3 0, .op 3, .op 3, .fix 23 3136], fun
  | [a, d] => some (.clz (Fin.ofNat 8 d) (Fin.ofNat 8 a))
  | _ => none⟩

/-- CTZ (R109). -/
noncomputable def Enc.ctz : Row := ⟨32, [.fix 3 0, .op 3, .op 3, .fix 23 3264], fun
  | [a, d] => some (.ctz (Fin.ofNat 8 d) (Fin.ofNat 8 a))
  | _ => none⟩

/-- POPC (R109). -/
noncomputable def Enc.popc : Row := ⟨32, [.fix 3 0, .op 3, .op 3, .fix 23 3392], fun
  | [a, d] => some (.popc (Fin.ofNat 8 d) (Fin.ofNat 8 a))
  | _ => none⟩

/-- SEXT (R109). -/
noncomputable def Enc.sext : Row := ⟨32, [.op 3, .op 3, .op 3, .fix 23 3520], fun
  | [s, a, d] => (ExtSize.ofCode? s).bind fun s' => some (.sext (Fin.ofNat 8 d) (Fin.ofNat 8 a) s')
  | _ => none⟩

/-- ZEXT (R109). -/
noncomputable def Enc.zext : Row := ⟨32, [.op 3, .op 3, .op 3, .fix 23 3648], fun
  | [s, a, d] => (ExtSize.ofCode? s).bind fun s' => some (.zext (Fin.ofNat 8 d) (Fin.ofNat 8 a) s')
  | _ => none⟩

/-- ADDI (R111). -/
noncomputable def Enc.addi : Row := ⟨32, [.op 3, .op 3, .op 3, .fix 7 65, .op 16], fun
  | [j, a, d, i] => some (.addi (Fin.ofNat 8 d) (Fin.ofNat 8 a) (BitVec.ofNat 19 (i * 8 + j)))
  | _ => none⟩

/-- ANDI (R111). -/
noncomputable def Enc.andi : Row := ⟨32, [.op 3, .op 3, .op 3, .fix 7 66, .op 16], fun
  | [j, a, d, i] => some (.andi (Fin.ofNat 8 d) (Fin.ofNat 8 a) (BitVec.ofNat 19 (i * 8 + j)))
  | _ => none⟩

/-- ORI (R111). -/
noncomputable def Enc.ori : Row := ⟨32, [.op 3, .op 3, .op 3, .fix 7 67, .op 16], fun
  | [j, a, d, i] => some (.ori (Fin.ofNat 8 d) (Fin.ofNat 8 a) (BitVec.ofNat 19 (i * 8 + j)))
  | _ => none⟩

/-- XORI (R111). -/
noncomputable def Enc.xori : Row := ⟨32, [.op 3, .op 3, .op 3, .fix 7 68, .op 16], fun
  | [j, a, d, i] => some (.xori (Fin.ofNat 8 d) (Fin.ofNat 8 a) (BitVec.ofNat 19 (i * 8 + j)))
  | _ => none⟩

/-- SLTI (R111). -/
noncomputable def Enc.slti : Row := ⟨32, [.op 3, .op 3, .op 3, .fix 7 69, .op 16], fun
  | [j, a, d, i] => some (.slti (Fin.ofNat 8 d) (Fin.ofNat 8 a) (BitVec.ofNat 19 (i * 8 + j)))
  | _ => none⟩

/-- SLTIU (R111). -/
noncomputable def Enc.sltiu : Row := ⟨32, [.op 3, .op 3, .op 3, .fix 7 70, .op 16], fun
  | [j, a, d, i] => some (.sltiu (Fin.ofNat 8 d) (Fin.ofNat 8 a) (BitVec.ofNat 19 (i * 8 + j)))
  | _ => none⟩

/-- SHLI (R112). -/
noncomputable def Enc.shli : Row := ⟨32, [.fix 3 0, .op 3, .op 3, .fix 7 71, .op 6, .fix 10 0], fun
  | [a, d, n] => some (.shli (BitVec.ofNat 6 n) (Fin.ofNat 8 d) (Fin.ofNat 8 a))
  | _ => none⟩

/-- SHRI (R112). -/
noncomputable def Enc.shri : Row := ⟨32, [.fix 3 0, .op 3, .op 3, .fix 7 71, .op 6, .fix 10 1], fun
  | [a, d, n] => some (.shri (BitVec.ofNat 6 n) (Fin.ofNat 8 d) (Fin.ofNat 8 a))
  | _ => none⟩

/-- SRAI (R112). -/
noncomputable def Enc.srai : Row := ⟨32, [.fix 3 0, .op 3, .op 3, .fix 7 71, .op 6, .fix 10 2], fun
  | [a, d, n] => some (.srai (BitVec.ofNat 6 n) (Fin.ofNat 8 d) (Fin.ofNat 8 a))
  | _ => none⟩

/-- ROLI (R112). -/
noncomputable def Enc.roli : Row := ⟨32, [.fix 3 0, .op 3, .op 3, .fix 7 71, .op 6, .fix 10 3], fun
  | [a, d, n] => some (.roli (BitVec.ofNat 6 n) (Fin.ofNat 8 d) (Fin.ofNat 8 a))
  | _ => none⟩

/-- LI (R113). -/
noncomputable def Enc.li : Row := ⟨32, [.op 3, .fix 3 0, .op 3, .fix 7 72, .op 16], fun
  | [j, d, i] => some (.li (Fin.ofNat 8 d) (BitVec.ofNat 19 (i * 8 + j)))
  | _ => none⟩

/-- LIK (R113). -/
noncomputable def Enc.lik : Row := ⟨32, [.op 2, .fix 4 0, .op 3, .fix 7 73, .op 16], fun
  | [k, d, i] => some (.lik (BitVec.ofNat 16 i) (Fin.ofNat 8 d) (Fin.ofNat 4 k))
  | _ => none⟩

/-- J (R114). -/
noncomputable def Enc.j : Row := ⟨32, [.op 9, .fix 7 74, .op 16], fun
  | [j, i] => some (.j (BitVec.ofNat 25 (i * 512 + j)))
  | _ => none⟩

/-- JAL (R114). -/
noncomputable def Enc.jal : Row := ⟨32, [.op 9, .fix 7 75, .op 16], fun
  | [j, i] => some (.jal (BitVec.ofNat 25 (i * 512 + j)))
  | _ => none⟩

/-- JR (R115). -/
noncomputable def Enc.jr : Row := ⟨32, [.fix 3 0, .op 3, .fix 10 608, .op 16], fun
  | [a, o] => some (.jr (BitVec.ofNat 16 o) (Fin.ofNat 8 a))
  | _ => none⟩

/-- JALR (R115). -/
noncomputable def Enc.jalr : Row := ⟨32, [.fix 3 0, .op 3, .op 3, .fix 7 77, .op 16], fun
  | [a, d, o] => some (.jalr (BitVec.ofNat 16 o) (Fin.ofNat 8 d) (Fin.ofNat 8 a))
  | _ => none⟩

/-- BEQ (R116). -/
noncomputable def Enc.beq : Row := ⟨32, [.op 3, .op 3, .fix 10 624, .op 16], fun
  | [b, a, o] => some (.beq (BitVec.ofNat 16 o) (Fin.ofNat 8 a) (Fin.ofNat 8 b))
  | _ => none⟩

/-- BNE (R116). -/
noncomputable def Enc.bne : Row := ⟨32, [.op 3, .op 3, .fix 10 625, .op 16], fun
  | [b, a, o] => some (.bne (BitVec.ofNat 16 o) (Fin.ofNat 8 a) (Fin.ofNat 8 b))
  | _ => none⟩

/-- BLT (R116). -/
noncomputable def Enc.blt : Row := ⟨32, [.op 3, .op 3, .fix 10 626, .op 16], fun
  | [b, a, o] => some (.blt (BitVec.ofNat 16 o) (Fin.ofNat 8 a) (Fin.ofNat 8 b))
  | _ => none⟩

/-- BGE (R116). -/
noncomputable def Enc.bge : Row := ⟨32, [.op 3, .op 3, .fix 10 627, .op 16], fun
  | [b, a, o] => some (.bge (BitVec.ofNat 16 o) (Fin.ofNat 8 a) (Fin.ofNat 8 b))
  | _ => none⟩

/-- BLTU (R116). -/
noncomputable def Enc.bltu : Row := ⟨32, [.op 3, .op 3, .fix 10 628, .op 16], fun
  | [b, a, o] => some (.bltu (BitVec.ofNat 16 o) (Fin.ofNat 8 a) (Fin.ofNat 8 b))
  | _ => none⟩

/-- BGEU (R116). -/
noncomputable def Enc.bgeu : Row := ⟨32, [.op 3, .op 3, .fix 10 629, .op 16], fun
  | [b, a, o] => some (.bgeu (BitVec.ofNat 16 o) (Fin.ofNat 8 a) (Fin.ofNat 8 b))
  | _ => none⟩

/-- BZ (R116). -/
noncomputable def Enc.bz : Row := ⟨32, [.fix 3 0, .op 3, .fix 10 630, .op 16], fun
  | [a, o] => some (.bz (BitVec.ofNat 16 o) (Fin.ofNat 8 a))
  | _ => none⟩

/-- BNZ (R116). -/
noncomputable def Enc.bnz : Row := ⟨32, [.fix 3 0, .op 3, .fix 10 631, .op 16], fun
  | [a, o] => some (.bnz (BitVec.ofNat 16 o) (Fin.ofNat 8 a))
  | _ => none⟩

/-- LD (R238). -/
noncomputable def Enc.ld : Row := ⟨32, [.op 3, .op 3, .op 3, .fix 7 79, .op 16], fun
  | [s, a, d, i] => (LdSize.ofCode? s).bind fun s' => some (.ld (BitVec.ofNat 16 i) (Fin.ofNat 8 d) (Fin.ofNat 8 a) s')
  | _ => none⟩

/-- ST (R239). -/
noncomputable def Enc.st : Row := ⟨32, [.op 2, .fix 1 0, .op 3, .op 3, .fix 7 80, .op 16], fun
  | [s, a, d, i] => (StSize.ofCode? s).bind fun s' => some (.st (BitVec.ofNat 16 i) (Fin.ofNat 8 d) (Fin.ofNat 8 a) s')
  | _ => none⟩

/-- LDACQ (R240). -/
noncomputable def Enc.ldacq : Row := ⟨32, [.fix 3 0, .op 3, .op 3, .fix 7 81, .op 13, .op 3], fun
  | [a, d, i, c] => (Scope.ofCode? c).bind fun c' => some (.ldacq c' (BitVec.ofNat 13 i) (Fin.ofNat 8 d) (Fin.ofNat 8 a))
  | _ => none⟩

/-- STREL (R240). -/
noncomputable def Enc.strel : Row := ⟨32, [.fix 3 0, .op 3, .op 3, .fix 7 82, .op 13, .op 3], fun
  | [a, d, i, c] => (Scope.ofCode? c).bind fun c' => some (.strel c' (BitVec.ofNat 13 i) (Fin.ofNat 8 d) (Fin.ofNat 8 a))
  | _ => none⟩

/-- LDFE_TAKE (R242). -/
noncomputable def Enc.ldfeTake : Row := ⟨32, [.fix 3 0, .op 3, .op 3, .fix 7 83, .op 13, .fix 3 0], fun
  | [a, d, i] => some (.ldfeTake (BitVec.ofNat 13 i) (Fin.ofNat 8 d) (Fin.ofNat 8 a))
  | _ => none⟩

/-- LDFE_PEEK (R242). -/
noncomputable def Enc.ldfePeek : Row := ⟨32, [.fix 3 0, .op 3, .op 3, .fix 7 83, .op 13, .fix 3 1], fun
  | [a, d, i] => some (.ldfePeek (BitVec.ofNat 13 i) (Fin.ofNat 8 d) (Fin.ofNat 8 a))
  | _ => none⟩

/-- LDFE_TAG (R242). -/
noncomputable def Enc.ldfeTag : Row := ⟨32, [.fix 3 0, .op 3, .op 3, .fix 7 83, .op 13, .fix 3 2], fun
  | [a, d, i] => some (.ldfeTag (BitVec.ofNat 13 i) (Fin.ofNat 8 d) (Fin.ofNat 8 a))
  | _ => none⟩

/-- STFE_PUT (R242). -/
noncomputable def Enc.stfePut : Row := ⟨32, [.fix 3 0, .op 3, .op 3, .fix 7 84, .op 13, .fix 3 0], fun
  | [a, d, i] => some (.stfePut (BitVec.ofNat 13 i) (Fin.ofNat 8 d) (Fin.ofNat 8 a))
  | _ => none⟩

/-- STFE_FORCE (R242). -/
noncomputable def Enc.stfeForce : Row := ⟨32, [.fix 3 0, .op 3, .op 3, .fix 7 84, .op 13, .fix 3 1], fun
  | [a, d, i] => some (.stfeForce (BitVec.ofNat 13 i) (Fin.ofNat 8 d) (Fin.ofNat 8 a))
  | _ => none⟩

/-- STFE_CLEAR (R242). -/
noncomputable def Enc.stfeClear : Row := ⟨32, [.fix 3 0, .op 3, .fix 10 672, .op 13, .fix 3 2], fun
  | [a, i] => some (.stfeClear (BitVec.ofNat 13 i) (Fin.ofNat 8 a))
  | _ => none⟩

/-- AADD (R245). -/
noncomputable def Enc.aadd : Row := ⟨32, [.op 3, .op 3, .op 3, .fix 12 85, .op 3, .op 2, .op 1, .op 1, .fix 4 0], fun
  | [b, a, d, c, o, s, p] => (AmoSize.ofCode? s).bind fun s' => (Order.ofCode? o).bind fun o' => (Scope.ofCode? c).bind fun c' => some (.aadd (Nat.beq p 1) s' o' c' (Fin.ofNat 8 d) (Fin.ofNat 8 a) (Fin.ofNat 8 b))
  | _ => none⟩

/-- AMIN (R245). -/
noncomputable def Enc.amin : Row := ⟨32, [.op 3, .op 3, .op 3, .fix 12 213, .op 3, .op 2, .op 1, .op 1, .fix 4 0], fun
  | [b, a, d, c, o, s, p] => (AmoSize.ofCode? s).bind fun s' => (Order.ofCode? o).bind fun o' => (Scope.ofCode? c).bind fun c' => some (.amin (Nat.beq p 1) s' o' c' (Fin.ofNat 8 d) (Fin.ofNat 8 a) (Fin.ofNat 8 b))
  | _ => none⟩

/-- AMAX (R245). -/
noncomputable def Enc.amax : Row := ⟨32, [.op 3, .op 3, .op 3, .fix 12 341, .op 3, .op 2, .op 1, .op 1, .fix 4 0], fun
  | [b, a, d, c, o, s, p] => (AmoSize.ofCode? s).bind fun s' => (Order.ofCode? o).bind fun o' => (Scope.ofCode? c).bind fun c' => some (.amax (Nat.beq p 1) s' o' c' (Fin.ofNat 8 d) (Fin.ofNat 8 a) (Fin.ofNat 8 b))
  | _ => none⟩

/-- AMINU (R245). -/
noncomputable def Enc.aminu : Row := ⟨32, [.op 3, .op 3, .op 3, .fix 12 469, .op 3, .op 2, .op 1, .op 1, .fix 4 0], fun
  | [b, a, d, c, o, s, p] => (AmoSize.ofCode? s).bind fun s' => (Order.ofCode? o).bind fun o' => (Scope.ofCode? c).bind fun c' => some (.aminu (Nat.beq p 1) s' o' c' (Fin.ofNat 8 d) (Fin.ofNat 8 a) (Fin.ofNat 8 b))
  | _ => none⟩

/-- AMAXU (R245). -/
noncomputable def Enc.amaxu : Row := ⟨32, [.op 3, .op 3, .op 3, .fix 12 597, .op 3, .op 2, .op 1, .op 1, .fix 4 0], fun
  | [b, a, d, c, o, s, p] => (AmoSize.ofCode? s).bind fun s' => (Order.ofCode? o).bind fun o' => (Scope.ofCode? c).bind fun c' => some (.amaxu (Nat.beq p 1) s' o' c' (Fin.ofNat 8 d) (Fin.ofNat 8 a) (Fin.ofNat 8 b))
  | _ => none⟩

/-- AAND (R245). -/
noncomputable def Enc.aand : Row := ⟨32, [.op 3, .op 3, .op 3, .fix 12 725, .op 3, .op 2, .op 1, .op 1, .fix 4 0], fun
  | [b, a, d, c, o, s, p] => (AmoSize.ofCode? s).bind fun s' => (Order.ofCode? o).bind fun o' => (Scope.ofCode? c).bind fun c' => some (.aand (Nat.beq p 1) s' o' c' (Fin.ofNat 8 d) (Fin.ofNat 8 a) (Fin.ofNat 8 b))
  | _ => none⟩

/-- AOR (R245). -/
noncomputable def Enc.aor : Row := ⟨32, [.op 3, .op 3, .op 3, .fix 12 853, .op 3, .op 2, .op 1, .op 1, .fix 4 0], fun
  | [b, a, d, c, o, s, p] => (AmoSize.ofCode? s).bind fun s' => (Order.ofCode? o).bind fun o' => (Scope.ofCode? c).bind fun c' => some (.aor (Nat.beq p 1) s' o' c' (Fin.ofNat 8 d) (Fin.ofNat 8 a) (Fin.ofNat 8 b))
  | _ => none⟩

/-- AXOR (R245). -/
noncomputable def Enc.axor : Row := ⟨32, [.op 3, .op 3, .op 3, .fix 12 981, .op 3, .op 2, .op 1, .op 1, .fix 4 0], fun
  | [b, a, d, c, o, s, p] => (AmoSize.ofCode? s).bind fun s' => (Order.ofCode? o).bind fun o' => (Scope.ofCode? c).bind fun c' => some (.axor (Nat.beq p 1) s' o' c' (Fin.ofNat 8 d) (Fin.ofNat 8 a) (Fin.ofNat 8 b))
  | _ => none⟩

/-- ASWP (R245). -/
noncomputable def Enc.aswp : Row := ⟨32, [.op 3, .op 3, .op 3, .fix 12 1109, .op 3, .op 2, .op 1, .op 1, .fix 4 0], fun
  | [b, a, d, c, o, s, p] => (AmoSize.ofCode? s).bind fun s' => (Order.ofCode? o).bind fun o' => (Scope.ofCode? c).bind fun c' => some (.aswp (Nat.beq p 1) s' o' c' (Fin.ofNat 8 d) (Fin.ofNat 8 a) (Fin.ofNat 8 b))
  | _ => none⟩

/-- AFADD (R245). -/
noncomputable def Enc.afadd : Row := ⟨32, [.op 3, .op 3, .op 3, .fix 12 1237, .op 3, .op 2, .op 1, .op 1, .fix 4 0], fun
  | [b, a, d, c, o, s, p] => (AmoSize.ofCode? s).bind fun s' => (Order.ofCode? o).bind fun o' => (Scope.ofCode? c).bind fun c' => some (.afadd (Nat.beq p 1) s' o' c' (Fin.ofNat 8 d) (Fin.ofNat 8 a) (Fin.ofNat 8 b))
  | _ => none⟩

/-- ACAS (R246). -/
noncomputable def Enc.acas : Row := ⟨32, [.op 3, .op 3, .op 3, .fix 12 86, .op 3, .op 2, .op 1, .fix 5 0], fun
  | [b, a, d, c, o, s] => (AmoSize.ofCode? s).bind fun s' => (Order.ofCode? o).bind fun o' => (Scope.ofCode? c).bind fun c' => some (.acas s' o' c' (Fin.ofNat 8 d) (Fin.ofNat 8 a) (Fin.ofNat 8 b))
  | _ => none⟩

/-- AMSEND (R247). -/
noncomputable def Enc.amsend : Row := ⟨32, [.op 3, .op 3, .op 3, .fix 12 87, .op 3, .op 2, .op 1, .fix 5 0], fun
  | [b, a, d, c, o, r] => (Order.ofCode? o).bind fun o' => (Scope.ofCode? c).bind fun c' => some (.amsend (Nat.beq r 1) o' c' (Fin.ofNat 8 d) (Fin.ofNat 8 a) (Fin.ofNat 8 b))
  | _ => none⟩

/-- AMREPLY (R251). -/
noncomputable def Enc.amreply : Row := ⟨32, [.fix 3 0, .op 3, .fix 26 704], fun
  | [a] => some (.amreply (Fin.ofNat 8 a))
  | _ => none⟩

/-- DELEG (R252). -/
noncomputable def Enc.deleg : Row := ⟨32, [.op 3, .op 3, .op 3, .fix 12 89, .op 3, .op 2, .fix 6 0], fun
  | [b, a, d, c, o] => (Order.ofCode? o).bind fun o' => (Scope.ofCode? c).bind fun c' => some (.deleg o' c' (Fin.ofNat 8 d) (Fin.ofNat 8 a) (Fin.ofNat 8 b))
  | _ => none⟩

/-- SPAWN (R121). -/
noncomputable def Enc.spawn : Row := ⟨32, [.op 3, .op 3, .fix 26 720], fun
  | [b, a] => some (.spawn (Fin.ofNat 8 a) (Fin.ofNat 8 b))
  | _ => none⟩

/-- PUSHT (R121). -/
noncomputable def Enc.pusht : Row := ⟨32, [.fix 3 0, .op 3, .fix 26 728], fun
  | [a] => some (.pusht (Fin.ofNat 8 a))
  | _ => none⟩

/-- TEND (R118). -/
noncomputable def Enc.tend : Row := ⟨32, [.fix 32 47104], fun
  | [] => some .tend
  | _ => none⟩

/-- YIELD (R119). -/
noncomputable def Enc.yield : Row := ⟨32, [.fix 32 112640], fun
  | [] => some .yield
  | _ => none⟩

/-- FIBID (R120). -/
noncomputable def Enc.fibid : Row := ⟨32, [.fix 6 0, .op 3, .fix 23 348], fun
  | [d] => some (.fibid (Fin.ofNat 8 d))
  | _ => none⟩

/-- FORKV (R122). -/
noncomputable def Enc.forkv : Row := ⟨32, [.fix 3 0, .op 3, .fix 26 744], fun
  | [a] => some (.forkv (Fin.ofNat 8 a))
  | _ => none⟩

/-- FORKM (R122). -/
noncomputable def Enc.forkm : Row := ⟨32, [.fix 3 0, .op 3, .fix 26 1768], fun
  | [a] => some (.forkm (Fin.ofNat 8 a))
  | _ => none⟩

/-- KINC (R320). -/
noncomputable def Enc.kinc : Row := ⟨32, [.fix 3 0, .op 3, .fix 10 752, .op 5, .fix 3 0, .op 7, .op 1], fun
  | [a, k, n, f] => (KAmt.ofFields? f n a).bind fun q => some (.kinc (Fin.ofNat 32 k) q)
  | _ => none⟩

/-- KWAIT (R320). -/
noncomputable def Enc.kwait : Row := ⟨32, [.fix 3 0, .op 3, .fix 10 752, .op 5, .fix 3 1, .op 7, .op 1], fun
  | [a, k, n, f] => (KAmt.ofFields? f n a).bind fun q => some (.kwait (Fin.ofNat 32 k) q)
  | _ => none⟩

/-- KWAITN (R320). -/
noncomputable def Enc.kwaitn : Row := ⟨32, [.fix 3 0, .op 3, .fix 10 752, .op 5, .fix 3 2, .op 7, .op 1], fun
  | [a, k, n, f] => (KAmt.ofFields? f n a).bind fun q => some (.kwaitn (Fin.ofNat 32 k) q)
  | _ => none⟩

/-- KSET (R320). -/
noncomputable def Enc.kset : Row := ⟨32, [.fix 3 0, .op 3, .fix 10 752, .op 5, .fix 3 3, .op 7, .op 1], fun
  | [a, k, n, f] => (KAmt.ofFields? f n a).bind fun q => some (.kset (Fin.ofNat 32 k) q)
  | _ => none⟩

/-- KRD (R320). -/
noncomputable def Enc.krd : Row := ⟨32, [.fix 6 0, .op 3, .fix 7 94, .op 5, .fix 11 4], fun
  | [d, k] => some (.krd (Fin.ofNat 32 k) (Fin.ofNat 8 d))
  | _ => none⟩

/-- FENCE_ACQ (R254). -/
noncomputable def Enc.fenceAcq : Row := ⟨32, [.fix 16 48640, .op 3, .fix 13 0], fun
  | [s] => (Scope.ofCode? s).bind fun s' => some (.fenceAcq s')
  | _ => none⟩

/-- FENCE_REL (R254). -/
noncomputable def Enc.fenceRel : Row := ⟨32, [.fix 16 48640, .op 3, .fix 13 1], fun
  | [s] => (Scope.ofCode? s).bind fun s' => some (.fenceRel s')
  | _ => none⟩

/-- FENCE_AR (R254). -/
noncomputable def Enc.fenceAr : Row := ⟨32, [.fix 16 48640, .op 3, .fix 13 2], fun
  | [s] => (Scope.ofCode? s).bind fun s' => some (.fenceAr s')
  | _ => none⟩

/-- FENCE_SC (R254). -/
noncomputable def Enc.fenceSc : Row := ⟨32, [.fix 16 48640, .op 3, .fix 13 3], fun
  | [s] => (Scope.ofCode? s).bind fun s' => some (.fenceSc s')
  | _ => none⟩

/-- CSEND (R326). -/
noncomputable def Enc.csend : Row := ⟨32, [.fix 3 0, .op 3, .fix 13 768, .op 4, .fix 9 0], fun
  | [a, e] => some (.csend (Fin.ofNat 16 e) (Fin.ofNat 8 a))
  | _ => none⟩

/-- CRECV (R327). -/
noncomputable def Enc.crecv : Row := ⟨32, [.fix 6 0, .op 3, .fix 10 224, .op 4, .fix 9 0], fun
  | [d, e] => some (.crecv (Fin.ofNat 16 e) (Fin.ofNat 8 d))
  | _ => none⟩

/-- CGRANT (R328). -/
noncomputable def Enc.cgrant : Row := ⟨32, [.fix 3 0, .op 3, .fix 13 2816, .op 4, .fix 9 0], fun
  | [a, e] => some (.cgrant (Fin.ofNat 16 e) (Fin.ofNat 8 a))
  | _ => none⟩

/-- CALT (R329). -/
noncomputable def Enc.calt : Row := ⟨32, [.fix 3 0, .op 3, .op 3, .fix 23 480], fun
  | [a, d] => some (.calt (Fin.ofNat 8 d) (Fin.ofNat 8 a))
  | _ => none⟩

/-- CPYQ (R269). -/
noncomputable def Enc.cpyq : Row := ⟨32, [.fix 32 49664], fun
  | [] => some .cpyq
  | _ => none⟩

/-- CPYQ_NB (R269). -/
noncomputable def Enc.cpyqNb : Row := ⟨32, [.fix 6 0, .op 3, .fix 23 225], fun
  | [d] => some (.cpyqNb (Fin.ofNat 8 d))
  | _ => none⟩

/-- CPYA (R270). -/
noncomputable def Enc.cpya : Row := ⟨32, [.fix 3 0, .op 3, .op 3, .fix 7 98, .op 5, .op 1, .fix 10 0], fun
  | [a, d, k, r] => some (.cpya (Nat.beq r 1) (Fin.ofNat 32 k) (Fin.ofNat 8 d) (Fin.ofNat 8 a))
  | _ => none⟩

/-- CPYC_Q (R271). -/
noncomputable def Enc.cpycQ : Row := ⟨32, [.fix 3 0, .op 3, .op 3, .fix 23 99], fun
  | [a, d] => some (.cpycQ (Fin.ofNat 8 d) (Fin.ofNat 8 a))
  | _ => none⟩

/-- CPYC_X (R271). -/
noncomputable def Enc.cpycX : Row := ⟨32, [.fix 3 0, .op 3, .op 3, .fix 23 227], fun
  | [a, d] => some (.cpycX (Fin.ofNat 8 d) (Fin.ofNat 8 a))
  | _ => none⟩

/-- GATH (R277). -/
noncomputable def Enc.gath : Row := ⟨32, [.fix 3 0, .op 3, .fix 26 800], fun
  | [a] => some (.gath (Fin.ofNat 8 a))
  | _ => none⟩

/-- SCAT (R277). -/
noncomputable def Enc.scat : Row := ⟨32, [.fix 3 0, .op 3, .fix 26 808], fun
  | [a] => some (.scat (Fin.ofNat 8 a))
  | _ => none⟩

/-- GATEQ (R283). -/
noncomputable def Enc.gateq : Row := ⟨32, [.op 3, .op 3, .fix 10 816, .op 16], fun
  | [b, a, s] => some (.gateq (BitVec.ofNat 16 s) (Fin.ofNat 8 a) (Fin.ofNat 8 b))
  | _ => none⟩

/-- BINPUT (R288). -/
noncomputable def Enc.binput : Row := ⟨32, [.op 3, .op 3, .op 3, .fix 23 103], fun
  | [b, a, d] => some (.binput (Fin.ofNat 8 d) (Fin.ofNat 8 a) (Fin.ofNat 8 b))
  | _ => none⟩

/-- EXSEND (R291). -/
noncomputable def Enc.exsend : Row := ⟨32, [.fix 3 0, .op 3, .fix 26 832], fun
  | [a] => some (.exsend (Fin.ofNat 8 a))
  | _ => none⟩

/-- EXPOLL (R298). -/
noncomputable def Enc.expoll : Row := ⟨32, [.fix 6 0, .op 3, .fix 10 232, .op 1, .fix 12 0], fun
  | [d, w] => some (.expoll (Nat.beq w 1) (Fin.ofNat 8 d))
  | _ => none⟩

/-- CINJ (R336). -/
noncomputable def Enc.cinj : Row := ⟨32, [.fix 3 0, .op 3, .fix 13 840, .op 4, .op 4, .fix 5 0], fun
  | [a, g, o] => (CombOp.ofCode? o).bind fun o' => some (.cinj o' (Fin.ofNat 16 g) (Fin.ofNat 8 a))
  | _ => none⟩

/-- CEXT (R337). -/
noncomputable def Enc.cext : Row := ⟨32, [.fix 6 0, .op 3, .fix 10 233, .op 4, .fix 9 0], fun
  | [d, g] => some (.cext (Fin.ofNat 16 g) (Fin.ofNat 8 d))
  | _ => none⟩

/-- LEASE (R315). -/
noncomputable def Enc.lease : Row := ⟨32, [.op 3, .op 3, .op 3, .fix 23 106], fun
  | [b, a, d] => some (.lease (Fin.ofNat 8 d) (Fin.ofNat 8 a) (Fin.ofNat 8 b))
  | _ => none⟩

/-- LREL (R317). -/
noncomputable def Enc.lrel : Row := ⟨32, [.fix 3 0, .op 3, .fix 26 1872], fun
  | [a] => some (.lrel (Fin.ofNat 8 a))
  | _ => none⟩

/-- LQRY (R318). -/
noncomputable def Enc.lqry : Row := ⟨32, [.fix 3 0, .op 3, .op 3, .fix 23 362], fun
  | [a, d] => some (.lqry (Fin.ofNat 8 d) (Fin.ofNat 8 a))
  | _ => none⟩

/-- CVTG (R255). -/
noncomputable def Enc.cvtg : Row := ⟨32, [.fix 3 0, .op 3, .op 3, .fix 23 107], fun
  | [a, d] => some (.cvtg (Fin.ofNat 8 d) (Fin.ofNat 8 a))
  | _ => none⟩

/-- APT (R256). -/
noncomputable def Enc.apt : Row := ⟨32, [.fix 3 0, .op 3, .op 3, .fix 23 235], fun
  | [a, d] => some (.apt (Fin.ofNat 8 d) (Fin.ofNat 8 a))
  | _ => none⟩

/-- CFLUSH (R257). -/
noncomputable def Enc.cflush : Row := ⟨32, [.op 3, .op 3, .fix 26 864], fun
  | [b, a] => some (.cflush (Fin.ofNat 8 a) (Fin.ofNat 8 b))
  | _ => none⟩

/-- CINV (R257). -/
noncomputable def Enc.cinv : Row := ⟨32, [.op 3, .op 3, .fix 26 1888], fun
  | [b, a] => some (.cinv (Fin.ofNat 8 a) (Fin.ofNat 8 b))
  | _ => none⟩

/-- PREF (R257). -/
noncomputable def Enc.pref : Row := ⟨32, [.op 3, .op 3, .fix 26 2912], fun
  | [b, a] => some (.pref (Fin.ofNat 8 a) (Fin.ofNat 8 b))
  | _ => none⟩

/-- MFS (R123). -/
noncomputable def Enc.mfs : Row := ⟨32, [.fix 6 0, .op 3, .fix 15 109, .op 8], fun
  | [d, r] => some (.mfs (BitVec.ofNat 8 r) (Fin.ofNat 8 d))
  | _ => none⟩

/-- MTS (R126). -/
noncomputable def Enc.mts : Row := ⟨32, [.fix 3 0, .op 3, .fix 18 1896, .op 8], fun
  | [a, r] => some (.mts (BitVec.ofNat 8 r) (Fin.ofNat 8 a))
  | _ => none⟩

/-- MTS_ROUTER (R282). -/
noncomputable def Enc.mtsRouter : Row := ⟨32, [.fix 3 0, .op 3, .fix 26 1574760], fun
  | [a] => some (.mtsRouter (Fin.ofNat 8 a))
  | _ => none⟩

/-- MTS_BINBASE (R287). -/
noncomputable def Enc.mtsBinbase : Row := ⟨32, [.fix 3 0, .op 3, .fix 26 1836904], fun
  | [a] => some (.mtsBinbase (Fin.ofNat 8 a))
  | _ => none⟩

/-- MTS_SEED (R137). -/
noncomputable def Enc.mtsSeed : Row := ⟨32, [.fix 3 0, .op 3, .fix 26 1050472], fun
  | [a] => some (.mtsSeed (Fin.ofNat 8 a))
  | _ => none⟩

/-- MTS_TRAPPC (R363). -/
noncomputable def Enc.mtsTrappc : Row := ⟨32, [.fix 3 0, .op 3, .fix 26 2361192], fun
  | [a] => some (.mtsTrappc (Fin.ofNat 8 a))
  | _ => none⟩

/-- TRAP (R362). -/
noncomputable def Enc.trap : Row := ⟨32, [.fix 3 0, .op 3, .fix 26 2920], fun
  | [a] => some (.trap (Fin.ofNat 8 a))
  | _ => none⟩

/-- BRK (R127). -/
noncomputable def Enc.brk : Row := ⟨32, [.fix 24 252416, .op 8], fun
  | [c] => some (.brk (BitVec.ofNat 8 c))
  | _ => none⟩

/-- RTT (R361). -/
noncomputable def Enc.rtt : Row := ⟨32, [.fix 32 317952], fun
  | [] => some .rtt
  | _ => none⟩

/-- RTT_DROP (R361). -/
noncomputable def Enc.rttDrop : Row := ⟨32, [.fix 32 842240], fun
  | [] => some .rttDrop
  | _ => none⟩

/-- NOP (R127). -/
noncomputable def Enc.nop : Row := ⟨32, [.fix 32 383488], fun
  | [] => some .nop
  | _ => none⟩

/-- MOV_C16 (R128). -/
noncomputable def Enc.movC16 : Row := ⟨16, [.fix 4 0, .op 3, .op 3, .fix 6 0], fun
  | [b, a] => some (.movC16 (Fin.ofNat 8 a) (Fin.ofNat 8 b))
  | _ => none⟩

/-- ADD_C16 (R128). -/
noncomputable def Enc.addC16 : Row := ⟨16, [.op 3, .fix 1 0, .op 3, .op 3, .fix 6 1], fun
  | [c, b, a] => some (.addC16 (Fin.ofNat 8 a) (Fin.ofNat 8 b) (Fin.ofNat 8 c))
  | _ => none⟩

/-- SUB_C16 (R128). -/
noncomputable def Enc.subC16 : Row := ⟨16, [.op 3, .fix 1 0, .op 3, .op 3, .fix 6 2], fun
  | [c, b, a] => some (.subC16 (Fin.ofNat 8 a) (Fin.ofNat 8 b) (Fin.ofNat 8 c))
  | _ => none⟩

/-- AND_C16 (R128). -/
noncomputable def Enc.andC16 : Row := ⟨16, [.op 3, .fix 1 0, .op 3, .op 3, .fix 6 3], fun
  | [c, b, a] => some (.andC16 (Fin.ofNat 8 a) (Fin.ofNat 8 b) (Fin.ofNat 8 c))
  | _ => none⟩

/-- OR_C16 (R128). -/
noncomputable def Enc.orC16 : Row := ⟨16, [.op 3, .fix 1 0, .op 3, .op 3, .fix 6 4], fun
  | [c, b, a] => some (.orC16 (Fin.ofNat 8 a) (Fin.ofNat 8 b) (Fin.ofNat 8 c))
  | _ => none⟩

/-- XOR_C16 (R128). -/
noncomputable def Enc.xorC16 : Row := ⟨16, [.op 3, .fix 1 0, .op 3, .op 3, .fix 6 5], fun
  | [c, b, a] => some (.xorC16 (Fin.ofNat 8 a) (Fin.ofNat 8 b) (Fin.ofNat 8 c))
  | _ => none⟩

/-- ADDI_C16 (R128). -/
noncomputable def Enc.addiC16 : Row := ⟨16, [.op 4, .op 3, .op 3, .fix 6 6], fun
  | [i, b, a] => some (.addiC16 (Fin.ofNat 8 a) (Fin.ofNat 8 b) (BitVec.ofNat 4 i))
  | _ => none⟩

/-- SHLI_C16 (R128). -/
noncomputable def Enc.shliC16 : Row := ⟨16, [.op 4, .op 3, .op 3, .fix 6 7], fun
  | [n, b, a] => some (.shliC16 (Fin.ofNat 8 a) (Fin.ofNat 8 b) (BitVec.ofNat 4 n))
  | _ => none⟩

/-- SHRI_C16 (R128). -/
noncomputable def Enc.shriC16 : Row := ⟨16, [.op 4, .op 3, .op 3, .fix 6 8], fun
  | [n, b, a] => some (.shriC16 (Fin.ofNat 8 a) (Fin.ofNat 8 b) (BitVec.ofNat 4 n))
  | _ => none⟩

/-- LI_C16 (R128). -/
noncomputable def Enc.liC16 : Row := ⟨16, [.op 7, .op 3, .fix 6 9], fun
  | [i, a] => some (.liC16 (Fin.ofNat 8 a) (BitVec.ofNat 7 i))
  | _ => none⟩

/-- LDD_C16 (R128). -/
noncomputable def Enc.lddC16 : Row := ⟨16, [.op 4, .op 3, .op 3, .fix 6 10], fun
  | [d, b, a] => some (.lddC16 (Fin.ofNat 8 a) (Fin.ofNat 8 b) (BitVec.ofNat 4 d))
  | _ => none⟩

/-- STD_C16 (R128). -/
noncomputable def Enc.stdC16 : Row := ⟨16, [.op 4, .op 3, .op 3, .fix 6 11], fun
  | [d, b, a] => some (.stdC16 (Fin.ofNat 8 a) (Fin.ofNat 8 b) (BitVec.ofNat 4 d))
  | _ => none⟩

/-- BZ_C16 (R128). -/
noncomputable def Enc.bzC16 : Row := ⟨16, [.op 7, .op 3, .fix 6 12], fun
  | [i, a] => some (.bzC16 (Fin.ofNat 8 a) (BitVec.ofNat 7 i))
  | _ => none⟩

/-- BNZ_C16 (R128). -/
noncomputable def Enc.bnzC16 : Row := ⟨16, [.op 7, .op 3, .fix 6 13], fun
  | [i, a] => some (.bnzC16 (Fin.ofNat 8 a) (BitVec.ofNat 7 i))
  | _ => none⟩

/-- KINC_C16 (R128). -/
noncomputable def Enc.kincC16 : Row := ⟨16, [.op 5, .fix 11 448], fun
  | [k] => some (.kincC16 (Fin.ofNat 32 k))
  | _ => none⟩

/-- KWAIT_C16 (R128). -/
noncomputable def Enc.kwaitC16 : Row := ⟨16, [.op 5, .fix 11 480], fun
  | [k] => some (.kwaitC16 (Fin.ofNat 32 k))
  | _ => none⟩

/-- TEND_C16 (R128). -/
noncomputable def Enc.tendC16 : Row := ⟨16, [.fix 16 16384], fun
  | [] => some .tendC16
  | _ => none⟩

/-- YIELD_C16 (R128). -/
noncomputable def Enc.yieldC16 : Row := ⟨16, [.fix 16 17408], fun
  | [] => some .yieldC16
  | _ => none⟩

/-- NOP_C16 (R128). -/
noncomputable def Enc.nopC16 : Row := ⟨16, [.fix 16 18432], fun
  | [] => some .nopC16
  | _ => none⟩

/-- TOK (R88). -/
noncomputable def Enc.tok : Row := ⟨32, [.op 2, .op 2, .op 5, .fix 7 126, .op 5, .op 5, .op 5, .op 1], fun
  | [c, n, q, i, j, k, p] => (TokUse.ofFields? c i j k).bind fun u => (tokProdOf? p q n).bind fun g => some (.tok u g)
  | _ => none⟩

/-- SADD (R97). -/
noncomputable def Enc.sadd : Row := ⟨32, [.fix 1 0, .op 4, .op 4, .fix 7 120, .op 4, .fix 12 0], fun
  | [a, d, b] => some (.sadd (Fin.ofNat 16 b) (Fin.ofNat 16 d) (Fin.ofNat 16 a))
  | _ => none⟩

/-- SSUB (R97). -/
noncomputable def Enc.ssub : Row := ⟨32, [.fix 1 0, .op 4, .op 4, .fix 7 120, .op 4, .fix 12 1], fun
  | [a, d, b] => some (.ssub (Fin.ofNat 16 b) (Fin.ofNat 16 d) (Fin.ofNat 16 a))
  | _ => none⟩

/-- SMUL (R97). -/
noncomputable def Enc.smul : Row := ⟨32, [.fix 1 0, .op 4, .op 4, .fix 7 120, .op 4, .fix 12 2], fun
  | [a, d, b] => some (.smul (Fin.ofNat 16 b) (Fin.ofNat 16 d) (Fin.ofNat 16 a))
  | _ => none⟩

/-- SAND (R97). -/
noncomputable def Enc.sand : Row := ⟨32, [.fix 1 0, .op 4, .op 4, .fix 7 120, .op 4, .fix 12 3], fun
  | [a, d, b] => some (.sand (Fin.ofNat 16 b) (Fin.ofNat 16 d) (Fin.ofNat 16 a))
  | _ => none⟩

/-- SOR (R97). -/
noncomputable def Enc.sor : Row := ⟨32, [.fix 1 0, .op 4, .op 4, .fix 7 120, .op 4, .fix 12 4], fun
  | [a, d, b] => some (.sor (Fin.ofNat 16 b) (Fin.ofNat 16 d) (Fin.ofNat 16 a))
  | _ => none⟩

/-- SXOR (R97). -/
noncomputable def Enc.sxor : Row := ⟨32, [.fix 1 0, .op 4, .op 4, .fix 7 120, .op 4, .fix 12 5], fun
  | [a, d, b] => some (.sxor (Fin.ofNat 16 b) (Fin.ofNat 16 d) (Fin.ofNat 16 a))
  | _ => none⟩

/-- SSHL (R97). -/
noncomputable def Enc.sshl : Row := ⟨32, [.fix 1 0, .op 4, .op 4, .fix 7 120, .op 4, .fix 12 6], fun
  | [a, d, b] => some (.sshl (Fin.ofNat 16 b) (Fin.ofNat 16 d) (Fin.ofNat 16 a))
  | _ => none⟩

/-- SSHR (R97). -/
noncomputable def Enc.sshr : Row := ⟨32, [.fix 1 0, .op 4, .op 4, .fix 7 120, .op 4, .fix 12 7], fun
  | [a, d, b] => some (.sshr (Fin.ofNat 16 b) (Fin.ofNat 16 d) (Fin.ofNat 16 a))
  | _ => none⟩

/-- SADDI (R98). -/
noncomputable def Enc.saddi : Row := ⟨32, [.fix 1 0, .op 4, .op 4, .fix 11 121, .op 12], fun
  | [a, d, i] => some (.saddi (BitVec.ofNat 12 i) (Fin.ofNat 16 d) (Fin.ofNat 16 a))
  | _ => none⟩

/-- SLI (R98). -/
noncomputable def Enc.sli : Row := ⟨32, [.fix 1 0, .op 2, .fix 2 0, .op 4, .fix 7 122, .op 16], fun
  | [k, d, i] => some (.sli (BitVec.ofNat 16 i) (Fin.ofNat 16 d) (Fin.ofNat 4 k))
  | _ => none⟩

/-- SBR (R99). -/
noncomputable def Enc.sbr : Row := ⟨32, [.fix 1 0, .op 4, .op 4, .fix 7 123, .op 4, .op 12], fun
  | [a, c, b, i] => (SbrCond.ofCode? c).bind fun c' => some (.sbr (BitVec.ofNat 12 i) (Fin.ofNat 16 b) c' (Fin.ofNat 16 a))
  | _ => none⟩

/-- SHALT (R100). -/
noncomputable def Enc.shalt : Row := ⟨32, [.fix 32 63488], fun
  | [] => some .shalt
  | _ => none⟩

/-- SNOP (R100). -/
noncomputable def Enc.snop : Row := ⟨32, [.fix 32 1112064], fun
  | [] => some .snop
  | _ => none⟩

/-- SKINC (R100). -/
noncomputable def Enc.skinc : Row := ⟨32, [.fix 1 0, .op 8, .fix 15 4220, .op 5, .fix 3 0], fun
  | [n, k] => some (.skinc (Fin.ofNat 32 k) (BitVec.ofNat 8 n))
  | _ => none⟩

/-- SKINC_REG (R100). -/
noncomputable def Enc.skincReg : Row := ⟨32, [.fix 1 0, .op 4, .fix 19 67520, .op 5, .fix 3 1], fun
  | [a, k] => some (.skincReg (Fin.ofNat 32 k) (Fin.ofNat 16 a))
  | _ => none⟩

/-- SKWAIT (R100). -/
noncomputable def Enc.skwait : Row := ⟨32, [.fix 1 0, .op 8, .fix 15 6268, .op 5, .fix 3 0], fun
  | [n, k] => some (.skwait (Fin.ofNat 32 k) (BitVec.ofNat 8 n))
  | _ => none⟩

/-- SKWAIT_REG (R100). -/
noncomputable def Enc.skwaitReg : Row := ⟨32, [.fix 1 0, .op 4, .fix 19 100288, .op 5, .fix 3 1], fun
  | [a, k] => some (.skwaitReg (Fin.ofNat 32 k) (Fin.ofNat 16 a))
  | _ => none⟩

/-- SMFS (R101). -/
noncomputable def Enc.smfs : Row := ⟨32, [.fix 5 0, .op 4, .fix 15 125, .op 8], fun
  | [d, s] => some (.smfs (BitVec.ofNat 8 s) (Fin.ofNat 16 d))
  | _ => none⟩

/-- SMTS (R101). -/
noncomputable def Enc.smts : Row := ⟨32, [.fix 1 0, .op 4, .fix 19 34768, .op 8], fun
  | [a, s] => some (.smts (BitVec.ofNat 8 s) (Fin.ofNat 16 a))
  | _ => none⟩

/-- VFADD (R155). -/
noncomputable def Enc.vfadd : Row := ⟨32, [.fix 4 0, .op 5, .fix 7 64, .op 5, .op 5, .op 3, .op 3], fun
  | [d, a, b, m, f] => (VFmt.ofCode? f).bind fun f' => some (.vfadd f' (Fin.ofNat 8 m) (Fin.ofNat 32 b) (Fin.ofNat 32 a) (Fin.ofNat 32 d))
  | _ => none⟩

/-- VFSUB (R155). -/
noncomputable def Enc.vfsub : Row := ⟨32, [.fix 4 1, .op 5, .fix 7 64, .op 5, .op 5, .op 3, .op 3], fun
  | [d, a, b, m, f] => (VFmt.ofCode? f).bind fun f' => some (.vfsub f' (Fin.ofNat 8 m) (Fin.ofNat 32 b) (Fin.ofNat 32 a) (Fin.ofNat 32 d))
  | _ => none⟩

/-- VFMUL (R155). -/
noncomputable def Enc.vfmul : Row := ⟨32, [.fix 4 2, .op 5, .fix 7 64, .op 5, .op 5, .op 3, .op 3], fun
  | [d, a, b, m, f] => (VFmt.ofCode? f).bind fun f' => some (.vfmul f' (Fin.ofNat 8 m) (Fin.ofNat 32 b) (Fin.ofNat 32 a) (Fin.ofNat 32 d))
  | _ => none⟩

/-- VFMIN (R155). -/
noncomputable def Enc.vfmin : Row := ⟨32, [.fix 4 3, .op 5, .fix 7 64, .op 5, .op 5, .op 3, .op 3], fun
  | [d, a, b, m, f] => (VFmt.ofCode? f).bind fun f' => some (.vfmin f' (Fin.ofNat 8 m) (Fin.ofNat 32 b) (Fin.ofNat 32 a) (Fin.ofNat 32 d))
  | _ => none⟩

/-- VFMAX (R155). -/
noncomputable def Enc.vfmax : Row := ⟨32, [.fix 4 4, .op 5, .fix 7 64, .op 5, .op 5, .op 3, .op 3], fun
  | [d, a, b, m, f] => (VFmt.ofCode? f).bind fun f' => some (.vfmax f' (Fin.ofNat 8 m) (Fin.ofNat 32 b) (Fin.ofNat 32 a) (Fin.ofNat 32 d))
  | _ => none⟩

/-- VFDIV (R155). -/
noncomputable def Enc.vfdiv : Row := ⟨32, [.fix 4 5, .op 5, .fix 7 64, .op 5, .op 5, .op 3, .op 3], fun
  | [d, a, b, m, f] => (VFmt.ofCode? f).bind fun f' => some (.vfdiv f' (Fin.ofNat 8 m) (Fin.ofNat 32 b) (Fin.ofNat 32 a) (Fin.ofNat 32 d))
  | _ => none⟩

/-- VFSQRT (R155). -/
noncomputable def Enc.vfsqrt : Row := ⟨32, [.fix 4 6, .op 5, .fix 7 64, .op 5, .fix 5 0, .op 3, .op 3], fun
  | [d, a, m, f] => (VFmt.ofCode? f).bind fun f' => some (.vfsqrt f' (Fin.ofNat 8 m) (Fin.ofNat 32 a) (Fin.ofNat 32 d))
  | _ => none⟩

/-- VFABS (R155). -/
noncomputable def Enc.vfabs : Row := ⟨32, [.fix 4 7, .op 5, .fix 7 64, .op 5, .fix 5 0, .op 3, .op 3], fun
  | [d, a, m, f] => (VFmt.ofCode? f).bind fun f' => some (.vfabs f' (Fin.ofNat 8 m) (Fin.ofNat 32 a) (Fin.ofNat 32 d))
  | _ => none⟩

/-- VFNEG (R155). -/
noncomputable def Enc.vfneg : Row := ⟨32, [.fix 4 8, .op 5, .fix 7 64, .op 5, .fix 5 0, .op 3, .op 3], fun
  | [d, a, m, f] => (VFmt.ofCode? f).bind fun f' => some (.vfneg f' (Fin.ofNat 8 m) (Fin.ofNat 32 a) (Fin.ofNat 32 d))
  | _ => none⟩

/-- VFCPYS (R155). -/
noncomputable def Enc.vfcpys : Row := ⟨32, [.fix 4 9, .op 5, .fix 7 64, .op 5, .op 5, .op 3, .op 3], fun
  | [d, a, b, m, f] => (VFmt.ofCode? f).bind fun f' => some (.vfcpys f' (Fin.ofNat 8 m) (Fin.ofNat 32 b) (Fin.ofNat 32 a) (Fin.ofNat 32 d))
  | _ => none⟩

/-- VFMA (R156). -/
noncomputable def Enc.vfma : Row := ⟨32, [.fix 4 0, .op 5, .fix 7 65, .op 5, .op 5, .op 3, .op 3], fun
  | [d, a, b, m, f] => (VFmt.ofCode? f).bind fun f' => some (.vfma f' (Fin.ofNat 8 m) (Fin.ofNat 32 b) (Fin.ofNat 32 a) (Fin.ofNat 32 d))
  | _ => none⟩

/-- VFMS (R156). -/
noncomputable def Enc.vfms : Row := ⟨32, [.fix 4 1, .op 5, .fix 7 65, .op 5, .op 5, .op 3, .op 3], fun
  | [d, a, b, m, f] => (VFmt.ofCode? f).bind fun f' => some (.vfms f' (Fin.ofNat 8 m) (Fin.ofNat 32 b) (Fin.ofNat 32 a) (Fin.ofNat 32 d))
  | _ => none⟩

/-- VFNMA (R156). -/
noncomputable def Enc.vfnma : Row := ⟨32, [.fix 4 2, .op 5, .fix 7 65, .op 5, .op 5, .op 3, .op 3], fun
  | [d, a, b, m, f] => (VFmt.ofCode? f).bind fun f' => some (.vfnma f' (Fin.ofNat 8 m) (Fin.ofNat 32 b) (Fin.ofNat 32 a) (Fin.ofNat 32 d))
  | _ => none⟩

/-- VEXP2 (R157). -/
noncomputable def Enc.vexp2 : Row := ⟨32, [.fix 4 0, .op 5, .fix 7 66, .op 5, .fix 5 0, .op 3, .fix 3 0], fun
  | [d, a, m] => some (.vexp2 (Fin.ofNat 8 m) (Fin.ofNat 32 a) (Fin.ofNat 32 d))
  | _ => none⟩

/-- VLOG2 (R157). -/
noncomputable def Enc.vlog2 : Row := ⟨32, [.fix 4 1, .op 5, .fix 7 66, .op 5, .fix 5 0, .op 3, .fix 3 0], fun
  | [d, a, m] => some (.vlog2 (Fin.ofNat 8 m) (Fin.ofNat 32 a) (Fin.ofNat 32 d))
  | _ => none⟩

/-- VRCP (R157). -/
noncomputable def Enc.vrcp : Row := ⟨32, [.fix 4 2, .op 5, .fix 7 66, .op 5, .fix 5 0, .op 3, .fix 3 0], fun
  | [d, a, m] => some (.vrcp (Fin.ofNat 8 m) (Fin.ofNat 32 a) (Fin.ofNat 32 d))
  | _ => none⟩

/-- VRSQRT (R157). -/
noncomputable def Enc.vrsqrt : Row := ⟨32, [.fix 4 3, .op 5, .fix 7 66, .op 5, .fix 5 0, .op 3, .fix 3 0], fun
  | [d, a, m] => some (.vrsqrt (Fin.ofNat 8 m) (Fin.ofNat 32 a) (Fin.ofNat 32 d))
  | _ => none⟩

/-- VSINPI (R157). -/
noncomputable def Enc.vsinpi : Row := ⟨32, [.fix 4 4, .op 5, .fix 7 66, .op 5, .fix 5 0, .op 3, .fix 3 0], fun
  | [d, a, m] => some (.vsinpi (Fin.ofNat 8 m) (Fin.ofNat 32 a) (Fin.ofNat 32 d))
  | _ => none⟩

/-- VCOSPI (R157). -/
noncomputable def Enc.vcospi : Row := ⟨32, [.fix 4 5, .op 5, .fix 7 66, .op 5, .fix 5 0, .op 3, .fix 3 0], fun
  | [d, a, m] => some (.vcospi (Fin.ofNat 8 m) (Fin.ofNat 32 a) (Fin.ofNat 32 d))
  | _ => none⟩

/-- VTANH (R157). -/
noncomputable def Enc.vtanh : Row := ⟨32, [.fix 4 6, .op 5, .fix 7 66, .op 5, .fix 5 0, .op 3, .fix 3 0], fun
  | [d, a, m] => some (.vtanh (Fin.ofNat 8 m) (Fin.ofNat 32 a) (Fin.ofNat 32 d))
  | _ => none⟩

/-- VSIGM (R157). -/
noncomputable def Enc.vsigm : Row := ⟨32, [.fix 4 7, .op 5, .fix 7 66, .op 5, .fix 5 0, .op 3, .fix 3 0], fun
  | [d, a, m] => some (.vsigm (Fin.ofNat 8 m) (Fin.ofNat 32 a) (Fin.ofNat 32 d))
  | _ => none⟩

/-- VADD (R158). -/
noncomputable def Enc.vadd : Row := ⟨32, [.fix 4 0, .op 5, .fix 7 67, .op 5, .op 5, .op 3, .op 3], fun
  | [d, a, b, m, f] => (VFmt.ofCode? f).bind fun f' => some (.vadd f' (Fin.ofNat 8 m) (Fin.ofNat 32 b) (Fin.ofNat 32 a) (Fin.ofNat 32 d))
  | _ => none⟩

/-- VSUB (R158). -/
noncomputable def Enc.vsub : Row := ⟨32, [.fix 4 1, .op 5, .fix 7 67, .op 5, .op 5, .op 3, .op 3], fun
  | [d, a, b, m, f] => (VFmt.ofCode? f).bind fun f' => some (.vsub f' (Fin.ofNat 8 m) (Fin.ofNat 32 b) (Fin.ofNat 32 a) (Fin.ofNat 32 d))
  | _ => none⟩

/-- VMUL (R158). -/
noncomputable def Enc.vmul : Row := ⟨32, [.fix 4 2, .op 5, .fix 7 67, .op 5, .op 5, .op 3, .op 3], fun
  | [d, a, b, m, f] => (VFmt.ofCode? f).bind fun f' => some (.vmul f' (Fin.ofNat 8 m) (Fin.ofNat 32 b) (Fin.ofNat 32 a) (Fin.ofNat 32 d))
  | _ => none⟩

/-- VMULH (R158). -/
noncomputable def Enc.vmulh : Row := ⟨32, [.fix 4 3, .op 5, .fix 7 67, .op 5, .op 5, .op 3, .op 3], fun
  | [d, a, b, m, f] => (VFmt.ofCode? f).bind fun f' => some (.vmulh f' (Fin.ofNat 8 m) (Fin.ofNat 32 b) (Fin.ofNat 32 a) (Fin.ofNat 32 d))
  | _ => none⟩

/-- VAND (R158). -/
noncomputable def Enc.vand : Row := ⟨32, [.fix 4 4, .op 5, .fix 7 67, .op 5, .op 5, .op 3, .op 3], fun
  | [d, a, b, m, f] => (VFmt.ofCode? f).bind fun f' => some (.vand f' (Fin.ofNat 8 m) (Fin.ofNat 32 b) (Fin.ofNat 32 a) (Fin.ofNat 32 d))
  | _ => none⟩

/-- VOR (R158). -/
noncomputable def Enc.vor : Row := ⟨32, [.fix 4 5, .op 5, .fix 7 67, .op 5, .op 5, .op 3, .op 3], fun
  | [d, a, b, m, f] => (VFmt.ofCode? f).bind fun f' => some (.vor f' (Fin.ofNat 8 m) (Fin.ofNat 32 b) (Fin.ofNat 32 a) (Fin.ofNat 32 d))
  | _ => none⟩

/-- VXOR (R158). -/
noncomputable def Enc.vxor : Row := ⟨32, [.fix 4 6, .op 5, .fix 7 67, .op 5, .op 5, .op 3, .op 3], fun
  | [d, a, b, m, f] => (VFmt.ofCode? f).bind fun f' => some (.vxor f' (Fin.ofNat 8 m) (Fin.ofNat 32 b) (Fin.ofNat 32 a) (Fin.ofNat 32 d))
  | _ => none⟩

/-- VSHL (R158). -/
noncomputable def Enc.vshl : Row := ⟨32, [.fix 4 7, .op 5, .fix 7 67, .op 5, .op 5, .op 3, .op 3], fun
  | [d, a, b, m, f] => (VFmt.ofCode? f).bind fun f' => some (.vshl f' (Fin.ofNat 8 m) (Fin.ofNat 32 b) (Fin.ofNat 32 a) (Fin.ofNat 32 d))
  | _ => none⟩

/-- VSHR (R158). -/
noncomputable def Enc.vshr : Row := ⟨32, [.fix 4 8, .op 5, .fix 7 67, .op 5, .op 5, .op 3, .op 3], fun
  | [d, a, b, m, f] => (VFmt.ofCode? f).bind fun f' => some (.vshr f' (Fin.ofNat 8 m) (Fin.ofNat 32 b) (Fin.ofNat 32 a) (Fin.ofNat 32 d))
  | _ => none⟩

/-- VSRA (R158). -/
noncomputable def Enc.vsra : Row := ⟨32, [.fix 4 9, .op 5, .fix 7 67, .op 5, .op 5, .op 3, .op 3], fun
  | [d, a, b, m, f] => (VFmt.ofCode? f).bind fun f' => some (.vsra f' (Fin.ofNat 8 m) (Fin.ofNat 32 b) (Fin.ofNat 32 a) (Fin.ofNat 32 d))
  | _ => none⟩

/-- VMIN (R158). -/
noncomputable def Enc.vmin : Row := ⟨32, [.fix 4 10, .op 5, .fix 7 67, .op 5, .op 5, .op 3, .op 3], fun
  | [d, a, b, m, f] => (VFmt.ofCode? f).bind fun f' => some (.vmin f' (Fin.ofNat 8 m) (Fin.ofNat 32 b) (Fin.ofNat 32 a) (Fin.ofNat 32 d))
  | _ => none⟩

/-- VMAX (R158). -/
noncomputable def Enc.vmax : Row := ⟨32, [.fix 4 11, .op 5, .fix 7 67, .op 5, .op 5, .op 3, .op 3], fun
  | [d, a, b, m, f] => (VFmt.ofCode? f).bind fun f' => some (.vmax f' (Fin.ofNat 8 m) (Fin.ofNat 32 b) (Fin.ofNat 32 a) (Fin.ofNat 32 d))
  | _ => none⟩

/-- VABS (R158). -/
noncomputable def Enc.vabs : Row := ⟨32, [.fix 4 12, .op 5, .fix 7 67, .op 5, .fix 5 0, .op 3, .op 3], fun
  | [d, a, m, f] => (VFmt.ofCode? f).bind fun f' => some (.vabs f' (Fin.ofNat 8 m) (Fin.ofNat 32 a) (Fin.ofNat 32 d))
  | _ => none⟩

/-- VCMP (R159). -/
noncomputable def Enc.vcmp : Row := ⟨32, [.op 4, .op 3, .fix 9 272, .op 5, .op 5, .op 3, .op 3], fun
  | [c, d, a, b, m, f] => (VFmt.ofCode? f).bind fun f' => (VCond.ofCode? c).bind fun c' => some (.vcmp f' (Fin.ofNat 8 m) (Fin.ofNat 32 b) (Fin.ofNat 32 a) (Fin.ofNat 8 d) c')
  | _ => none⟩

/-- VCVT (R160). -/
noncomputable def Enc.vcvt : Row := ⟨32, [.op 4, .op 5, .fix 7 69, .op 5, .op 4, .op 1, .op 3, .op 3], fun
  | [f, v, a, o, t, m, s] => (Fmt.ofCode? (t * 8 + s)).bind fun src => (Fmt.ofCode? o).bind fun dst => (RMode.ofCode? (f % 8)).bind fun mode => some (.vcvt src dst mode (Nat.beq (f / 8) 1) (Fin.ofNat 8 m) (Fin.ofNat 32 a) (Fin.ofNat 32 v))
  | _ => none⟩

/-- VQCVT (R161). -/
noncomputable def Enc.vqcvt : Row := ⟨32, [.fix 4 0, .op 5, .fix 7 70, .op 5, .op 5, .op 3, .op 3], fun
  | [d, a, b, m, r] => (RMode.ofCode? r).bind fun r' => some (.vqcvt r' (Fin.ofNat 8 m) (Fin.ofNat 32 b) (Fin.ofNat 32 a) (Fin.ofNat 32 d))
  | _ => none⟩

/-- VQADD (R161). -/
noncomputable def Enc.vqadd : Row := ⟨32, [.fix 4 1, .op 5, .fix 7 70, .op 5, .op 5, .op 3, .fix 3 7], fun
  | [d, a, b, m] => some (.vqadd (Fin.ofNat 8 m) (Fin.ofNat 32 b) (Fin.ofNat 32 a) (Fin.ofNat 32 d))
  | _ => none⟩

/-- VQSUB (R161). -/
noncomputable def Enc.vqsub : Row := ⟨32, [.fix 4 2, .op 5, .fix 7 70, .op 5, .op 5, .op 3, .fix 3 7], fun
  | [d, a, b, m] => some (.vqsub (Fin.ofNat 8 m) (Fin.ofNat 32 b) (Fin.ofNat 32 a) (Fin.ofNat 32 d))
  | _ => none⟩

/-- VQTOF (R161). -/
noncomputable def Enc.vqtof : Row := ⟨32, [.fix 4 3, .op 5, .fix 7 70, .op 5, .op 5, .op 3, .op 3], fun
  | [d, a, b, m, r] => (RMode.ofCode? r).bind fun r' => some (.vqtof r' (Fin.ofNat 8 m) (Fin.ofNat 32 b) (Fin.ofNat 32 a) (Fin.ofNat 32 d))
  | _ => none⟩

/-- VSCLF (R162). -/
noncomputable def Enc.vsclf : Row := ⟨32, [.fix 4 0, .op 5, .fix 7 71, .op 5, .op 4, .fix 1 0, .op 3, .fix 3 0], fun
  | [d, a, e, m] => (MxFmt.ofCode? e).bind fun e' => some (.vsclf (Fin.ofNat 8 m) e' (Fin.ofNat 32 a) (Fin.ofNat 32 d))
  | _ => none⟩

/-- VSCLA (R163). -/
noncomputable def Enc.vscla : Row := ⟨32, [.fix 4 1, .op 5, .fix 7 71, .op 5, .op 5, .op 3, .fix 3 0], fun
  | [d, a, b, m] => some (.vscla (Fin.ofNat 8 m) (Fin.ofNat 32 b) (Fin.ofNat 32 a) (Fin.ofNat 32 d))
  | _ => none⟩

/-- VREDSUM (R164). -/
noncomputable def Enc.vredsum : Row := ⟨32, [.fix 4 0, .op 4, .fix 8 144, .op 5, .fix 5 0, .op 3, .op 3], fun
  | [d, a, m, f] => (VFmt.ofCode? f).bind fun f' => some (.vredsum f' (Fin.ofNat 8 m) (Fin.ofNat 32 a) (Fin.ofNat 16 d))
  | _ => none⟩

/-- VREDMAX (R164). -/
noncomputable def Enc.vredmax : Row := ⟨32, [.fix 4 1, .op 4, .fix 8 144, .op 5, .fix 5 0, .op 3, .op 3], fun
  | [d, a, m, f] => (VFmt.ofCode? f).bind fun f' => some (.vredmax f' (Fin.ofNat 8 m) (Fin.ofNat 32 a) (Fin.ofNat 16 d))
  | _ => none⟩

/-- VREDMIN (R164). -/
noncomputable def Enc.vredmin : Row := ⟨32, [.fix 4 2, .op 4, .fix 8 144, .op 5, .fix 5 0, .op 3, .op 3], fun
  | [d, a, m, f] => (VFmt.ofCode? f).bind fun f' => some (.vredmin f' (Fin.ofNat 8 m) (Fin.ofNat 32 a) (Fin.ofNat 16 d))
  | _ => none⟩

/-- VARGMAX (R164). -/
noncomputable def Enc.vargmax : Row := ⟨32, [.fix 4 3, .op 4, .fix 8 144, .op 5, .fix 5 0, .op 3, .op 3], fun
  | [d, a, m, f] => (VFmt.ofCode? f).bind fun f' => some (.vargmax f' (Fin.ofNat 8 m) (Fin.ofNat 32 a) (Fin.ofNat 16 d))
  | _ => none⟩

/-- VARGMIN (R164). -/
noncomputable def Enc.vargmin : Row := ⟨32, [.fix 4 4, .op 4, .fix 8 144, .op 5, .fix 5 0, .op 3, .op 3], fun
  | [d, a, m, f] => (VFmt.ofCode? f).bind fun f' => some (.vargmin f' (Fin.ofNat 8 m) (Fin.ofNat 32 a) (Fin.ofNat 16 d))
  | _ => none⟩

/-- VSCAN (R165). -/
noncomputable def Enc.vscan : Row := ⟨32, [.fix 4 0, .op 5, .fix 7 73, .op 5, .fix 5 0, .op 3, .op 3], fun
  | [d, a, m, f] => (VFmt.ofCode? f).bind fun f' => some (.vscan f' (Fin.ofNat 8 m) (Fin.ofNat 32 a) (Fin.ofNat 32 d))
  | _ => none⟩

/-- VSCANX (R165). -/
noncomputable def Enc.vscanx : Row := ⟨32, [.fix 4 1, .op 5, .fix 7 73, .op 5, .fix 5 0, .op 3, .op 3], fun
  | [d, a, m, f] => (VFmt.ofCode? f).bind fun f' => some (.vscanx f' (Fin.ofNat 8 m) (Fin.ofNat 32 a) (Fin.ofNat 32 d))
  | _ => none⟩

/-- VPERM (R166). -/
noncomputable def Enc.vperm : Row := ⟨32, [.fix 4 0, .op 5, .fix 7 74, .op 5, .op 5, .op 3, .fix 3 0], fun
  | [d, a, b, m] => some (.vperm (Fin.ofNat 8 m) (Fin.ofNat 32 b) (Fin.ofNat 32 a) (Fin.ofNat 32 d))
  | _ => none⟩

/-- VSLDU (R166). -/
noncomputable def Enc.vsldu : Row := ⟨32, [.fix 4 1, .op 5, .fix 7 74, .op 5, .op 5, .op 3, .op 3], fun
  | [d, a, b, m, f] => (VFmt.ofCode? f).bind fun f' => some (.vsldu f' (Fin.ofNat 8 m) (Fin.ofNat 32 b) (Fin.ofNat 32 a) (Fin.ofNat 32 d))
  | _ => none⟩

/-- VSLDD (R166). -/
noncomputable def Enc.vsldd : Row := ⟨32, [.fix 4 2, .op 5, .fix 7 74, .op 5, .op 5, .op 3, .op 3], fun
  | [d, a, b, m, f] => (VFmt.ofCode? f).bind fun f' => some (.vsldd f' (Fin.ofNat 8 m) (Fin.ofNat 32 b) (Fin.ofNat 32 a) (Fin.ofNat 32 d))
  | _ => none⟩

/-- VBCST (R166). -/
noncomputable def Enc.vbcst : Row := ⟨32, [.fix 4 3, .op 5, .fix 7 74, .op 4, .fix 6 0, .op 3, .op 3], fun
  | [d, a, m, f] => (VFmt.ofCode? f).bind fun f' => some (.vbcst f' (Fin.ofNat 8 m) (Fin.ofNat 16 a) (Fin.ofNat 32 d))
  | _ => none⟩

/-- VSEL (R166). -/
noncomputable def Enc.vsel : Row := ⟨32, [.fix 4 4, .op 5, .fix 7 74, .op 5, .op 5, .op 3, .op 3], fun
  | [d, a, b, m, f] => (VFmt.ofCode? f).bind fun f' => some (.vsel f' (Fin.ofNat 8 m) (Fin.ofNat 32 b) (Fin.ofNat 32 a) (Fin.ofNat 32 d))
  | _ => none⟩

/-- VCMPRS (R166). -/
noncomputable def Enc.vcmprs : Row := ⟨32, [.fix 4 5, .op 5, .fix 7 74, .op 5, .fix 5 0, .op 3, .op 3], fun
  | [d, a, m, f] => (VFmt.ofCode? f).bind fun f' => some (.vcmprs f' (Fin.ofNat 8 m) (Fin.ofNat 32 a) (Fin.ofNat 32 d))
  | _ => none⟩

/-- VEXPND (R166). -/
noncomputable def Enc.vexpnd : Row := ⟨32, [.fix 4 6, .op 5, .fix 7 74, .op 5, .fix 5 0, .op 3, .op 3], fun
  | [d, a, m, f] => (VFmt.ofCode? f).bind fun f' => some (.vexpnd f' (Fin.ofNat 8 m) (Fin.ofNat 32 a) (Fin.ofNat 32 d))
  | _ => none⟩

/-- VMOV (R166). -/
noncomputable def Enc.vmov : Row := ⟨32, [.fix 4 7, .op 5, .fix 7 74, .op 5, .fix 5 0, .op 3, .op 3], fun
  | [d, a, m, f] => (VFmt.ofCode? f).bind fun f' => some (.vmov f' (Fin.ofNat 8 m) (Fin.ofNat 32 a) (Fin.ofNat 32 d))
  | _ => none⟩

/-- MAND (R167). -/
noncomputable def Enc.mand : Row := ⟨32, [.fix 4 0, .op 3, .fix 9 300, .op 3, .fix 2 0, .op 3, .fix 5 0, .op 3], fun
  | [d, a, b, f] => (VFmt.ofCode? f).bind fun f' => some (.mand f' (Fin.ofNat 8 b) (Fin.ofNat 8 a) (Fin.ofNat 8 d))
  | _ => none⟩

/-- MOR (R167). -/
noncomputable def Enc.mor : Row := ⟨32, [.fix 4 1, .op 3, .fix 9 300, .op 3, .fix 2 0, .op 3, .fix 5 0, .op 3], fun
  | [d, a, b, f] => (VFmt.ofCode? f).bind fun f' => some (.mor f' (Fin.ofNat 8 b) (Fin.ofNat 8 a) (Fin.ofNat 8 d))
  | _ => none⟩

/-- MXOR (R167). -/
noncomputable def Enc.mxor : Row := ⟨32, [.fix 4 2, .op 3, .fix 9 300, .op 3, .fix 2 0, .op 3, .fix 5 0, .op 3], fun
  | [d, a, b, f] => (VFmt.ofCode? f).bind fun f' => some (.mxor f' (Fin.ofNat 8 b) (Fin.ofNat 8 a) (Fin.ofNat 8 d))
  | _ => none⟩

/-- MNOT (R167). -/
noncomputable def Enc.mnot : Row := ⟨32, [.fix 4 3, .op 3, .fix 9 300, .op 3, .fix 10 0, .op 3], fun
  | [d, a, f] => (VFmt.ofCode? f).bind fun f' => some (.mnot f' (Fin.ofNat 8 a) (Fin.ofNat 8 d))
  | _ => none⟩

/-- MPOP (R167). -/
noncomputable def Enc.mpop : Row := ⟨32, [.fix 4 4, .op 4, .fix 8 150, .op 3, .fix 10 0, .op 3], fun
  | [d, a, f] => (VFmt.ofCode? f).bind fun f' => some (.mpop f' (Fin.ofNat 8 a) (Fin.ofNat 16 d))
  | _ => none⟩

/-- MSET (R167). -/
noncomputable def Enc.mset : Row := ⟨32, [.fix 4 5, .op 3, .fix 9 300, .op 4, .fix 9 0, .op 3], fun
  | [d, a, f] => (VFmt.ofCode? f).bind fun f' => some (.mset f' (Fin.ofNat 16 a) (Fin.ofNat 8 d))
  | _ => none⟩

/-- MFIRST (R167). -/
noncomputable def Enc.mfirst : Row := ⟨32, [.fix 4 6, .op 4, .fix 8 150, .op 3, .fix 10 0, .op 3], fun
  | [d, a, f] => (VFmt.ofCode? f).bind fun f' => some (.mfirst f' (Fin.ofNat 8 a) (Fin.ofNat 16 d))
  | _ => none⟩

/-- VLD (R168). -/
noncomputable def Enc.vld : Row := ⟨32, [.fix 4 0, .op 5, .fix 7 76, .op 4, .op 3, .op 9], fun
  | [v, e, m, i] => some (.vld (BitVec.ofNat 9 i) (Fin.ofNat 8 m) (Fin.ofNat 16 e) (Fin.ofNat 32 v))
  | _ => none⟩

/-- VST (R168). -/
noncomputable def Enc.vst : Row := ⟨32, [.fix 4 1, .op 5, .fix 7 76, .op 4, .op 3, .op 9], fun
  | [v, e, m, i] => some (.vst (BitVec.ofNat 9 i) (Fin.ofNat 8 m) (Fin.ofNat 16 e) (Fin.ofNat 32 v))
  | _ => none⟩

/-- VLDS (R168). -/
noncomputable def Enc.vlds : Row := ⟨32, [.fix 4 2, .op 5, .fix 7 76, .op 4, .op 3, .op 4, .fix 5 0], fun
  | [v, e, m, s] => some (.vlds (Fin.ofNat 16 s) (Fin.ofNat 8 m) (Fin.ofNat 16 e) (Fin.ofNat 32 v))
  | _ => none⟩

/-- VSTS (R168). -/
noncomputable def Enc.vsts : Row := ⟨32, [.fix 4 3, .op 5, .fix 7 76, .op 4, .op 3, .op 4, .fix 5 0], fun
  | [v, e, m, s] => some (.vsts (Fin.ofNat 16 s) (Fin.ofNat 8 m) (Fin.ofNat 16 e) (Fin.ofNat 32 v))
  | _ => none⟩

/-- VLDX (R168). -/
noncomputable def Enc.vldx : Row := ⟨32, [.fix 4 4, .op 5, .fix 7 76, .op 4, .op 3, .op 4, .fix 5 0], fun
  | [v, e, m, x] => some (.vldx (Fin.ofNat 16 x) (Fin.ofNat 8 m) (Fin.ofNat 16 e) (Fin.ofNat 32 v))
  | _ => none⟩

/-- VSTX (R168). -/
noncomputable def Enc.vstx : Row := ⟨32, [.fix 4 5, .op 5, .fix 7 76, .op 4, .op 3, .op 4, .fix 5 0], fun
  | [v, e, m, x] => some (.vstx (Fin.ofNat 16 x) (Fin.ofNat 8 m) (Fin.ofNat 16 e) (Fin.ofNat 32 v))
  | _ => none⟩

/-- VLDZ (R172). -/
noncomputable def Enc.vldz : Row := ⟨32, [.fix 4 0, .op 5, .fix 7 77, .op 3, .fix 2 0, .op 5, .op 3, .fix 3 0], fun
  | [d, t, p, m] => some (.vldz (Fin.ofNat 8 m) (Fin.ofNat 32 p) (Fin.ofNat 8 t) (Fin.ofNat 32 d))
  | _ => none⟩

/-- VSTZ (R172). -/
noncomputable def Enc.vstz : Row := ⟨32, [.fix 4 1, .op 5, .fix 7 77, .op 3, .fix 2 0, .op 5, .op 3, .fix 3 0], fun
  | [s, t, p, m] => some (.vstz (Fin.ofNat 8 m) (Fin.ofNat 32 p) (Fin.ofNat 8 t) (Fin.ofNat 32 s))
  | _ => none⟩

/-- VMRG_KZ (R174). -/
noncomputable def Enc.vmrgKz : Row := ⟨32, [.fix 4 0, .op 5, .fix 7 78, .op 5, .op 5, .fix 3 0, .op 3], fun
  | [d, a, b, f] => (VFmt.ofCode? f).bind fun f' => some (.vmrgKz f' (Fin.ofNat 32 b) (Fin.ofNat 32 a) (Fin.ofNat 32 d))
  | _ => none⟩

/-- VMRG_DZ (R174). -/
noncomputable def Enc.vmrgDz : Row := ⟨32, [.fix 4 1, .op 5, .fix 7 78, .op 5, .op 5, .fix 3 0, .op 3], fun
  | [d, a, b, f] => (VFmt.ofCode? f).bind fun f' => some (.vmrgDz f' (Fin.ofNat 32 b) (Fin.ofNat 32 a) (Fin.ofNat 32 d))
  | _ => none⟩

/-- VMRGC (R175). -/
noncomputable def Enc.vmrgc : Row := ⟨32, [.fix 4 2, .op 4, .op 1, .fix 7 78, .op 5, .op 5, .fix 3 0, .op 3], fun
  | [d, z, a, b, f] => (VFmt.ofCode? f).bind fun f' => some (.vmrgc f' (Fin.ofNat 32 b) (Fin.ofNat 32 a) (Nat.beq z 1) (Fin.ofNat 16 d))
  | _ => none⟩

/-- VSTRM (R177). -/
noncomputable def Enc.vstrm : Row := ⟨32, [.fix 4 0, .op 5, .fix 7 79, .op 4, .fix 12 0], fun
  | [d, a] => some (.vstrm (Fin.ofNat 16 a) (Fin.ofNat 32 d))
  | _ => none⟩

/-- VSTRMX (R179). -/
noncomputable def Enc.vstrmx : Row := ⟨32, [.fix 4 1, .op 5, .fix 23 79], fun
  | [d] => some (.vstrmx (Fin.ofNat 32 d))
  | _ => none⟩

/-- VFADD_C16 (R94). -/
noncomputable def Enc.vfaddC16 : Row := ⟨16, [.fix 2 0, .op 3, .op 3, .op 3, .fix 5 0], fun
  | [b, a, d] => some (.vfaddC16 (Fin.ofNat 8 d) (Fin.ofNat 8 a) (Fin.ofNat 8 b))
  | _ => none⟩

/-- VFMUL_C16 (R94). -/
noncomputable def Enc.vfmulC16 : Row := ⟨16, [.fix 2 0, .op 3, .op 3, .op 3, .fix 5 1], fun
  | [b, a, d] => some (.vfmulC16 (Fin.ofNat 8 d) (Fin.ofNat 8 a) (Fin.ofNat 8 b))
  | _ => none⟩

/-- VFMA_C16 (R94). -/
noncomputable def Enc.vfmaC16 : Row := ⟨16, [.fix 2 0, .op 3, .op 3, .op 3, .fix 5 2], fun
  | [b, a, d] => some (.vfmaC16 (Fin.ofNat 8 d) (Fin.ofNat 8 a) (Fin.ofNat 8 b))
  | _ => none⟩

/-- VADD_C16 (R94). -/
noncomputable def Enc.vaddC16 : Row := ⟨16, [.fix 2 0, .op 3, .op 3, .op 3, .fix 5 3], fun
  | [b, a, d] => some (.vaddC16 (Fin.ofNat 8 d) (Fin.ofNat 8 a) (Fin.ofNat 8 b))
  | _ => none⟩

/-- VMOV_C16 (R94). -/
noncomputable def Enc.vmovC16 : Row := ⟨16, [.fix 5 0, .op 3, .op 3, .fix 5 4], fun
  | [a, d] => some (.vmovC16 (Fin.ofNat 8 d) (Fin.ofNat 8 a))
  | _ => none⟩

/-- VLD_C16 (R94). -/
noncomputable def Enc.vldC16 : Row := ⟨16, [.op 5, .op 3, .op 3, .fix 5 5], fun
  | [i, a, d] => some (.vldC16 (Fin.ofNat 8 d) (Fin.ofNat 8 a) (BitVec.ofNat 5 i))
  | _ => none⟩

/-- VST_C16 (R94). -/
noncomputable def Enc.vstC16 : Row := ⟨16, [.op 5, .op 3, .op 3, .fix 5 6], fun
  | [i, a, d] => some (.vstC16 (Fin.ofNat 8 d) (Fin.ofNat 8 a) (BitVec.ofNat 5 i))
  | _ => none⟩

/-- SADDI_C16 (R94). -/
noncomputable def Enc.saddiC16 : Row := ⟨16, [.op 5, .op 3, .op 3, .fix 5 7], fun
  | [i, a, d] => some (.saddiC16 (Fin.ofNat 8 d) (Fin.ofNat 8 a) (BitVec.ofNat 5 i))
  | _ => none⟩

/-- SNOP_C16 (R94). -/
noncomputable def Enc.snopC16 : Row := ⟨16, [.fix 16 16384], fun
  | [] => some .snopC16
  | _ => none⟩

/-- SKINC_C16 (R94). -/
noncomputable def Enc.skincC16 : Row := ⟨16, [.op 5, .fix 11 576], fun
  | [k] => some (.skincC16 (Fin.ofNat 32 k))
  | _ => none⟩

/-- SKWAIT_C16 (R94). -/
noncomputable def Enc.skwaitC16 : Row := ⟨16, [.op 5, .fix 11 640], fun
  | [k] => some (.skwaitC16 (Fin.ofNat 32 k))
  | _ => none⟩

/-- MMA (R189). -/
noncomputable def Enc.mma : Row := ⟨32, [.fix 2 0, .op 4, .op 3, .fix 7 64, .op 4, .op 4, .op 1, .fix 7 0], fun
  | [a, z, b, c, l] => some (.mma (Nat.beq l 1) (Fin.ofNat 16 c) (Fin.ofNat 16 b) (Fin.ofNat 8 z) (Fin.ofNat 16 a))
  | _ => none⟩

/-- MMAC (R190). -/
noncomputable def Enc.mmac : Row := ⟨32, [.fix 2 0, .op 4, .op 3, .fix 7 65, .op 4, .op 4, .op 1, .op 2, .op 2, .fix 3 0], fun
  | [a, z, b, c, l, n, p] => some (.mmac (Fin.ofNat 4 p) (Fin.ofNat 4 n) (Nat.beq l 1) (Fin.ofNat 16 c) (Fin.ofNat 16 b) (Fin.ofNat 8 z) (Fin.ofNat 16 a))
  | _ => none⟩

/-- MMAS (R208). -/
noncomputable def Enc.mmas : Row := ⟨32, [.fix 2 0, .op 4, .op 3, .fix 7 66, .op 4, .fix 4 0, .op 1, .fix 7 0], fun
  | [a, z, b, l] => some (.mmas (Nat.beq l 1) (Fin.ofNat 16 b) (Fin.ofNat 8 z) (Fin.ofNat 16 a))
  | _ => none⟩

/-- MMA24 (R191). -/
noncomputable def Enc.mma24 : Row := ⟨32, [.fix 2 0, .op 4, .op 3, .fix 7 67, .op 4, .op 4, .op 1, .fix 7 0], fun
  | [a, z, b, c, l] => some (.mma24 (Nat.beq l 1) (Fin.ofNat 16 c) (Fin.ofNat 16 b) (Fin.ofNat 8 z) (Fin.ofNat 16 a))
  | _ => none⟩

/-- MMG (R194). -/
noncomputable def Enc.mmg : Row := ⟨32, [.fix 2 0, .op 4, .op 3, .fix 7 68, .op 4, .op 4, .fix 8 0], fun
  | [a, z, b, c] => some (.mmg (Fin.ofNat 16 c) (Fin.ofNat 16 b) (Fin.ofNat 8 z) (Fin.ofNat 16 a))
  | _ => none⟩

/-- MZERO (R195). -/
noncomputable def Enc.mzero : Row := ⟨32, [.fix 6 0, .op 3, .fix 23 69], fun
  | [z] => some (.mzero (Fin.ofNat 8 z))
  | _ => none⟩

/-- MZST (R197). -/
noncomputable def Enc.mzst : Row := ⟨32, [.fix 2 0, .op 4, .op 3, .fix 11 70, .op 4, .op 4, .op 3, .op 1], fun
  | [a, z, c, f, o, n] => (RMode.ofCode? o).bind fun o' => (Fmt.ofCode? f).bind fun f' => some (.mzst (Nat.beq n 1) o' f' (Fin.ofNat 16 c) (Fin.ofNat 8 z) (Fin.ofNat 16 a))
  | _ => none⟩

/-- MZST_CMAP (R198). -/
noncomputable def Enc.mzstCmap : Row := ⟨32, [.fix 2 1, .op 4, .op 3, .fix 7 70, .op 4, .op 4, .op 4, .op 3, .op 1], fun
  | [a, z, b, c, f, o, n] => (RMode.ofCode? o).bind fun o' => (Fmt.ofCode? f).bind fun f' => some (.mzstCmap (Nat.beq n 1) o' f' (Fin.ofNat 16 c) (Fin.ofNat 16 b) (Fin.ofNat 8 z) (Fin.ofNat 16 a))
  | _ => none⟩

/-- MZLD (R196). -/
noncomputable def Enc.mzld : Row := ⟨32, [.fix 2 0, .op 4, .op 3, .fix 23 71], fun
  | [a, z] => some (.mzld (Fin.ofNat 8 z) (Fin.ofNat 16 a))
  | _ => none⟩

/-- MCFG (R200). -/
noncomputable def Enc.mcfg : Row := ⟨32, [.fix 2 0, .op 4, .fix 26 576], fun
  | [a] => some (.mcfg (Fin.ofNat 16 a))
  | _ => none⟩

/-- MCFG_RD (R200). -/
noncomputable def Enc.mcfgRd : Row := ⟨32, [.fix 2 1, .op 4, .fix 26 576], fun
  | [a] => some (.mcfgRd (Fin.ofNat 16 a))
  | _ => none⟩

/-- MPROG (R201). -/
noncomputable def Enc.mprog : Row := ⟨32, [.fix 2 0, .op 4, .fix 26 584], fun
  | [a] => some (.mprog (Fin.ofNat 16 a))
  | _ => none⟩

/-- MXP_MOV (R199). -/
noncomputable def Enc.mxpMov : Row := ⟨32, [.fix 6 0, .op 3, .fix 15 74, .op 3, .fix 5 0], fun
  | [z, s] => some (.mxpMov (Fin.ofNat 8 s) (Fin.ofNat 8 z))
  | _ => none⟩

/-- MXP_TRN (R199). -/
noncomputable def Enc.mxpTrn : Row := ⟨32, [.fix 6 1, .op 3, .fix 15 74, .op 3, .fix 5 0], fun
  | [z, s] => some (.mxpTrn (Fin.ofNat 8 s) (Fin.ofNat 8 z))
  | _ => none⟩

/-- MXP_ADD (R199). -/
noncomputable def Enc.mxpAdd : Row := ⟨32, [.fix 6 2, .op 3, .fix 15 74, .op 3, .fix 5 0], fun
  | [z, s] => some (.mxpAdd (Fin.ofNat 8 s) (Fin.ofNat 8 z))
  | _ => none⟩

/-- MZPOI_RD (R200). -/
noncomputable def Enc.mzpoiRd : Row := ⟨32, [.fix 2 0, .op 4, .op 3, .fix 23 75], fun
  | [a, z] => some (.mzpoiRd (Fin.ofNat 8 z) (Fin.ofNat 16 a))
  | _ => none⟩

/-- MZPOI_WR (R200). -/
noncomputable def Enc.mzpoiWr : Row := ⟨32, [.fix 2 1, .op 4, .op 3, .fix 23 75], fun
  | [a, z] => some (.mzpoiWr (Fin.ofNat 8 z) (Fin.ofNat 16 a))
  | _ => none⟩

/-- MZPOI_OR (R200). -/
noncomputable def Enc.mzpoiOr : Row := ⟨32, [.fix 2 2, .op 4, .op 3, .fix 23 75], fun
  | [a, z] => some (.mzpoiOr (Fin.ofNat 8 z) (Fin.ofNat 16 a))
  | _ => none⟩

/-- MMA_C16 (R94). -/
noncomputable def Enc.mmaC16 : Row := ⟨16, [.op 4, .op 4, .op 3, .fix 5 0], fun
  | [b, a, z] => some (.mmaC16 (Fin.ofNat 8 z) (Fin.ofNat 16 a) (Fin.ofNat 16 b))
  | _ => none⟩

/-- MMA_CLR_C16 (R94). -/
noncomputable def Enc.mmaClrC16 : Row := ⟨16, [.op 4, .op 4, .op 3, .fix 5 1], fun
  | [b, a, z] => some (.mmaClrC16 (Fin.ofNat 8 z) (Fin.ofNat 16 a) (Fin.ofNat 16 b))
  | _ => none⟩

/-- MZERO_C16 (R94). -/
noncomputable def Enc.mzeroC16 : Row := ⟨16, [.fix 8 0, .op 3, .fix 5 2], fun
  | [z] => some (.mzeroC16 (Fin.ofNat 8 z))
  | _ => none⟩

/-- Part 0 of the 32-bit words of the S stream. -/
noncomputable def rowsS320 : List Row := [Enc.blk, Enc.add, Enc.sub, Enc.mul, Enc.mulh, Enc.mulhu, Enc.div, Enc.divu, Enc.rem, Enc.remu, Enc.and, Enc.or, Enc.xor, Enc.andn, Enc.shl, Enc.shr, Enc.sra, Enc.rol, Enc.min, Enc.max, Enc.minu, Enc.maxu, Enc.slt, Enc.sltu, Enc.seq, Enc.clz, Enc.ctz, Enc.popc, Enc.sext, Enc.zext, Enc.addi, Enc.andi, Enc.ori, Enc.xori, Enc.slti, Enc.sltiu, Enc.shli, Enc.shri, Enc.srai, Enc.roli]

/-- Part 1 of the 32-bit words of the S stream. -/
noncomputable def rowsS321 : List Row := [Enc.li, Enc.lik, Enc.j, Enc.jal, Enc.jr, Enc.jalr, Enc.beq, Enc.bne, Enc.blt, Enc.bge, Enc.bltu, Enc.bgeu, Enc.bz, Enc.bnz, Enc.ld, Enc.st, Enc.ldacq, Enc.strel, Enc.ldfeTake, Enc.ldfePeek, Enc.ldfeTag, Enc.stfePut, Enc.stfeForce, Enc.stfeClear, Enc.aadd, Enc.amin, Enc.amax, Enc.aminu, Enc.amaxu, Enc.aand, Enc.aor, Enc.axor, Enc.aswp, Enc.afadd, Enc.acas, Enc.amsend, Enc.amreply, Enc.deleg, Enc.spawn, Enc.pusht]

/-- Part 2 of the 32-bit words of the S stream. -/
noncomputable def rowsS322 : List Row := [Enc.tend, Enc.yield, Enc.fibid, Enc.forkv, Enc.forkm, Enc.kinc, Enc.kwait, Enc.kwaitn, Enc.kset, Enc.krd, Enc.fenceAcq, Enc.fenceRel, Enc.fenceAr, Enc.fenceSc, Enc.csend, Enc.crecv, Enc.cgrant, Enc.calt, Enc.cpyq, Enc.cpyqNb, Enc.cpya, Enc.cpycQ, Enc.cpycX, Enc.gath, Enc.scat, Enc.gateq, Enc.binput, Enc.exsend, Enc.expoll, Enc.cinj, Enc.cext, Enc.lease, Enc.lrel, Enc.lqry, Enc.cvtg, Enc.apt, Enc.cflush, Enc.cinv, Enc.pref, Enc.mfs]

/-- Part 3 of the 32-bit words of the S stream. -/
noncomputable def rowsS323 : List Row := [Enc.mtsRouter, Enc.mtsBinbase, Enc.mtsSeed, Enc.mtsTrappc, Enc.trap, Enc.brk, Enc.rtt, Enc.rttDrop, Enc.nop, Enc.mts]

/-- The 32-bit words of the S stream. -/
noncomputable def rowsS32 : List Row := rowsS320 ++ rowsS321 ++ rowsS322 ++ rowsS323

/-- Part 0 of the 16-bit words of the S stream. -/
noncomputable def rowsS160 : List Row := [Enc.movC16, Enc.addC16, Enc.subC16, Enc.andC16, Enc.orC16, Enc.xorC16, Enc.addiC16, Enc.shliC16, Enc.shriC16, Enc.liC16, Enc.lddC16, Enc.stdC16, Enc.bzC16, Enc.bnzC16, Enc.kincC16, Enc.kwaitC16, Enc.tendC16, Enc.yieldC16, Enc.nopC16]

/-- The 16-bit words of the S stream. -/
noncomputable def rowsS16 : List Row := rowsS160

/-- Part 0 of the 32-bit words of the V stream. -/
noncomputable def rowsV320 : List Row := [Enc.blk, Enc.tok, Enc.sadd, Enc.ssub, Enc.smul, Enc.sand, Enc.sor, Enc.sxor, Enc.sshl, Enc.sshr, Enc.saddi, Enc.sli, Enc.sbr, Enc.shalt, Enc.snop, Enc.skinc, Enc.skincReg, Enc.skwait, Enc.skwaitReg, Enc.smfs, Enc.smts, Enc.vfadd, Enc.vfsub, Enc.vfmul, Enc.vfmin, Enc.vfmax, Enc.vfdiv, Enc.vfsqrt, Enc.vfabs, Enc.vfneg, Enc.vfcpys, Enc.vfma, Enc.vfms, Enc.vfnma, Enc.vexp2, Enc.vlog2, Enc.vrcp, Enc.vrsqrt, Enc.vsinpi, Enc.vcospi]

/-- Part 1 of the 32-bit words of the V stream. -/
noncomputable def rowsV321 : List Row := [Enc.vtanh, Enc.vsigm, Enc.vadd, Enc.vsub, Enc.vmul, Enc.vmulh, Enc.vand, Enc.vor, Enc.vxor, Enc.vshl, Enc.vshr, Enc.vsra, Enc.vmin, Enc.vmax, Enc.vabs, Enc.vcmp, Enc.vcvt, Enc.vqcvt, Enc.vqadd, Enc.vqsub, Enc.vqtof, Enc.vsclf, Enc.vscla, Enc.vredsum, Enc.vredmax, Enc.vredmin, Enc.vargmax, Enc.vargmin, Enc.vscan, Enc.vscanx, Enc.vperm, Enc.vsldu, Enc.vsldd, Enc.vbcst, Enc.vsel, Enc.vcmprs, Enc.vexpnd, Enc.vmov, Enc.mand, Enc.mor]

/-- Part 2 of the 32-bit words of the V stream. -/
noncomputable def rowsV322 : List Row := [Enc.mxor, Enc.mnot, Enc.mpop, Enc.mset, Enc.mfirst, Enc.vld, Enc.vst, Enc.vlds, Enc.vsts, Enc.vldx, Enc.vstx, Enc.vldz, Enc.vstz, Enc.vmrgKz, Enc.vmrgDz, Enc.vmrgc, Enc.vstrm, Enc.vstrmx]

/-- The 32-bit words of the V stream. -/
noncomputable def rowsV32 : List Row := rowsV320 ++ rowsV321 ++ rowsV322

/-- Part 0 of the 16-bit words of the V stream. -/
noncomputable def rowsV160 : List Row := [Enc.vfaddC16, Enc.vfmulC16, Enc.vfmaC16, Enc.vaddC16, Enc.vmovC16, Enc.vldC16, Enc.vstC16, Enc.saddiC16, Enc.snopC16, Enc.skincC16, Enc.skwaitC16]

/-- The 16-bit words of the V stream. -/
noncomputable def rowsV16 : List Row := rowsV160

/-- Part 0 of the 32-bit words of the M stream. -/
noncomputable def rowsM320 : List Row := [Enc.blk, Enc.tok, Enc.sadd, Enc.ssub, Enc.smul, Enc.sand, Enc.sor, Enc.sxor, Enc.sshl, Enc.sshr, Enc.saddi, Enc.sli, Enc.sbr, Enc.shalt, Enc.snop, Enc.skinc, Enc.skincReg, Enc.skwait, Enc.skwaitReg, Enc.smfs, Enc.smts, Enc.mma, Enc.mmac, Enc.mmas, Enc.mma24, Enc.mmg, Enc.mzero, Enc.mzst, Enc.mzstCmap, Enc.mzld, Enc.mcfg, Enc.mcfgRd, Enc.mprog, Enc.mxpMov, Enc.mxpTrn, Enc.mxpAdd, Enc.mzpoiRd, Enc.mzpoiWr, Enc.mzpoiOr]

/-- The 32-bit words of the M stream. -/
noncomputable def rowsM32 : List Row := rowsM320

/-- Part 0 of the 16-bit words of the M stream. -/
noncomputable def rowsM160 : List Row := [Enc.saddiC16, Enc.snopC16, Enc.skincC16, Enc.skwaitC16, Enc.mmaC16, Enc.mmaClrC16, Enc.mzeroC16]

/-- The 16-bit words of the M stream. -/
noncomputable def rowsM16 : List Row := rowsM160

/-- The row that encodes an instruction and the values of its fields, lowest field first (none for a step that has no
encoding). -/
noncomputable def Instr.layout : Instr → Option (Row × List Nat)
  | .blk n c l => some (Enc.blk, [l.toNat, c.val, n.toNat])
  | .add d a b => some (Enc.add, [b.val, a.val, d.val])
  | .sub d a b => some (Enc.sub, [b.val, a.val, d.val])
  | .mul d a b => some (Enc.mul, [b.val, a.val, d.val])
  | .mulh d a b => some (Enc.mulh, [b.val, a.val, d.val])
  | .mulhu d a b => some (Enc.mulhu, [b.val, a.val, d.val])
  | .div d a b => some (Enc.div, [b.val, a.val, d.val])
  | .divu d a b => some (Enc.divu, [b.val, a.val, d.val])
  | .rem d a b => some (Enc.rem, [b.val, a.val, d.val])
  | .remu d a b => some (Enc.remu, [b.val, a.val, d.val])
  | .and d a b => some (Enc.and, [b.val, a.val, d.val])
  | .or d a b => some (Enc.or, [b.val, a.val, d.val])
  | .xor d a b => some (Enc.xor, [b.val, a.val, d.val])
  | .andn d a b => some (Enc.andn, [b.val, a.val, d.val])
  | .shl d a b => some (Enc.shl, [b.val, a.val, d.val])
  | .shr d a b => some (Enc.shr, [b.val, a.val, d.val])
  | .sra d a b => some (Enc.sra, [b.val, a.val, d.val])
  | .rol d a b => some (Enc.rol, [b.val, a.val, d.val])
  | .min d a b => some (Enc.min, [b.val, a.val, d.val])
  | .max d a b => some (Enc.max, [b.val, a.val, d.val])
  | .minu d a b => some (Enc.minu, [b.val, a.val, d.val])
  | .maxu d a b => some (Enc.maxu, [b.val, a.val, d.val])
  | .slt d a b => some (Enc.slt, [b.val, a.val, d.val])
  | .sltu d a b => some (Enc.sltu, [b.val, a.val, d.val])
  | .seq d a b => some (Enc.seq, [b.val, a.val, d.val])
  | .clz d a => some (Enc.clz, [a.val, d.val])
  | .ctz d a => some (Enc.ctz, [a.val, d.val])
  | .popc d a => some (Enc.popc, [a.val, d.val])
  | .sext d a s => some (Enc.sext, [s.code, a.val, d.val])
  | .zext d a s => some (Enc.zext, [s.code, a.val, d.val])
  | .addi d a imm => some (Enc.addi, [imm.toNat % 8, a.val, d.val, imm.toNat / 8])
  | .andi d a imm => some (Enc.andi, [imm.toNat % 8, a.val, d.val, imm.toNat / 8])
  | .ori d a imm => some (Enc.ori, [imm.toNat % 8, a.val, d.val, imm.toNat / 8])
  | .xori d a imm => some (Enc.xori, [imm.toNat % 8, a.val, d.val, imm.toNat / 8])
  | .slti d a imm => some (Enc.slti, [imm.toNat % 8, a.val, d.val, imm.toNat / 8])
  | .sltiu d a imm => some (Enc.sltiu, [imm.toNat % 8, a.val, d.val, imm.toNat / 8])
  | .shli n d a => some (Enc.shli, [a.val, d.val, n.toNat])
  | .shri n d a => some (Enc.shri, [a.val, d.val, n.toNat])
  | .srai n d a => some (Enc.srai, [a.val, d.val, n.toNat])
  | .roli n d a => some (Enc.roli, [a.val, d.val, n.toNat])
  | .li d imm => some (Enc.li, [imm.toNat % 8, d.val, imm.toNat / 8])
  | .lik i d k => some (Enc.lik, [k.val, d.val, i.toNat])
  | .j off => some (Enc.j, [off.toNat % 512, off.toNat / 512])
  | .jal off => some (Enc.jal, [off.toNat % 512, off.toNat / 512])
  | .jr o a => some (Enc.jr, [a.val, o.toNat])
  | .jalr o d a => some (Enc.jalr, [a.val, d.val, o.toNat])
  | .beq o a b => some (Enc.beq, [b.val, a.val, o.toNat])
  | .bne o a b => some (Enc.bne, [b.val, a.val, o.toNat])
  | .blt o a b => some (Enc.blt, [b.val, a.val, o.toNat])
  | .bge o a b => some (Enc.bge, [b.val, a.val, o.toNat])
  | .bltu o a b => some (Enc.bltu, [b.val, a.val, o.toNat])
  | .bgeu o a b => some (Enc.bgeu, [b.val, a.val, o.toNat])
  | .bz o a => some (Enc.bz, [a.val, o.toNat])
  | .bnz o a => some (Enc.bnz, [a.val, o.toNat])
  | .ld i d a s => some (Enc.ld, [s.code, a.val, d.val, i.toNat])
  | .st i d a s => some (Enc.st, [s.code, a.val, d.val, i.toNat])
  | .ldacq c i d a => some (Enc.ldacq, [a.val, d.val, i.toNat, c.code])
  | .strel c i d a => some (Enc.strel, [a.val, d.val, i.toNat, c.code])
  | .ldfeTake i d a => some (Enc.ldfeTake, [a.val, d.val, i.toNat])
  | .ldfePeek i d a => some (Enc.ldfePeek, [a.val, d.val, i.toNat])
  | .ldfeTag i d a => some (Enc.ldfeTag, [a.val, d.val, i.toNat])
  | .stfePut i d a => some (Enc.stfePut, [a.val, d.val, i.toNat])
  | .stfeForce i d a => some (Enc.stfeForce, [a.val, d.val, i.toNat])
  | .stfeClear i a => some (Enc.stfeClear, [a.val, i.toNat])
  | .aadd p s o c d a b => some (Enc.aadd, [b.val, a.val, d.val, c.code, o.code, s.code, p.toNat])
  | .amin p s o c d a b => some (Enc.amin, [b.val, a.val, d.val, c.code, o.code, s.code, p.toNat])
  | .amax p s o c d a b => some (Enc.amax, [b.val, a.val, d.val, c.code, o.code, s.code, p.toNat])
  | .aminu p s o c d a b => some (Enc.aminu, [b.val, a.val, d.val, c.code, o.code, s.code, p.toNat])
  | .amaxu p s o c d a b => some (Enc.amaxu, [b.val, a.val, d.val, c.code, o.code, s.code, p.toNat])
  | .aand p s o c d a b => some (Enc.aand, [b.val, a.val, d.val, c.code, o.code, s.code, p.toNat])
  | .aor p s o c d a b => some (Enc.aor, [b.val, a.val, d.val, c.code, o.code, s.code, p.toNat])
  | .axor p s o c d a b => some (Enc.axor, [b.val, a.val, d.val, c.code, o.code, s.code, p.toNat])
  | .aswp p s o c d a b => some (Enc.aswp, [b.val, a.val, d.val, c.code, o.code, s.code, p.toNat])
  | .afadd p s o c d a b => some (Enc.afadd, [b.val, a.val, d.val, c.code, o.code, s.code, p.toNat])
  | .acas s o c d a b => some (Enc.acas, [b.val, a.val, d.val, c.code, o.code, s.code])
  | .amsend r o c d a b => some (Enc.amsend, [b.val, a.val, d.val, c.code, o.code, r.toNat])
  | .amreply a => some (Enc.amreply, [a.val])
  | .deleg o c d a b => some (Enc.deleg, [b.val, a.val, d.val, c.code, o.code])
  | .spawn a b => some (Enc.spawn, [b.val, a.val])
  | .pusht a => some (Enc.pusht, [a.val])
  | .tend => some (Enc.tend, [])
  | .yield => some (Enc.yield, [])
  | .fibid d => some (Enc.fibid, [d.val])
  | .forkv a => some (Enc.forkv, [a.val])
  | .forkm a => some (Enc.forkm, [a.val])
  | .kinc k n => some (Enc.kinc, [n.fReg, k.val, n.fImm, n.fForm])
  | .kwait k n => some (Enc.kwait, [n.fReg, k.val, n.fImm, n.fForm])
  | .kwaitn k n => some (Enc.kwaitn, [n.fReg, k.val, n.fImm, n.fForm])
  | .kset k n => some (Enc.kset, [n.fReg, k.val, n.fImm, n.fForm])
  | .krd k d => some (Enc.krd, [d.val, k.val])
  | .fenceAcq s => some (Enc.fenceAcq, [s.code])
  | .fenceRel s => some (Enc.fenceRel, [s.code])
  | .fenceAr s => some (Enc.fenceAr, [s.code])
  | .fenceSc s => some (Enc.fenceSc, [s.code])
  | .csend e a => some (Enc.csend, [a.val, e.val])
  | .crecv e d => some (Enc.crecv, [d.val, e.val])
  | .cgrant e a => some (Enc.cgrant, [a.val, e.val])
  | .calt d a => some (Enc.calt, [a.val, d.val])
  | .cpyq => some (Enc.cpyq, [])
  | .cpyqNb d => some (Enc.cpyqNb, [d.val])
  | .cpya r k d a => some (Enc.cpya, [a.val, d.val, k.val, r.toNat])
  | .cpycQ d a => some (Enc.cpycQ, [a.val, d.val])
  | .cpycX d a => some (Enc.cpycX, [a.val, d.val])
  | .gath a => some (Enc.gath, [a.val])
  | .scat a => some (Enc.scat, [a.val])
  | .gateq s a b => some (Enc.gateq, [b.val, a.val, s.toNat])
  | .binput d a b => some (Enc.binput, [b.val, a.val, d.val])
  | .exsend a => some (Enc.exsend, [a.val])
  | .expoll w d => some (Enc.expoll, [d.val, w.toNat])
  | .cinj o g a => some (Enc.cinj, [a.val, g.val, o.code])
  | .cext g d => some (Enc.cext, [d.val, g.val])
  | .lease d a b => some (Enc.lease, [b.val, a.val, d.val])
  | .lrel a => some (Enc.lrel, [a.val])
  | .lqry d a => some (Enc.lqry, [a.val, d.val])
  | .cvtg d a => some (Enc.cvtg, [a.val, d.val])
  | .apt d a => some (Enc.apt, [a.val, d.val])
  | .cflush a b => some (Enc.cflush, [b.val, a.val])
  | .cinv a b => some (Enc.cinv, [b.val, a.val])
  | .pref a b => some (Enc.pref, [b.val, a.val])
  | .mfs r d => some (Enc.mfs, [d.val, r.toNat])
  | .mts r a => some (Enc.mts, [a.val, r.toNat])
  | .mtsRouter a => some (Enc.mtsRouter, [a.val])
  | .mtsBinbase a => some (Enc.mtsBinbase, [a.val])
  | .mtsSeed a => some (Enc.mtsSeed, [a.val])
  | .mtsTrappc a => some (Enc.mtsTrappc, [a.val])
  | .trap a => some (Enc.trap, [a.val])
  | .brk c => some (Enc.brk, [c.toNat])
  | .rtt => some (Enc.rtt, [])
  | .rttDrop => some (Enc.rttDrop, [])
  | .nop => some (Enc.nop, [])
  | .movC16 a b => some (Enc.movC16, [b.val, a.val])
  | .addC16 a b c => some (Enc.addC16, [c.val, b.val, a.val])
  | .subC16 a b c => some (Enc.subC16, [c.val, b.val, a.val])
  | .andC16 a b c => some (Enc.andC16, [c.val, b.val, a.val])
  | .orC16 a b c => some (Enc.orC16, [c.val, b.val, a.val])
  | .xorC16 a b c => some (Enc.xorC16, [c.val, b.val, a.val])
  | .addiC16 a b i => some (Enc.addiC16, [i.toNat, b.val, a.val])
  | .shliC16 a b n => some (Enc.shliC16, [n.toNat, b.val, a.val])
  | .shriC16 a b n => some (Enc.shriC16, [n.toNat, b.val, a.val])
  | .liC16 a i => some (Enc.liC16, [i.toNat, a.val])
  | .lddC16 a b d => some (Enc.lddC16, [d.toNat, b.val, a.val])
  | .stdC16 a b d => some (Enc.stdC16, [d.toNat, b.val, a.val])
  | .bzC16 a i => some (Enc.bzC16, [i.toNat, a.val])
  | .bnzC16 a i => some (Enc.bnzC16, [i.toNat, a.val])
  | .kincC16 k => some (Enc.kincC16, [k.val])
  | .kwaitC16 k => some (Enc.kwaitC16, [k.val])
  | .tendC16 => some (Enc.tendC16, [])
  | .yieldC16 => some (Enc.yieldC16, [])
  | .nopC16 => some (Enc.nopC16, [])
  | .tok use prod => some (Enc.tok, [use.count, tokN prod, tokK prod, use.k1, use.k2, use.k3, tokP prod])
  | .sadd b d a => some (Enc.sadd, [a.val, d.val, b.val])
  | .ssub b d a => some (Enc.ssub, [a.val, d.val, b.val])
  | .smul b d a => some (Enc.smul, [a.val, d.val, b.val])
  | .sand b d a => some (Enc.sand, [a.val, d.val, b.val])
  | .sor b d a => some (Enc.sor, [a.val, d.val, b.val])
  | .sxor b d a => some (Enc.sxor, [a.val, d.val, b.val])
  | .sshl b d a => some (Enc.sshl, [a.val, d.val, b.val])
  | .sshr b d a => some (Enc.sshr, [a.val, d.val, b.val])
  | .saddi i d a => some (Enc.saddi, [a.val, d.val, i.toNat])
  | .sli i d k => some (Enc.sli, [k.val, d.val, i.toNat])
  | .sbr i b c a => some (Enc.sbr, [a.val, c.code, b.val, i.toNat])
  | .shalt => some (Enc.shalt, [])
  | .snop => some (Enc.snop, [])
  | .skinc k n => some (Enc.skinc, [n.toNat, k.val])
  | .skincReg k a => some (Enc.skincReg, [a.val, k.val])
  | .skwait k n => some (Enc.skwait, [n.toNat, k.val])
  | .skwaitReg k a => some (Enc.skwaitReg, [a.val, k.val])
  | .smfs s d => some (Enc.smfs, [d.val, s.toNat])
  | .smts s a => some (Enc.smts, [a.val, s.toNat])
  | .vfadd f m b a d => some (Enc.vfadd, [d.val, a.val, b.val, m.val, f.code])
  | .vfsub f m b a d => some (Enc.vfsub, [d.val, a.val, b.val, m.val, f.code])
  | .vfmul f m b a d => some (Enc.vfmul, [d.val, a.val, b.val, m.val, f.code])
  | .vfmin f m b a d => some (Enc.vfmin, [d.val, a.val, b.val, m.val, f.code])
  | .vfmax f m b a d => some (Enc.vfmax, [d.val, a.val, b.val, m.val, f.code])
  | .vfdiv f m b a d => some (Enc.vfdiv, [d.val, a.val, b.val, m.val, f.code])
  | .vfsqrt f m a d => some (Enc.vfsqrt, [d.val, a.val, m.val, f.code])
  | .vfabs f m a d => some (Enc.vfabs, [d.val, a.val, m.val, f.code])
  | .vfneg f m a d => some (Enc.vfneg, [d.val, a.val, m.val, f.code])
  | .vfcpys f m b a d => some (Enc.vfcpys, [d.val, a.val, b.val, m.val, f.code])
  | .vfma f m b a d => some (Enc.vfma, [d.val, a.val, b.val, m.val, f.code])
  | .vfms f m b a d => some (Enc.vfms, [d.val, a.val, b.val, m.val, f.code])
  | .vfnma f m b a d => some (Enc.vfnma, [d.val, a.val, b.val, m.val, f.code])
  | .vexp2 m a d => some (Enc.vexp2, [d.val, a.val, m.val])
  | .vlog2 m a d => some (Enc.vlog2, [d.val, a.val, m.val])
  | .vrcp m a d => some (Enc.vrcp, [d.val, a.val, m.val])
  | .vrsqrt m a d => some (Enc.vrsqrt, [d.val, a.val, m.val])
  | .vsinpi m a d => some (Enc.vsinpi, [d.val, a.val, m.val])
  | .vcospi m a d => some (Enc.vcospi, [d.val, a.val, m.val])
  | .vtanh m a d => some (Enc.vtanh, [d.val, a.val, m.val])
  | .vsigm m a d => some (Enc.vsigm, [d.val, a.val, m.val])
  | .vadd f m b a d => some (Enc.vadd, [d.val, a.val, b.val, m.val, f.code])
  | .vsub f m b a d => some (Enc.vsub, [d.val, a.val, b.val, m.val, f.code])
  | .vmul f m b a d => some (Enc.vmul, [d.val, a.val, b.val, m.val, f.code])
  | .vmulh f m b a d => some (Enc.vmulh, [d.val, a.val, b.val, m.val, f.code])
  | .vand f m b a d => some (Enc.vand, [d.val, a.val, b.val, m.val, f.code])
  | .vor f m b a d => some (Enc.vor, [d.val, a.val, b.val, m.val, f.code])
  | .vxor f m b a d => some (Enc.vxor, [d.val, a.val, b.val, m.val, f.code])
  | .vshl f m b a d => some (Enc.vshl, [d.val, a.val, b.val, m.val, f.code])
  | .vshr f m b a d => some (Enc.vshr, [d.val, a.val, b.val, m.val, f.code])
  | .vsra f m b a d => some (Enc.vsra, [d.val, a.val, b.val, m.val, f.code])
  | .vmin f m b a d => some (Enc.vmin, [d.val, a.val, b.val, m.val, f.code])
  | .vmax f m b a d => some (Enc.vmax, [d.val, a.val, b.val, m.val, f.code])
  | .vabs f m a d => some (Enc.vabs, [d.val, a.val, m.val, f.code])
  | .vcmp f m b a d c => some (Enc.vcmp, [c.code, d.val, a.val, b.val, m.val, f.code])
  | .vcvt src dst mode novf m a d => some (Enc.vcvt, [novf.toNat * 8 + mode.code, d.val, a.val, dst.code, src.code / 8, m.val, src.code % 8])
  | .vqcvt r m b a d => some (Enc.vqcvt, [d.val, a.val, b.val, m.val, r.code])
  | .vqadd m b a d => some (Enc.vqadd, [d.val, a.val, b.val, m.val])
  | .vqsub m b a d => some (Enc.vqsub, [d.val, a.val, b.val, m.val])
  | .vqtof r m b a d => some (Enc.vqtof, [d.val, a.val, b.val, m.val, r.code])
  | .vsclf m e a d => some (Enc.vsclf, [d.val, a.val, e.code, m.val])
  | .vscla m b a d => some (Enc.vscla, [d.val, a.val, b.val, m.val])
  | .vredsum f m a d => some (Enc.vredsum, [d.val, a.val, m.val, f.code])
  | .vredmax f m a d => some (Enc.vredmax, [d.val, a.val, m.val, f.code])
  | .vredmin f m a d => some (Enc.vredmin, [d.val, a.val, m.val, f.code])
  | .vargmax f m a d => some (Enc.vargmax, [d.val, a.val, m.val, f.code])
  | .vargmin f m a d => some (Enc.vargmin, [d.val, a.val, m.val, f.code])
  | .vscan f m a d => some (Enc.vscan, [d.val, a.val, m.val, f.code])
  | .vscanx f m a d => some (Enc.vscanx, [d.val, a.val, m.val, f.code])
  | .vperm m b a d => some (Enc.vperm, [d.val, a.val, b.val, m.val])
  | .vsldu f m b a d => some (Enc.vsldu, [d.val, a.val, b.val, m.val, f.code])
  | .vsldd f m b a d => some (Enc.vsldd, [d.val, a.val, b.val, m.val, f.code])
  | .vbcst f m a d => some (Enc.vbcst, [d.val, a.val, m.val, f.code])
  | .vsel f m b a d => some (Enc.vsel, [d.val, a.val, b.val, m.val, f.code])
  | .vcmprs f m a d => some (Enc.vcmprs, [d.val, a.val, m.val, f.code])
  | .vexpnd f m a d => some (Enc.vexpnd, [d.val, a.val, m.val, f.code])
  | .vmov f m a d => some (Enc.vmov, [d.val, a.val, m.val, f.code])
  | .mand f b a d => some (Enc.mand, [d.val, a.val, b.val, f.code])
  | .mor f b a d => some (Enc.mor, [d.val, a.val, b.val, f.code])
  | .mxor f b a d => some (Enc.mxor, [d.val, a.val, b.val, f.code])
  | .mnot f a d => some (Enc.mnot, [d.val, a.val, f.code])
  | .mpop f a d => some (Enc.mpop, [d.val, a.val, f.code])
  | .mset f a d => some (Enc.mset, [d.val, a.val, f.code])
  | .mfirst f a d => some (Enc.mfirst, [d.val, a.val, f.code])
  | .vld i m e v => some (Enc.vld, [v.val, e.val, m.val, i.toNat])
  | .vst i m e v => some (Enc.vst, [v.val, e.val, m.val, i.toNat])
  | .vlds s m e v => some (Enc.vlds, [v.val, e.val, m.val, s.val])
  | .vsts s m e v => some (Enc.vsts, [v.val, e.val, m.val, s.val])
  | .vldx x m e v => some (Enc.vldx, [v.val, e.val, m.val, x.val])
  | .vstx x m e v => some (Enc.vstx, [v.val, e.val, m.val, x.val])
  | .vldz m p t d => some (Enc.vldz, [d.val, t.val, p.val, m.val])
  | .vstz m p t s => some (Enc.vstz, [s.val, t.val, p.val, m.val])
  | .vmrgKz f b a d => some (Enc.vmrgKz, [d.val, a.val, b.val, f.code])
  | .vmrgDz f b a d => some (Enc.vmrgDz, [d.val, a.val, b.val, f.code])
  | .vmrgc f b a z d => some (Enc.vmrgc, [d.val, z.toNat, a.val, b.val, f.code])
  | .vstrm a d => some (Enc.vstrm, [d.val, a.val])
  | .vstrmx d => some (Enc.vstrmx, [d.val])
  | .vfaddC16 d a b => some (Enc.vfaddC16, [b.val, a.val, d.val])
  | .vfmulC16 d a b => some (Enc.vfmulC16, [b.val, a.val, d.val])
  | .vfmaC16 d a b => some (Enc.vfmaC16, [b.val, a.val, d.val])
  | .vaddC16 d a b => some (Enc.vaddC16, [b.val, a.val, d.val])
  | .vmovC16 d a => some (Enc.vmovC16, [a.val, d.val])
  | .vldC16 d a i => some (Enc.vldC16, [i.toNat, a.val, d.val])
  | .vstC16 d a i => some (Enc.vstC16, [i.toNat, a.val, d.val])
  | .saddiC16 d a i => some (Enc.saddiC16, [i.toNat, a.val, d.val])
  | .snopC16 => some (Enc.snopC16, [])
  | .skincC16 k => some (Enc.skincC16, [k.val])
  | .skwaitC16 k => some (Enc.skwaitC16, [k.val])
  | .mma l c b z a => some (Enc.mma, [a.val, z.val, b.val, c.val, l.toNat])
  | .mmac p n l c b z a => some (Enc.mmac, [a.val, z.val, b.val, c.val, l.toNat, n.val, p.val])
  | .mmas l b z a => some (Enc.mmas, [a.val, z.val, b.val, l.toNat])
  | .mma24 l c b z a => some (Enc.mma24, [a.val, z.val, b.val, c.val, l.toNat])
  | .mmg c b z a => some (Enc.mmg, [a.val, z.val, b.val, c.val])
  | .mzero z => some (Enc.mzero, [z.val])
  | .mzst n o f c z a => some (Enc.mzst, [a.val, z.val, c.val, f.code, o.code, n.toNat])
  | .mzstCmap n o f c b z a => some (Enc.mzstCmap, [a.val, z.val, b.val, c.val, f.code, o.code, n.toNat])
  | .mzld z a => some (Enc.mzld, [a.val, z.val])
  | .mcfg a => some (Enc.mcfg, [a.val])
  | .mcfgRd a => some (Enc.mcfgRd, [a.val])
  | .mprog a => some (Enc.mprog, [a.val])
  | .mxpMov s z => some (Enc.mxpMov, [z.val, s.val])
  | .mxpTrn s z => some (Enc.mxpTrn, [z.val, s.val])
  | .mxpAdd s z => some (Enc.mxpAdd, [z.val, s.val])
  | .mzpoiRd z a => some (Enc.mzpoiRd, [a.val, z.val])
  | .mzpoiWr z a => some (Enc.mzpoiWr, [a.val, z.val])
  | .mzpoiOr z a => some (Enc.mzpoiOr, [a.val, z.val])
  | .mmaC16 z a b => some (Enc.mmaC16, [b.val, a.val, z.val])
  | .mmaClrC16 z a b => some (Enc.mmaClrC16, [b.val, a.val, z.val])
  | .mzeroC16 z => some (Enc.mzeroC16, [z.val])
  | .hostOpen _ => none
  | .close _ => none
  | .write _ => none
  | .read _ => none
  | .qreg _ => none
  | .qdel _ => none
  | .append _ => none
  | .cancel _ => none
  | .wreg _ => none
  | .wdel _ => none
  | .wack _ => none
  | .desc _ => none
  | .attest _ => none
  | .pmread _ => none
  | .jobnew _ => none
  | .jobdel _ => none
  | .jobmap _ => none
  | .jobunmap _ => none
  | .jobpin _ => none
  | .jobset _ => none
  | .brugusSegmentReceive _ => none
  | .brugusAck _ _ _ => none
  | .brugusRetransmit _ => none
  | .invalidationComplete _ => none
  | .queueMap _ => none
  | .priorityAge _ => none
  | .queueUnmapBlocked _ => none
  | .queueRotate => none
  | .drainStart _ => none
  | .entryTake _ => none
  | .phaseComplete _ => none
  | .semRecheck _ => none
  | .semSignal _ => none
  | .entryCopy _ => none
  | .graphReplayStart _ => none
  | .graphNodeStart _ _ => none
  | .launchAdmit _ => none
  | .launchSave _ => none
  | .spreadReserve _ => none
  | .spreadNoroomTimeout _ => none
  | .spreadAnswer _ => none
  | .spreadCommit _ => none
  | .spreadStart _ => none
  | .spreadRetry _ => none
  | .cellRetire _ => none
  | .launchComplete _ => none
  | .taskPop _ => none
  | .coldEndPromote _ => none
  | .stealSend _ => none
  | .stealServe _ => none
  | .stealAnswerArrive _ => none
  | .stealBackoffExpire _ => none
  | .spawnRecordArrive _ => none
  | .spawnAnswerArrive _ => none
  | .amReserveArrive _ => none
  | .amGrantArrive _ => none
  | .amMessageArrive _ => none
  | .handlerStart _ => none
  | .delegRoutineStart _ => none
  | .handlerBudgetExpire _ _ => none
  | .amReplyArrive _ => none
  | .remoteRequestServe _ => none
  | .feRequestServe _ => none
  | .loadReplyArrive _ => none
  | .postedAnswerArrive _ => none
  | .lateRefusalArrive _ => none
  | .lateTrapDeliver _ _ => none
  | .reassemblyReserve _ => none
  | .messageDeliver _ => none
  | .injectionHold => none
  | .reassemblyDrop _ => none
  | .waitLimitExpire _ _ => none
  | .taskBudgetExpire _ _ => none
  | .trapHandlerStart _ => none
  | .streamStart _ _ => none
  | .streamWordComplete _ _ _ => none
  | .armedSlotFire _ => none
  | .vstrmVectorFetch _ _ => none
  | .mmacChainStart _ => none
  | .transferStart _ => none
  | .copyChunkPerform _ _ => none
  | .copyChunkReissue _ _ => none
  | .gathElementReply _ _ _ => none
  | .transferComplete _ _ => none
  | .umbraGathDeadline _ _ => none
  | .hostWindowTimeout _ _ => none
  | .routerTokenDecide _ => none
  | .dispatchRoundStart _ => none
  | .permitRound _ => none
  | .secondRound _ => none
  | .prismPacketArrive _ => none
  | .noticeArrive _ => none
  | .returnRowArrive _ => none
  | .exchangeComplete _ => none
  | .channelSlotArrive _ => none
  | .channelGrantArrive _ => none
  | .eventLineStoreApply _ => none
  | .parentArrival _ => none
  | .parentReleaseArrive _ => none
  | .combineResultArrive _ _ => none
  | .combineRedo _ _ => none
  | .leaseRequestArrive _ => none
  | .leaseReclaimRetry => none
  | .leaseNoticeExpire _ _ => none
  | .leaseGrantSettle _ => none
  | .leaseTermExpire _ => none
  | .leasePairDrained _ => none
  | .turobFrameReceive _ => none
  | .turobFrameResend _ => none
  | .uncorrectableError _ _ => none
  | .functionFence _ _ => none
  | .powerGood => none
  | .powerCapExceed => none
  | .powerStepUp => none
  | .thermalLimit _ => none
  | .sInstructionCompletion _ _ => none
  | .mmasChunkBoundary _ => none
  | .mmgEntryBoundary _ => none

/-- The instruction that a word of `nbits` bits is, by one list of rows. -/
def decodeRows (st : Stream) (nbits : Nat) (w : Nat) : List Row → Option Instr
  | [] => none
  | r :: rs =>
    if r.nbits = nbits then
      match (unpackSegs r.segs w).bind r.build with
      | some i => if i.wf st then some i else decodeRows st nbits w rs
      | none => decodeRows st nbits w rs
    else decodeRows st nbits w rs

/-- The rows of a stream's words of a length. -/
noncomputable def rowsOf : Stream → Nat → List Row
  | .s, 32 => rowsS32
  | .s, 16 => rowsS16
  | .v, 32 => rowsV32
  | .v, 16 => rowsV16
  | .m, 32 => rowsM32
  | .m, 16 => rowsM16
  | _, _ => []

/-- The instruction that a word of `nbits` bits (16 or 32) is in a stream; none where it traps with ILLEGAL (05 R84). -/
noncomputable def decodeWord (st : Stream) (nbits w : Nat) : Option Instr := decodeRows st nbits w (rowsOf st nbits)

/-- The length in bits that the first halfword decides (05 R75). -/
def lengthOf (half0 : Nat) : Nat := if half0 / 32768 % 2 = 0 then 16 else 32

/-- What the decoder finds at the head of a sequence of little-endian halfword bytes. -/
inductive Decoded where
  /-- An instruction of so many bits. -/
  | instr (i : Instr) (nbits : Nat)
  /-- A word of so many bits that traps with ILLEGAL (05 R84). -/
  | illegal (nbits : Nat)
  /-- The bytes end before the word does. -/
  | short
  deriving DecidableEq, Repr

/-- Decode the word at the head of a list of bytes (05 R75: little-endian halfwords, bit 15 of the first decides the
length). -/
noncomputable def decodeBytes (st : Stream) : List Byte → Decoded
  | b0 :: b1 :: rest =>
    let h0 := b0.toNat + 256 * b1.toNat
    if lengthOf h0 = 16 then
      match decodeWord st 16 h0 with
      | some i => .instr i 16
      | none => .illegal 16
    else
      match rest with
      | b2 :: b3 :: _ =>
        match decodeWord st 32 (h0 + 65536 * (b2.toNat + 256 * b3.toNat)) with
        | some i => .instr i 32
        | none => .illegal 32
      | _ => .short
  | _ => .short

/-- The word of an instruction, with its length in bits; none for a step that has no encoding. -/
noncomputable def encode (i : Instr) : Option (Nat × Nat) :=
  i.layout.map (fun p => (p.1.nbits, packSegs p.1.segs p.2))

/-- The bytes of a word of `nbits` bits, in the order in which the hardware stores them. -/
def wordBytes : Nat → Nat → List Byte
  | 16, w => [BitVec.ofNat 8 w, BitVec.ofNat 8 (w / 256)]
  | _, w => [BitVec.ofNat 8 w, BitVec.ofNat 8 (w / 256), BitVec.ofNat 8 (w / 65536), BitVec.ofNat 8 (w / 16777216)]

/-- The instruction that the decoder reads in a stream from the bytes of a word, when they decode. -/
noncomputable def decodeIn (st : Stream) (nbits w : Nat) : Option Instr :=
  match decodeBytes st (wordBytes nbits w) with
  | .instr i n => if n = nbits then some i else none
  | _ => none

/-- The stream in which a word of the opcode table is read: the opcode table gives the words of three streams, which
share bit patterns; the first stream of S, V and M that has an instruction for the word is taken (DESIGN CHOICE, log
2). -/
noncomputable def tableStream (nbits w : Nat) : Stream :=
  if (decodeIn .s nbits w).isSome then .s else if (decodeIn .v nbits w).isSome then .v else .m

/-- The instruction that the decoder reads from a word of the opcode table (log 2). -/
noncomputable def decodeTableWord (nbits w : Nat) : Option Instr := decodeIn (tableStream nbits w) nbits w

end Sys2Proof
end

