-- ==== Sys2Proof/Machine/Mem.lean ====
section
/-!
DEFINITION. Memory as programs see it (11): apertures, translation, scratchpads, the L1 caches, device memory.
-/

namespace Sys2Proof.Machine

open Sys2Proof

/-! ## Translation (11 R231-R233) -/

/-- What an access does with a page. -/
inductive Access where | read | write
  deriving DecidableEq, Repr

/-- The outcome of a translation. -/
inductive Trans where
  | pa (a : Nat)
  /-- A host window: its number and the offset (11 R232, 19 R378). -/
  | window (n off : Nat)
  | fault (cls : Nat)
  deriving DecidableEq, Repr

/-- Lowest bit of the index of a table level (11 Table 11.3). -/
def ptShift : Nat → Nat
  | 0 => 16 | 1 => 21 | 2 => 30 | _ => 39

/-- Alignment of the table that an entry of a level points to (11 Table 11.3). -/
def ptTableSize : Nat → Nat
  | 1 => 256 | _ => 4096

/-- The entry of a level for a virtual address; an entry that was never written is 0 (03 R58: tables start empty). -/
def Job.pte (j : Job) (level va : Nat) : Word :=
  match j.pt.find? (fun e => e.1 = (level, va / 2 ^ ptShift level)) with
  | some e => e.2
  | none => 0

/-- An entry's address field [55:8] as an address. -/
def pteAddr (e : Word) : Nat := fld e 55 8 * 256

/-- The entry is valid, its reserved bits are clear and its T bit fits the level (11 R232). -/
def pteOk (level : Nat) (e : Word) : Bool :=
  fld e 0 0 = 1 && fld e 63 56 = 0 && fld e 7 5 = 0 &&
  (if fld e 1 1 = 1 then level != 0 && pteAddr e % ptTableSize level = 0
   else level < 3 && pteAddr e % 2 ^ ptShift level = 0 &&
     (if fld e 55 55 = 1 then fld e 54 48 = 0 else pteAddr e < Config.memBytes))

/-- The leaf entry for a virtual address, with its level; none when the walk meets a malformed entry (11 R231, R232). -/
def Job.walk (j : Job) (va : Nat) : Nat → Option (Word × Nat)
  | 0 => let e := j.pte 0 va; if pteOk 0 e then some (e, 0) else none
  | level + 1 =>
    let e := j.pte (level + 1) va
    if pteOk (level + 1) e then (if fld e 1 1 = 1 then j.walk va level else some (e, level + 1)) else none

/-- Translate a virtual address of a job for an access (11 R233). -/
def Job.translate (j : Job) (va : Nat) (acc : Access) : Trans :=
  match j.walk va 3 with
  | none => .fault cXLATE
  | some (e, level) =>
    let ok : Bool := match acc with
      | .read => fld e 2 2 = 1
      | .write => fld e 3 3 = 1 && fld e 4 4 = 0
    if ok then
      let off := va % 2 ^ ptShift level
      if fld e 55 55 = 1 then .window (fld e 47 40) (pteAddr e % 2 ^ 40 + off) else .pa (pteAddr e + off)
    else .fault cPROTECT

/-- Translate a virtual address of a job for an access: under an invalidation that covers it, by the tables before the
change or by those after it (11 R234; log 32). -/
def State.translate (s : State) (job va : Nat) (acc : Access) : Trans :=
  let now := (s.job job).translate va acc
  match s.invs.find? (fun e => e.2.job = job && decide (e.2.page ≤ va / 65536) && decide (va / 65536 < e.2.page + e.2.n)) with
  | some e =>
    if Config.pick s.fresh 9 (va / 65536) % 2 = 0 then ({ s.job job with pt := e.2.old } : Job).translate va acc else now
  | none => now

/-! ## TLBs (11 R234) -/

/-- The translation of an address of a job as a TLB holds it. -/
def State.tlbEntry (s : State) (job va : Nat) : Option TlbEntry :=
  ((s.job job).walk va 3).map (fun e => { job := job, level := e.2, page := va / 2 ^ ptShift e.2 })

/-- The first page of 64 KiB of an entry, and how many it covers. -/
def TlbEntry.span (e : TlbEntry) : Nat × Nat := (e.page * 2 ^ ptShift e.level / 65536, 2 ^ ptShift e.level / 65536)

/-- A pin of its job covers the entry: its translation stays in the TLB of a C-die (11 R235). -/
def State.pinned (s : State) (e : TlbEntry) : Bool :=
  (s.job e.job).pins.any (fun p => decide (p.page ≤ e.span.1 ∧ e.span.1 < p.page + p.n))

/-- A list takes in an entry; at its size it gives up one that may go, left open which. -/
def tlbPut (l : List TlbEntry) (size draw kind : Nat) (mayGo : TlbEntry → Bool) (e : TlbEntry) : List TlbEntry :=
  if l.length < size then l ++ [e]
  else
    let m := l.filter mayGo
    match m[Config.pick draw kind e.page % max 1 m.length]? with
    | some x => l.erase x ++ [e]
    | none => l

/-- An access of a cell translates an address: a miss in the TLB of its cluster, of 256 entries, is counted and goes to
that of its C-die, of 16,384 (11 R234, 19 Table 19.4). -/
def State.tlbUse (s : State) (c job va : Nat) : State :=
  match s.tlbEntry job va with
  | none => s
  | some e =>
    let k := clusterOf c
    let d := 96 + dieOf c
    let own := (s.tlbs.find k).getD []
    let die := (s.tlbs.find d).getD []
    if own.contains e then s
    else
      let t1 := s.tlbs.put k (tlbPut own 256 s.fresh 10 (fun _ => true) e)
      let t2 := if die.contains e then t1 else t1.put d (tlbPut die 16384 s.fresh 11 (fun x => !s.pinned x) e)
      { s with tlbs := t2 }.count c 11 1

/-- The TLBs drop what they hold of pages of a job. -/
def State.tlbDrop (s : State) (job page n : Nat) : State :=
  { s with tlbs := s.tlbs.map (fun t =>
      (t.1, t.2.filter (fun e => !(e.job == job && decide (e.span.1 < page + n ∧ page < e.span.1 + e.span.2))))) }

/-! ## Generic addresses (11 R219) -/

/-- What a generic address names. -/
inductive Loc where
  | spad (cell off : Nat)
  | global (va : Nat)
  /-- Another device of the domain. -/
  | remote (dev : Nat)
  | event (line : Fin 16) (cfg : Bool)
  deriving DecidableEq, Repr

/-- An 8-bit field as a signed number. -/
def sx8 (n : Nat) : Int := if n < 128 then n else (n : Int) - 256

/-- The cell at a relative position, when |dx| < W and |dy| < H (04 R68, 11 R219). -/
def relCell (l : Launch) (x y : Nat) (dx dy : Int) : Option Nat :=
  if dx.natAbs < l.w ∧ dy.natAbs < l.h then
    some (l.phys (((x : Int) + dx).emod l.w).toNat (((y : Int) + dy).emod l.h).toNat)
  else none

/-- Every cell of a cell's cluster lies in the launch's rectangle (02 Table 2.2, 16 R331). -/
def wholeCluster (l : Launch) (c : Nat) : Bool :=
  let col := 2 * ((c % Config.cols) / 2)
  let row := 4 * ((c / Config.cols) / 4)
  l.col0 ≤ col && col + 1 < l.col0 + l.w && l.row0 ≤ row && row + 3 < l.row0 + l.h

/-- What `n` bytes at a generic address name for the acting fibre of a cell, or none where the address traps with
APERTURE (11 R219, Table 11.1). `priv` is the fibre's private region. -/
def State.resolve (s : State) (c : Nat) (priv : Option Nat) (a : Word) (n : Nat) : Option Loc :=
  let l := s.launchOf c
  let x := s.cell c
  let j := s.job l.job
  let off := fld a 19 0
  let inSpad (cell : Nat) : Option Loc := if off + n ≤ Config.spadBytes then some (.spad cell off) else none
  match fld a 63 60 with
  | 0x0 => if fld a 59 57 = 0 ∧ fld a 56 0 + n ≤ 2 ^ 57 then some (.global (fld a 56 0)) else none
  | 0x1 =>
    if j.devSet.contains (fld a 59 48) ∧ fld a 47 0 + n ≤ 2 ^ 48 then
      (if fld a 59 48 = s.device then some (.global (fld a 47 0)) else some (.remote (fld a 59 48)))
    else none
  | 0x8 => if fld a 59 30 = 0 ∧ fld a 29 20 < l.w * l.h then inSpad (l.physIdx (fld a 29 20)) else none
  | 0x9 =>
    if fld a 59 23 = 0 ∧ (s.cell (memberCell c (fld a 22 20))).launch = x.launch ∧ x.launch.isSome then
      inSpad (memberCell c (fld a 22 20))
    else none
  | 0xA => if fld a 59 20 = 0 then inSpad c else none
  | 0xB =>
    match priv with
    | some base => if fld a 59 40 = 0 ∧ fld a 39 0 + n ≤ l.privSize then some (.global (base + fld a 39 0)) else none
    | none => none
  | 0xC =>
    if fld a 59 9 = 0 ∧ fld a 3 0 = 0 ∧ wholeCluster l c then
      some (.event (Fin.ofNat 16 (fld a 7 4)) (fld a 8 8 = 1))
    else none
  | 0xD =>
    if fld a 59 36 = 0 then
      match relCell l x.x x.y (sx8 (fld a 35 28)) (sx8 (fld a 27 20)) with
      | some cell => inSpad cell
      | none => none
    else none
  | 0xE =>
    if l.spread ≠ [] ∧ l.spread.contains (fld a 59 48) ∧ fld a 47 30 = 0 ∧ fld a 29 20 < l.w * l.h then
      (if fld a 59 48 = s.device then inSpad (l.physIdx (fld a 29 20))
       else if off + n ≤ Config.spadBytes then some (.remote (fld a 59 48)) else none)
    else none
  | _ => none

/-- As `resolve`, for the acting fibre. -/
def State.resolveHere (s : State) (a : Word) (n : Nat) : Option Loc :=
  s.resolve s.cur.cell s.fibre.body.priv a n

/-! ## Scratchpads (11 R225-R227) -/

/-- Write `n` bytes of a number into a scratchpad; `bad` when the data is poisoned. -/
def Spad.write (p : Spad) (off n x : Nat) (bad : Bool) : Spad :=
  { p with bytes := Mem.writeBytes p.bytes off (natBytes n x), poison := poisonAfter p.poison off n bad }

/-- The little-endian number in `n` bytes of a scratchpad. -/
def Spad.read (p : Spad) (off n : Nat) : Nat := Mem.readNat p.bytes n off

/-- Some sector of `n` bytes is poisoned. -/
def Spad.bad (p : Spad) (off n : Nat) : Bool := anyPoison p.poison off n

/-- The tag of the word at an offset (11 R225). -/
def Spad.tag (p : Spad) (off : Nat) : Bool := p.full.contains (off / 8)

/-- Set the tag of the word at an offset. -/
def Spad.setTag (p : Spad) (off : Nat) (b : Bool) : Spad := { p with full := setTo p.full (off / 8) b }

/-- An entry of the active-message queue as 64 bytes (12 Table 12.4). -/
def AmEntry.image (e : AmEntry) : Nat :=
  e.pc.toNat + 2 ^ 64 * (e.a0.toNat + 2 ^ 64 * (e.a1.toNat + 2 ^ 64 * (e.a2.toNat + 2 ^ 64 * (e.a3.toNat +
    2 ^ 64 * (e.target.toNat + 2 ^ 64 * (e.sender.toNat + 2 ^ 64 *
      (e.id.toNat * 2 ^ 32 + 8 * b2n e.deleg + 4 * b2n e.reply + 2 * b2n e.running + b2n (e.valid && !e.free))))))))

/-- An endpoint as 16 bytes (16 Table 16.3). -/
def Endpoint.image (e : Endpoint) : Nat :=
  match e.side with
  | .unused => 0
  | sd =>
    (e.size / 64 - 1) + 2 ^ 16 * ((e.slots - 1) + 64 * (if sd = .sender then 1 else 2)) + 2 ^ 24 * e.peerEp +
    2 ^ 32 * (e.peer.getD 0xFFFF) + 2 ^ 48 * (if sd = .sender then 0 else e.filled) + 2 ^ 64 * e.count +
    2 ^ 80 * (e.seq % 65536)

/-! ## Device memory (11 R230) -/

/-- The HBM stack of a physical address, 0 to 7: stacks 2d and 2d + 1 belong to C-die d (01 R8, 11 R230). -/
def stackOf (pa : Nat) : Nat := (pa / 2 ^ 12 % 8).xor ((pa / 2 ^ 21 % 8).xor (pa / 2 ^ 30 % 8))

/-- The slice of an address among the eight of its stack (11 R230). -/
def lineSlice (pa : Nat) : Nat := (pa / 2 ^ 8 % 8).xor (pa / 2 ^ 15 % 8)

/-- The home of a physical address: L2 slice 8 * (s mod 2) + j of C-die s div 2, as 16 * die + slice (11 R230). -/
def homeOf (pa : Nat) : Nat := 16 * (stackOf pa / 2) + (8 * (stackOf pa % 2) + lineSlice pa)

/-- The number in `n` bytes of device memory. -/
def State.homeRead (s : State) (pa n : Nat) : Nat := Mem.readNat s.mem n pa

/-- Some sector of `n` bytes of device memory is poisoned. -/
def State.homeBad (s : State) (pa n : Nat) : Bool := anyPoison s.memPoison pa n

/-- The launch of a key on this device. -/
def State.byKey (s : State) (key : Nat × Nat) : Option Nat :=
  (s.launches.find? (fun e => e.2.key = some key)).map Prod.fst

/-- The authors of bytes of memory once a unit of work, or none, has written the bytes at the addresses. -/
def claimed (m : AMap Nat) (unit : Option Nat) (l : List Nat) : AMap Nat :=
  l.foldl (fun m a => match unit with | some n => m.put a n | none => m.del a) m

/-- The `n` bytes of device memory from an address, just written, are the data of a unit of work, where there is one
(03 R56, log 57). -/
def State.claim (s : State) (unit : Option Nat) (pa n : Nat) : State :=
  { s with authors := match unit with | some u => claimed s.authors (some u) (upFrom n pa) | none => s.authors }

/-- What a unit of work wrote is from now on the data of another, or of none. -/
def State.disown (s : State) (unit : Nat) (heir : Option Nat) : State :=
  { s with authors := s.authors.filterMap (fun e => if e.2 = unit then heir.map (fun h => (e.1, h)) else some e) }

/-- What a unit of work wrote, once it is over: undefined when it was cancelled (03 R56), and as written otherwise; for a
cancel of the graph replay that it belongs to, it counts as the replay's (log 57). -/
def State.settle (s : State) (unit : Nat) (cancelled : Bool) (replay : Option Nat) : State :=
  ((if cancelled then s.undefine unit else s).disown unit replay)

/-- Write bytes of device memory. -/
def State.homeWriteBytes (s : State) (pa : Nat) (bs : List Byte) (bad : Bool) : State :=
  { s with
    mem := Mem.writeBytes s.mem pa bs
    memPoison := poisonAfter s.memPoison pa bs.length bad
    authors := claimed s.authors none (upFrom bs.length pa) }

/-- Write `n` bytes of a number into device memory. -/
def State.homeWrite (s : State) (pa n x : Nat) (bad : Bool) : State := s.homeWriteBytes pa (natBytes n x) bad

/-! ## The L1 caches (11 R228, R229) -/

/-- The cell whose L1 holds a virtual address for a cell: its own, or in a fused cluster the slice of a[10:8]. -/
def State.l1Owner (s : State) (c va : Nat) : Nat :=
  let l := s.launchOf c
  if l.flags.getLsbD 1 ∧ wholeCluster l c then memberCell c (va / 256 % 8) else c

/-- The L1s that a cell's fences and cache operations act on (11 R229, 12 R254). -/
def State.l1Cells (s : State) (c : Nat) : List Nat :=
  let l := s.launchOf c
  if l.flags.getLsbD 1 ∧ wholeCluster l c then (upFrom 8 0).map (memberCell c) else [c]

/-- The sector of an L1 that holds a virtual sector. -/
def findSector (l : List L1Sector) (va : Nat) : Option L1Sector := l.find? (fun x => x.va = va)

/-- Put a sector into an L1, sectors kept rising. -/
def putSector : List L1Sector → L1Sector → List L1Sector
  | [], x => [x]
  | y :: r, x => if x.va < y.va then x :: y :: r else if x.va = y.va then x :: r else y :: putSector r x

/-- Byte `i` of a sector's data. -/
def L1Sector.byte (x : L1Sector) (i : Nat) : Byte := x.data.extractLsb' (8 * i) 8

/-- A 512-bit number from 64 bytes of a function of the byte index. -/
def sectorOf (f : Nat → Byte) : BitVec 512 := BitVec.ofNat 512 (bytesNat ((upFrom 64 0).map f))

/-- A 64-bit mask of the bytes `lo` to `lo + n − 1`. -/
def byteMask (lo n : Nat) : BitVec 64 := BitVec.ofNat 64 ((2 ^ n - 1) * 2 ^ lo)

/-- Write the dirty bytes of a sector of a cell's L1 to its home (11 R228): only the masked bytes. -/
def State.writeBack (s : State) (c : Nat) (x : L1Sector) : State :=
  let base := 64 * x.pa
  let mem := (upFrom 64 0).foldl (fun m i => if x.dirty.getLsbD i then Mem.write m (base + i) (x.byte i) else m) s.mem
  { s with
    mem := mem
    memPoison :=
      if x.dirty = 0 then s.memPoison
      else if x.poison then setAdd s.memPoison x.pa
      else if x.dirty = BitVec.allOnes 64 then setDel s.memPoison x.pa
      else s.memPoison
    authors := claimed s.authors (s.cell c).launch
      ((upFrom 64 base).filter (fun a => x.dirty.getLsbD (a - base))) }

/-- Write back every dirty sector of the L1s named, the sectors staying valid and clean (12 R254 REL). -/
def State.flushL1 (s : State) (cells : List Nat) (want : Nat → Bool) : State :=
  cells.foldl (fun s c =>
    let l1 := (s.cell c).l1
    let s1 := l1.foldl (fun s x => if want x.va ∧ x.dirty ≠ 0 then s.writeBack c x else s) s
    s1.updCell c (fun y => { y with l1 := y.l1.map (fun x => if want x.va then { x with dirty := 0 } else x) })) s

/-- Invalidate every clean byte of the L1s named (12 R254 ACQ); dirty bytes stay (log 16). -/
def State.invalidateL1 (s : State) (cells : List Nat) (want : Nat → Bool) : State :=
  cells.foldl (fun s c =>
    s.updCell c (fun y => { y with
      l1 := (y.l1.map (fun x => if want x.va then { x with valid := x.dirty } else x)).filter
        (fun x => !(want x.va && x.dirty = 0)) })) s

/-- The acquire that a test of an object of a cell owes, because a release wider than the cell reached the object (17
R346). -/
def State.acqOwed (s : State) (c : Nat) : State :=
  if (s.cell c).acqDue then
    (s.updCell c (fun x => { x with acqDue := false })).invalidateL1 (s.l1Cells c) (fun _ => true)
  else s

/-- Increment a counter of a cell. -/
def State.bump (s : State) (c : Nat) (k : KReg) (n : Nat) : State := s.updCell c (fun x => x.incK k n none)

/-- A write of a cell's Copy Engine reaches `n` bytes of device memory: what the cell's L1 holds dirty of them came before
it, where the request was ordered after it, and is gone (17 R347; log 16). -/
def State.overtake (s : State) (c pa n : Nat) : State :=
  (s.l1Cells c).foldl (fun s d => s.updCell d (fun y =>
    { y with l1 := (y.l1.map (fun x =>
        let hit := BitVec.ofNat 64 (((upFrom 64 0).filter (fun i => decide (pa ≤ 64 * x.pa + i ∧ 64 * x.pa + i < pa + n))).foldl
          (fun m i => m + 2 ^ i) 0) &&& x.dirty
        { x with valid := x.valid &&& ~~~hit, dirty := x.dirty &&& ~~~hit })).filter (fun x => x.valid != 0) })) s

/-- Before an access at the home: the issuing cell's L1 writes back its dirty bytes of the sector and drops its copy
(12 R241). -/
def State.dropSector (s : State) (c va : Nat) : State :=
  let o := s.l1Owner c va
  match findSector (s.cell o).l1 (va / 64) with
  | some x => (s.writeBack o x).updCell o (fun y => { y with l1 := y.l1.filter (fun z => z.va ≠ va / 64) })
  | none => s

/-- The sector of a virtual address with every byte valid, filled from its home at physical sector `pa`. -/
def State.fillSector (s : State) (old : Option L1Sector) (va pa : Nat) : L1Sector :=
  match old with
  | none =>
    { va := va, pa := pa, data := BitVec.ofNat 512 (s.homeRead (64 * pa) 64), valid := BitVec.allOnes 64, dirty := 0,
      poison := s.memPoison.contains pa }
  | some x =>
    { x with
      data := sectorOf (fun i => if x.valid.getLsbD i then x.byte i else Mem.read s.mem (64 * x.pa + i))
      valid := BitVec.allOnes 64
      poison := x.poison || (x.valid != BitVec.allOnes 64 && s.memPoison.contains x.pa) }

/-- An L1 drops a sector; its dirty bytes are written back first (11 R228, log 12). -/
def State.evictL1 (s : State) (c va : Nat) : State :=
  match findSector (s.cell c).l1 va with
  | some x =>
    (s.writeBack c x).updCell c (fun y => { y with l1 := y.l1.filter (fun z => z.va != va) })
  | none => s

/-- The set of an L1 in which the line of a virtual sector stands: 64 sets of 8 lines of 256 bytes make 128 KiB (01 R14);
in a fused cluster a slice holds one line in eight (11 R229). Which address bits select it is not stated (log 12). -/
def lineSet (fused : Bool) (sec : Nat) : Nat := sec / (if fused then 32 else 4) % 64

/-- Room in an L1 for a line of a virtual sector: of a set that is full one line, left open which, is dropped. -/
def State.makeRoom (s : State) (o sec : Nat) : State :=
  let l1 := (s.cell o).l1
  if l1.any (fun x => x.va / 4 = sec / 4) then s
  else
    let fused := s.l1Cells o != [o]
    let lines := ((l1.filter (fun x => lineSet fused x.va = lineSet fused sec)).map (fun x => x.va / 4)).foldl setAdd []
    if lines.length < 8 then s
    else
      let line := (lines[Config.pick s.fresh 12 sec % lines.length]?).getD 0
      (upFrom 4 (4 * line)).foldl (fun s v => s.evictL1 o v) s

/-- A load of `n` bytes of GLOBAL memory through the L1 of a cell: the state with the sector filled, the data and its
poison (11 R228). `pa` is the translated address. -/
def State.l1Load (s : State) (c va pa n : Nat) : State × Nat × Bool :=
  let o := s.l1Owner c va
  let old := findSector (s.cell o).l1 (va / 64)
  let x := match old with
    | some x =>
      if x.valid &&& byteMask (va % 64) n = byteMask (va % 64) n then x else s.fillSector old (va / 64) (pa / 64)
    | none => s.fillSector none (va / 64) (pa / 64)
  ((s.makeRoom o (va / 64)).updCell o (fun y => { y with l1 := putSector y.l1 x }), x.data.toNat / 2 ^ (8 * (va % 64)) % 2 ^ (8 * n), x.poison)

/-- A store of `n` bytes through the L1 of a cell: the sector is allocated without being filled (11 R228). -/
def State.l1Store (s : State) (c va pa n x : Nat) : State :=
  let o := s.l1Owner c va
  let old := (findSector (s.cell o).l1 (va / 64)).getD
    { va := va / 64, pa := pa / 64, data := 0, valid := 0, dirty := 0, poison := false }
  let m := byteMask (va % 64) n
  let dirty := old.dirty ||| m
  let new : L1Sector :=
    { old with
      data := sectorOf (fun i => if m.getLsbD i then BitVec.ofNat 8 (x / 2 ^ (8 * (i - va % 64))) else old.byte i)
      valid := old.valid ||| m
      dirty := dirty
      poison := old.poison && dirty != BitVec.allOnes 64 }
  (s.makeRoom o (va / 64)).updCell o (fun y => { y with l1 := putSector y.l1 new })

/-! ## Instruction fetch (05 R74) -/

/-- Bytes of a sector of code as the acting cell's instruction cache holds it. -/
def codeBytes (x : BitVec 512) (off n : Nat) : List Byte := (upFrom n off).map (fun i => x.extractLsb' (8 * i) 8)

/-- A halfword of code at a virtual address of a job, or the class of the fetch fault (05 R74): from the acting cell's
instruction cache, or else from memory (05 R73). -/
def State.fetchHalf (s : State) (job : Nat) (a : Word) : Except Nat (List Byte) :=
  if fld a 63 60 ≠ 0 ∨ fld a 59 57 ≠ 0 then .error cAPERTURE
  else
    match s.translate job (fld a 56 0) .read with
    | .pa p =>
      match s.here.icache.find (p / 64) with
      | some x => .ok (codeBytes x (p % 64) 2)
      | none => if s.homeBad p 2 then .error cPOISON else .ok (Mem.readBytes s.mem 2 p)
    | .window _ _ => .error cPROTECT
    | .fault c => .error c

/-- The bytes of the word at an address: two, or four when bit 15 of the first halfword is 1 (05 R75). -/
def State.fetchWord (s : State) (job : Nat) (a : Word) : Except Nat (List Byte) :=
  match s.fetchHalf job a with
  | .error c => .error c
  | .ok h0 =>
    if lengthOf (bytesNat h0) = 16 then .ok h0
    else
      match s.fetchHalf job (a + 2) with
      | .error c => .error c
      | .ok h1 => .ok (h0 ++ h1)

/-- The instruction cache of a cell takes in the sector of code at a GLOBAL address of its job, when it has room (64 KiB,
05 R73). -/
def State.fillCode (s : State) (c va : Nat) : State :=
  match (s.cell c).launch, s.translate (s.launchOf c).job va .read with
  | some _, .pa p =>
    if s.homeBad (p / 64 * 64) 64 || decide (1024 ≤ (s.cell c).icache.length) then s
    else (s.tlbUse c (s.launchOf c).job va).updCell c (fun x =>
      { x with icache := x.icache.put (p / 64) (BitVec.ofNat 512 (bytesNat (Mem.readBytes s.mem 64 (p / 64 * 64)))) })
  | _, _ => s

/-- The instruction cache of a cell drops a sector. -/
def State.dropCode (s : State) (c sector : Nat) : State := s.updCell c (fun x => { x with icache := x.icache.del sector })

end Sys2Proof.Machine
end

