-- ==== Sys2Proof/Machine/Operands.lean ====
section
/-!
DEFINITION. The operand forms of the S stream: immediates, displacements, branch targets, amounts of counters.
-/

namespace Sys2Proof

/-- Bytes of a load (12 R238). -/
def LdSize.bytes : LdSize → Nat
  | .b | .bu => 1
  | .h | .hu => 2
  | .w | .wu => 4
  | .d | .dp => 8

/-- Bytes of a store (12 R239). -/
def StSize.bytes : StSize → Nat
  | .b => 1 | .h => 2 | .w => 4 | .d => 8

/-- Load data extended to a register (12 R238). -/
def LdSize.extend (z : LdSize) (x : Nat) : Word :=
  match z with
  | .b => (BitVec.ofNat 8 x).signExtend 64
  | .h => (BitVec.ofNat 16 x).signExtend 64
  | .w => (BitVec.ofNat 32 x).signExtend 64
  | .bu => BitVec.ofNat 64 (x % 2 ^ 8)
  | .hu => BitVec.ofNat 64 (x % 2 ^ 16)
  | .wu => BitVec.ofNat 64 (x % 2 ^ 32)
  | .d | .dp => BitVec.ofNat 64 x

/-- A scope is CLUSTER or wider. -/
def Scope.wide : Scope → Bool
  | .fibre | .cell => false
  | _ => true

/-- A scope is DEVICE or wider. -/
def Scope.deviceUp : Scope → Bool
  | .fibre | .cell | .cluster => false
  | _ => true

end Sys2Proof

namespace Sys2Proof.Machine

open Sys2Proof

/-- imm19, sign-extended (05 R79). -/
def imm19W (i : BitVec 19) : Word := i.signExtend 64

/-- A 16-bit displacement, sign-extended (12 R238). -/
def dispW (i : BitVec 16) : Word := i.signExtend 64

/-- A 13-bit displacement, sign-extended (12 R240, R242). -/
def disp13W (i : BitVec 13) : Word := i.signExtend 64

/-- The target of a branch at `pc` whose offset counts 4-byte units (05 R79). -/
def branchTo (pc : Word) (x : BitVec 16) : Word := pc + x.signExtend 64 * 4

/-- The target of J or JAL (06 R114). -/
def jumpTarget (pc : Word) (x : BitVec 25) : Word := pc + x.signExtend 64 * 4

/-- The target of a compact BZ or BNZ (06 Table 6.6). -/
def branchTo7 (pc : Word) (x : BitVec 7) : Word := pc + x.signExtend 64 * 4

/-- The amount of KINC, KWAIT, KWAITN or KSET (16 R320). -/
def State.kAmt (s : State) : KAmt → W32
  | .imm n => n.setWidth 32
  | .reg a => (s.g a).setWidth 32

/-- The bend of the current block: the address of the header that follows the body (06 R114). -/
def FBody.bend (b : FBody) : Word :=
  match b.blk with
  | some k => k.fin
  | none => b.pc

/-- The scope reaches the L1s of a cell: CLUSTER for an unfused cluster, DEVICE for a fused one (12 R254). -/
def State.l1Scope (s : State) (c : Nat) (sc : Scope) : Bool :=
  if (s.l1Cells c).length = 1 then sc.wide else sc.deviceUp

/-- A release at a scope finds OUTST = 0 and may go on (12 R254: CELL scope and wider wait, FIBRE does not). -/
def State.mayRelease (s : State) (sc : Scope) : Bool := sc == .fibre || s.fibre.body.outst == 0

/-- The L1 part of a release at a scope: dirty sectors are written back (12 Table 12.5). -/
def State.relL1 (s : State) (sc : Scope) : State :=
  if s.l1Scope s.cur.cell sc then s.flushL1 (s.l1Cells s.cur.cell) (fun _ => true) else s

/-- The L1 part of an acquire at a scope by a cell: clean data is invalidated (12 Table 12.5). -/
def State.acqL1 (s : State) (c : Nat) (sc : Scope) : State :=
  if s.l1Scope c sc then s.invalidateL1 (s.l1Cells c) (fun _ => true) else s

/-- Do something as a release at a scope: park on OUTST, or write the L1 back and go on. -/
def State.released (s : State) (sc : Scope) (k : State → State) : State :=
  if s.mayRelease sc then k (s.relL1 sc) else s.parkOutst

end Sys2Proof.Machine
end

