-- ==== Sys2Proof/Machine/Shared.lean ====
section
/-!
DEFINITION. Operations that the V and M streams share: the acting engine, issue, in-flight words, stream traps.
-/

namespace Sys2Proof.Machine

open Sys2Proof

/-- The acting engine. -/
def State.eng (s : State) : Engine :=
  match s.cur.stream with
  | .m => s.here.m.eng
  | _ => s.here.v.eng

/-- Change the acting engine. -/
def State.updEng (s : State) (f : Engine → Engine) : State :=
  s.updHere (fun c =>
    match s.cur.stream with
    | .m => { c with m := { c.m with eng := f c.m.eng } }
    | _ => { c with v := { c.v with eng := f c.v.eng } })

/-- A word in flight writes the destination and its bound has not passed (05 R87). -/
def Engine.inFlight (e : Engine) (d : Dest) : Bool :=
  e.flights.any (fun f =>
    match f with
    | .word dl ds _ _ => e.clk < dl && ds.contains d
    | .skinc _ _ _ _ => false)

/-- A number for a free value of this step. -/
def State.draw (s : State) (i : Nat) : Nat := s.fresh * 1024 + i

/-- An e or q register as an issuing word reads it: free between a word's issue and its bound (05 R87, log 5). -/
def State.sr (s : State) (r : SReg) : Word :=
  if s.eng.inFlight (.g r) then Config.freeWord (s.draw r.val) else s.eng.g[r]

/-- The address of the acting stream's word. -/
def State.epc (s : State) : Word :=
  match s.eng.run with
  | some p => p.pc
  | none => 0

/-- The word in hand issues: its result has been written, and it is in flight for `bound` CCLK over its destinations. -/
def State.eissue (s : State) (len bound : Nat) (dests : List Dest) : State :=
  s.updEng (fun e => e.issue len bound dests)

/-- Write an e or q register and issue (05 R87, R96). -/
def State.esWrite (s : State) (d : SReg) (v : Word) (len bound : Nat) : State :=
  (s.updEng (fun e => { e with g := e.g.set d v })).eissue len bound [.g d]

/-- Stall the acting engine at its word. -/
def State.estall (s : State) (w : EWait) : State :=
  s.updEng (fun e => { e with wait := some w, waitSince := if e.wait = some w then e.waitSince else s.now })

/-- The number of a stream as a trap source (18 Table 18.3). -/
def Stream.src : Stream → Nat
  | .s => 0 | .v => 1 | .m => 2

/-- The stream whose handler a trap starts. -/
def trapSrcOf : Stream → TrapSrc
  | .m => .m
  | _ => .v

/-- A stream trap at issue (18 R354): the word performs nothing, the consumes of its TOK go back and TRAPPC names the
TOK (05 R90). The engine stops. -/
def State.etrapSub (s : State) (cls sub : Nat) (detail : Word) : State :=
  let e := s.eng
  let pc := match e.tok with
    | some t => t.addr
    | none => s.epc
  let stop (e : Engine) : Engine :=
    { e with stopped := true, tok := none, wait := none, run := e.run.map (fun p => { p with pc := pc }) }
  let s2 := match e.tok with
    | some t => (s.updHere (fun c => c.tokGive t.use.list)).updEng stop
    | none => s.updEng stop
  let src := match s.cur.stream with | .m => 2 | _ => 1
  (s2.unitTrap s.cur.cell (trapSrcOf s.cur.stream)
    { cls := cls, sub := sub, detail := detail, pc := pc, seq := 0, word := pc, when_ := 0, src := src })

/-- A stream trap at issue. -/
def State.etrap (s : State) (cls : Nat) (detail : Word) : State := s.etrapSub cls 0 detail

/-- A stream trap of an engine after issue (18 R354): later words that issued complete; nothing further issues. `word`
is the word concerned. -/
def State.etrapAfter (s : State) (c : Nat) (st : Stream) (cls : Nat) (detail word : Word) : State :=
  let x := s.cell c
  let e := match st with | .m => x.m.eng | _ => x.v.eng
  let pc := match e.run with
    | some p => (match e.tok with | some t => t.addr | none => p.pc)
    | none => 0
  let stop (e : Engine) : Engine :=
    { e with stopped := true, tok := none, wait := none, run := e.run.map (fun p => { p with pc := pc }) }
  let s1 := s.updCell c (fun x =>
    let x1 := match e.tok with | some t => x.tokGive t.use.list | none => x
    match st with
      | .m => { x1 with m := { x1.m with eng := stop x1.m.eng } }
      | _ => { x1 with v := { x1.v with eng := stop x1.v.eng } })
  s1.unitTrap c (trapSrcOf st)
    { cls := cls, sub := 0, detail := detail, pc := pc, seq := 0, word := word, when_ := 1,
      src := match st with | .m => 2 | _ => 1 }

/-- The word in hand has issued and will perform nothing further: its TOK's consumes stay spent and its produce is not
performed (05 R90). -/
def State.evoid (s : State) (len : Nat) : State :=
  s.updEng (fun e => { e.past len with tok := none, wait := none, clk := e.clk + 1 + e.gap len })

/-- The acting engine's word traps after issue (18 Table 18.1). -/
def State.etrapVoid (s : State) (len cls : Nat) (detail : Word) : State :=
  (s.evoid len).etrapAfter s.cur.cell s.cur.stream cls detail s.epc

/-- A word of a stream increments a counter (05 R88, R100). -/
def State.ebump (s : State) (c : Nat) (st : Stream) (k : KReg) (n : Nat) (word : Word) : State :=
  s.updCell c (fun x => x.incK k n (some (st, word)))

/-- The engine of a stream of a cell. -/
def Cell.engOf (c : Cell) : Stream → Engine
  | .m => c.m.eng
  | _ => c.v.eng

/-- Change the engine of a stream of a cell. -/
def Cell.updEngOf (c : Cell) (st : Stream) (f : Engine → Engine) : Cell :=
  match st with
  | .m => { c with m := { c.m with eng := f c.m.eng } }
  | _ => { c with v := { c.v with eng := f c.v.eng } }

/-- Perform the produce of a word that has completed (05 R88). -/
def State.produce (s : State) (c : Nat) (st : Stream) (p : Option Produce) : State :=
  match p with
  | some p => s.ebump c st p.k p.n p.word
  | none => s

/-- The SKINCs that have no word before them that has not completed count (05 R100). -/
def State.retireSkincs (s : State) (c : Nat) (st : Stream) : Nat → State
  | 0 => s
  | fuel + 1 =>
    let l := ((s.cell c).engOf st).flights
    match l.findIdx? (fun f => !f.isDone) with
    | some i =>
      match l[i]? with
      | some (.skinc k n w p) =>
        let s1 := s.updCell c (fun x => x.updEngOf st (fun e => { e with flights := e.flights.eraseIdx i }))
        State.retireSkincs ((s1.ebump c st k n.toNat w).produce c st p) c st fuel
      | _ => s
    | none => s

/-- The word in flight at a place has performed its effects and completes (05 R87): its produce is performed, and SKINCs
that waited for it count. It stays listed, completed, until its bound has passed or the stream has consumed a counter. -/
def State.completeAt (s : State) (c : Nat) (st : Stream) (i : Nat) : State :=
  match ((s.cell c).engOf st).flights[i]? with
  | some (.word dl ds p false) =>
    let s1 := s.updCell c (fun x => x.updEngOf st (fun e =>
      { e with flights := listSet e.flights i (.word dl ds none true) }))
    (s1.produce c st p).retireSkincs c st 64
  | _ => s

/-! ## The end of a CCLK at the counters (05 R89, 16 R321) -/

/-- Every V or M stream whose increment was applied in a CCLK that carried the counter past 2^32 − 1 traps with COUNTER
(05 R89), unless the class is ignored (18 R356). -/
def State.counterTraps (s : State) (c : Nat) : State :=
  let acts := (s.cell c).acts
  acts.foldl (fun s a =>
    match a.source with
    | some (st, w) =>
      if acts.any (fun b => b.k = a.k && b.sat) && !((s.cell c).engOf st).stopped &&
          trapAction (s.launchOf c).actions cCOUNTER != 2 then s.etrapAfter c st cCOUNTER (w64 a.k.val) w
      else s
    | none => s) s

/-- The M stream's test, then the V stream's, where something has reached the counters of a cell (05 R89). -/
def State.testM (s : State) (c : Nat) : State := if (s.cell c).acts = [] then s else s.updCell c Cell.serveM
/-- The V stream's test. -/
def State.testV (s : State) (c : Nat) : State := if (s.cell c).acts = [] then s else s.updCell c (fun x => x.serveM.serveV)

/-- The tests of the fibres in the slots below one, after those of the streams. -/
def State.testBelow (s : State) (c slot : Nat) : State :=
  if (s.cell c).acts = [] then s
  else (s.updCell c (fun x =>
    let y := x.serveM.serveV
    y.serveFibres (y.fibres.filter (fun e => e.1 < slot)))).acqOwed c

/-- What has reached the counters of a cell in this CCLK is tested, in the order of 16 R321. -/
def State.testAll (s : State) (c : Nat) : State :=
  if (s.cell c).acts = [] then s
  else ((s.counterTraps c).updCell c (fun x => { x.serve with acts := [] })).acqOwed c

/-- As `testAll`, for every cell: the end of a CCLK. -/
def State.closeCclk (s : State) : State := (s.cells.map Prod.fst).foldl State.testAll s

/-- A taken branch of a V or M stream to a header (05 R99). -/
def State.ejump (s : State) (t : Word) : State :=
  (s.eissue 4 0 []).updEng (fun e =>
    { e with run := some { pc := t, blk := none, branch := some s.epc }, clk := s.eng.clk + 3 })

end Sys2Proof.Machine
end

