-- ==== Sys2Proof/Machine/SControl.lean ====
section
/-!
DEFINITION. Control flow: block headers, jumps and branches, tasks and fibres, forks (05 R76-R77, 06 R114-R122).
-/

namespace Sys2Proof.Machine

open Sys2Proof

/-! ## Blocks and jumps -/

/-- The position that a header leads to: its body with the count, or past it when the count is 0 (05 R77). -/
def blockPos (h : Word) (l : BitVec 9) (count : Word) : Word × Option Block :=
  let start := h + 4
  let fin := h + 4 + 2 * l.setWidth 64
  if count = 0 then (fin, none) else (start, some { start := start, fin := fin, left := count })

/-- BLK in any stream (05 R77): the count is N, or the count register when N is 0. -/
def execBlk (n : BitVec 12) (c : Fin 16) (l : BitVec 9) (s : State) : Host.Outcome State Fault Refusal :=
  match s.cur.stream with
  | .s =>
    let count := if n = 0 then s.g (Fin.ofNat 8 c.val) else n.setWidth 64
    let p := blockPos s.fibre.body.pc l count
    .next (s.updFibre (fun f =>
      { f with
        body := { f.body with pc := p.1, blk := p.2, branch := none }
        status := .issued (s.now + 1)
        parkSeq := none }))
  | _ =>
    let count := if n = 0 then s.sr c else n.setWidth 64
    let p := blockPos s.epc l count
    .next (s.updEng (fun e =>
      { e with run := some { pc := p.1, blk := p.2, branch := none }, clk := e.clk + 1, wait := none }))

/-- A taken jump of the S stream (06 R117): a target that is not a multiple of 4 traps here with nothing written. -/
def State.jump (s : State) (t : Word) (link : Option GReg) : State :=
  if fld t 1 0 ≠ 0 then s.trap cBLOCK t
  else
    let s1 := match link with
      | some d => s.putG d s.fibre.body.bend
      | none => s
    s1.updFibre (fun f =>
      { f with
        body := { f.body with pc := t, blk := none, branch := some f.body.pc }
        status := .issued (s.now + 3)
        parkSeq := none })

/-- J (06 R114). -/
def execJ (off : BitVec 25) (s : State) : Host.Outcome State Fault Refusal :=
  .next (s.jump (jumpTarget s.fibre.body.pc off) none)

/-- JAL: g7 := bend (06 R114). -/
def execJal (off : BitVec 25) (s : State) : Host.Outcome State Fault Refusal :=
  .next (s.jump (jumpTarget s.fibre.body.pc off) (some 7))

/-! ## The end of a fibre -/

/-- The sender word of a message (12 Table 12.4). -/
def State.senderWord (s : State) (c slot : Nat) : Word :=
  w64 (s.device * 2 ^ 32 + (s.cell c).idx (s.launchOf c) * 2 ^ 16 + slot)

/-- What a request of a cell to another device carries (15 R309). -/
def State.ctxOf (s : State) (c : Nat) : RCtx := { job := (s.launchOf c).job, key := (s.launchOf c).key }

/-- An answer goes back to the party that waits for it, on this device or another one. -/
def State.respond (s : State) (src : Node) (w : Asker) (b : MsgBody) : State :=
  if w.dev = s.device then s.send src (.cell w.cell) .response b else s.sendFabric w.dev .response b

/-- Send an active message or delegation: take a message id and ask the target for a queue entry (12 R247, R248). -/
def State.amSend (s : State) (c slot fid : Nat) (b : BufSend) (reply deleg buffered : Bool) : State :=
  let x := s.cell c
  let m : AmMsg :=
    { ctx := s.ctxOf c
      who := { dev := s.device, cell := c, slot := slot, fid := fid, id := s.nextId }
      id := x.reqseq
      target := b.target
      toDev := s.device
      toCell := 0
      pc := b.pc
      a0 := b.a0
      a1 := b.a1
      a2 := b.a2
      a3 := b.a3
      sender := s.senderWord c slot
      reply := reply
      deleg := deleg
      scope := b.scope
      buffered := buffered }
  let s1 := (s.updCell c (fun x => { x with reqseq := x.reqseq + 1 })).newId
  match s.resolve c none b.target 1 with
  | some (.spad cell _) => s1.send (.cell c) (.cell cell) .request (.amReserve { m with toCell := cell })
  | some (.remote dev) => s1.sendFabric dev .request (.amReserve { m with toDev := dev })
  | _ => s1

/-- The answer to a piece of a transfer goes to the device that asked: data as BULK, refusals and acknowledgements as
RESPONSE (15 Table 15.2). -/
def State.sendPiece (s : State) (dev job cell seg : Nat) (ans : SegAns) : State :=
  let cls : MsgClass := match ans with
    | .data (_ :: _) => .bulk
    | _ => .response
  s.sendFabric dev cls (.bulkAns job cell seg ans)

/-- Send a reply to whoever waits for a message (12 R251). -/
def State.amReplyTo (s : State) (c : Nat) (e : AmEntry) (data : Word) : State :=
  if e.reply then s.respond (.cell c) e.from_ (.amReply e.from_ data) else s

/-- The buffered sends of a handler leave in issue order, each with its own order and scope (12 R250). -/
def State.sendBuffered (s : State) (c slot fid : Nat) (l : List BufSend) : State :=
  l.foldl (fun s b =>
    let s1 := if b.order.releases ∧ s.l1Scope c b.scope then s.flushL1 (s.l1Cells c) (fun _ => true) else s
    s1.amSend c slot fid b false false true) s

/-- The lowest free entry of the active-message queue (12 R248). -/
def Cell.freeAm (c : Cell) : Option Nat :=
  (upFrom 64 0).find? (fun i =>
    match c.am.find i with
    | some a => a.free
    | none => true)

/-- An entry that has been granted and whose message has not arrived. -/
def AmEntry.granted (order : Nat) (m : AmMsg) : AmEntry where
  free := false
  order := order
  front := 0
  valid := false
  running := false
  deleg := false
  reply := false
  held := false
  id := m.id
  sender := 0
  target := 0
  a0 := 0
  a1 := 0
  a2 := 0
  a3 := 0
  pc := 0
  scope := m.scope
  from_ := m.who

/-- Grant an entry to a reservation, or let it wait in arrival order (12 R248). -/
def State.amGrantOr (s : State) (c : Nat) (m : AmMsg) : State :=
  match (s.cell c).freeAm with
  | some i =>
    (s.updCell c (fun x =>
      { x with am := x.am.put i (AmEntry.granted x.nextOrder m), nextOrder := x.nextOrder + 1 })).respond (.cell c) m.who
      (.amGrant m i)
  | none => s.updCell c (fun x => { x with amWaiting := x.amWaiting ++ [m] })

/-- Free an entry of the active-message queue; the oldest reservation that waits takes it (12 R248). -/
def State.freeEntry (s : State) (c e : Nat) : State :=
  let s1 := s.updCell c (fun x =>
    match x.am.find e with
    | some a => { x with am := x.am.put e { a with free := true, running := false, held := false } }
    | none => x)
  match (s.cell c).amWaiting with
  | m :: rest => (s1.updCell c (fun x => { x with amWaiting := rest })).amGrantOr c m
  | [] => s1

/-- The reply that a message owes at the end of its handler or routine: what AMREPLY buffered, or 0 when none was
issued (12 R251). -/
def State.owedReply (s : State) (c e : Nat) (b : FBody) : State :=
  match (s.cell c).am.find e with
  | some a =>
    match b.replyBuf with
    | some v => s.amReplyTo c a v
    | none => if b.replied then s else s.amReplyTo c a 0
  | none => s

/-- A fibre ends and its slot becomes FREE (06 R118, 12 R250-R252, 11 R222). A trapped fibre in the frame of a trap handler
that ends so ends with it (log 40). -/
def State.endFibre (s : State) (c slot : Nat) : State :=
  let f := (s.cell c).fibre slot
  let b := match f.body.kind, f.frame with
    | .trap .fibre, some fb => fb
    | _, _ => f.body
  let s1 := match b.kind with
    | .handler e => ((s.sendBuffered c slot b.fid b.sends).owedReply c e b).freeEntry c e
    | .completion _ => s.sendBuffered c slot b.fid b.sends
    | .server e => (s.owedReply c e b).freeEntry c e
    | _ => s
  let s2 := match b.priv, (s.cell c).launch with
    | some base, some l => s1.updLaunch l (fun x => { x with regions := x.regions.erase base })
    | _, _ => s1
  s2.updCell c (fun x => x.freeSlot slot)

/-- End the acting fibre as TEND does: park until OUTST is 0, then end (06 R118). -/
def State.tend (s : State) : State :=
  if s.fibre.body.outst = 0 then s.endFibre s.cur.cell s.cur.slot else s.parkOutst

/-- TEND (06 R118). -/
def execTend (s : State) : Host.Outcome State Fault Refusal := .next s.tend

/-- Compact TEND (06 Table 6.6). -/
def execTendC16 (s : State) : Host.Outcome State Fault Refusal := .next s.tend

/-- JR (06 R115): a target of 0 ends the task. -/
def execJr (o : BitVec 16) (a : GReg) (s : State) : Host.Outcome State Fault Refusal :=
  let t := branchTo (s.g a) o
  .next (if t = 0 then s.tend else s.jump t none)

/-- JALR (06 R115): a target of 0 ends the task and writes no link. -/
def execJalr (o : BitVec 16) (d a : GReg) (s : State) : Host.Outcome State Fault Refusal :=
  let t := branchTo (s.g a) o
  .next (if t = 0 then s.tend else s.jump t (some d))

/-! ## Branches -/

/-- A conditional branch of `len` bytes (06 R116, R117). -/
def branchIf (taken : Bool) (t : Word) (len : Nat) (s : State) : Host.Outcome State Fault Refusal :=
  .next (if taken then s.jump t none else s.finish len 1)

/-- BEQ (06 R116). -/
def execBeq (o : BitVec 16) (a b : GReg) (s : State) : Host.Outcome State Fault Refusal :=
  branchIf (s.g a == s.g b) (branchTo s.fibre.body.pc o) 4 s

/-- BNE (06 R116). -/
def execBne (o : BitVec 16) (a b : GReg) (s : State) : Host.Outcome State Fault Refusal :=
  branchIf (s.g a != s.g b) (branchTo s.fibre.body.pc o) 4 s

/-- BLT, signed (06 R116). -/
def execBlt (o : BitVec 16) (a b : GReg) (s : State) : Host.Outcome State Fault Refusal :=
  branchIf ((s.g a).slt (s.g b)) (branchTo s.fibre.body.pc o) 4 s

/-- BGE, signed (06 R116). -/
def execBge (o : BitVec 16) (a b : GReg) (s : State) : Host.Outcome State Fault Refusal :=
  branchIf (!(s.g a).slt (s.g b)) (branchTo s.fibre.body.pc o) 4 s

/-- BLTU (06 R116). -/
def execBltu (o : BitVec 16) (a b : GReg) (s : State) : Host.Outcome State Fault Refusal :=
  branchIf ((s.g a).ult (s.g b)) (branchTo s.fibre.body.pc o) 4 s

/-- BGEU (06 R116). -/
def execBgeu (o : BitVec 16) (a b : GReg) (s : State) : Host.Outcome State Fault Refusal :=
  branchIf (!(s.g a).ult (s.g b)) (branchTo s.fibre.body.pc o) 4 s

/-- BZ (06 R116). -/
def execBz (o : BitVec 16) (a : GReg) (s : State) : Host.Outcome State Fault Refusal :=
  branchIf (s.g a == 0) (branchTo s.fibre.body.pc o) 4 s

/-- BNZ (06 R116). -/
def execBnz (o : BitVec 16) (a : GReg) (s : State) : Host.Outcome State Fault Refusal :=
  branchIf (s.g a != 0) (branchTo s.fibre.body.pc o) 4 s

/-- Compact BZ (06 Table 6.6). -/
def execBzC16 (a : GReg) (i : BitVec 7) (s : State) : Host.Outcome State Fault Refusal :=
  branchIf (s.g a == 0) (branchTo7 s.fibre.body.pc i) 2 s

/-- Compact BNZ (06 Table 6.6). -/
def execBnzC16 (a : GReg) (i : BitVec 7) (s : State) : Host.Outcome State Fault Refusal :=
  branchIf (s.g a != 0) (branchTo7 s.fibre.body.pc i) 2 s

/-! ## Tasks -/

/-- YIELD of `len` bytes (06 R119): with a pre-empt request a task fibre is saved at the word after it. -/
def State.yield (s : State) (len : Nat) : State :=
  let s1 := s.finish len 1
  if s.myLaunch.preempt ∧ s.fibre.body.kind = .task then
    s1.updFibre (fun f => { f with status := .saved, body := f.body.stopBudget s.now })
  else s1

/-- YIELD (06 R119). -/
def execYield (s : State) : Host.Outcome State Fault Refusal := .next (s.yield 4)

/-- Compact YIELD (06 Table 6.6). -/
def execYieldC16 (s : State) : Host.Outcome State Fault Refusal := .next (s.yield 2)

/-- FIBID (06 R120, Table 6.3). -/
def execFibid (d : GReg) (s : State) : Host.Outcome State Fault Refusal :=
  .next (s.writeRd d
    (w64 (s.fibre.body.startNo.toNat * 2 ^ 32 + s.here.idx s.myLaunch * 2 ^ 16 + s.here.role * 2 ^ 8 + s.cur.slot)) 4 1)

/-- The child that PUSHT or SPAWN pushes: PC in ra, arguments in g0-g3 (06 R121). -/
def State.childRec (s : State) (pc : Word) : TaskRec :=
  { pc := pc, a0 := s.g 0, a1 := s.g 1, a2 := s.g 2, a3 := s.g 3 }

/-- Run a child inline (04 R69): the arguments in g0-g3, the link in g7, a taken jump to the child. -/
def Fibre.enterInline (f : Fibre) (t : TaskRec) (done : Nat) : Fibre :=
  let g := (((f.body.g.set 0 t.a0).set 1 t.a1).set 2 t.a2).set 3 t.a3
  { f with
    body := { f.body with g := g.set 7 f.body.bend, pc := t.pc, blk := none, branch := some f.body.pc }
    status := .issued done
    parkSeq := none }

/-- Push a record at the hot end (04 R66). -/
def Cell.pushTask (c : Cell) (t : TaskRec) (now : Nat) : Cell :=
  { c with deque := c.deque ++ [{ task := t, entered := now }] }

/-- Push the child here, or run it inline when the deque is full (04 R67, R69). -/
def State.pushOrInline (s : State) (t : TaskRec) : State :=
  if s.here.deque.length < 64 then (s.updHere (fun c => c.pushTask t s.now)).finish 4 1
  else (s.count s.cur.cell 19 1).updFibre (fun f => f.enterInline t (s.now + 3))

/-- PUSHT (06 R121). -/
def execPusht (a : GReg) (s : State) : Host.Outcome State Fault Refusal :=
  let pc := s.g a
  .next (
    if fld pc 63 60 ≠ 0 then s.trap cAPERTURE pc
    else if fld pc 1 0 ≠ 0 then s.trap cALIGN pc
    else s.released .device (fun s => s.pushOrInline (s.childRec pc)))

/-- The cell that a SPAWN target word names (04 R68, Table 4.2). -/
def State.spawnTarget (s : State) (w : Word) : Option Nat :=
  let l := s.myLaunch
  if fld w 62 16 ≠ 0 then none
  else if fld w 63 63 = 0 then relCell l s.here.x s.here.y (sx8 (fld w 15 8)) (sx8 (fld w 7 0))
  else if fld w 15 10 = 0 ∧ fld w 9 0 < l.w * l.h then some (l.physIdx (fld w 9 0))
  else none

/-- SPAWN (06 R121, 04 R67-R69). -/
def execSpawn (a b : GReg) (s : State) : Host.Outcome State Fault Refusal :=
  let pc := s.g a
  .next (
    if fld pc 63 60 ≠ 0 then s.trap cAPERTURE pc
    else if fld pc 1 0 ≠ 0 then s.trap cALIGN pc
    else
      match s.spawnTarget (s.g b) with
      | none => s.trap cAPERTURE (s.g b)
      | some c =>
        s.released .device (fun s =>
          let t := s.childRec pc
          if c = s.cur.cell then s.pushOrInline t
          else
            let who : Asker := { dev := s.device, cell := s.cur.cell, slot := s.cur.slot, fid := s.fibre.body.fid, id := s.nextId }
            (s.park (.spawn s.nextId (s.g b) t 4)).send (.cell s.cur.cell) (.cell c) .request (.spawn who t)))

/-- Some other fibre of the cell parked earlier on the same condition. -/
def State.behind (s : State) (q : Cond) : Bool :=
  let mine := s.fibre.parkSeq.getD s.here.nextOrder
  s.here.fibres.any (fun e => e.1 != s.cur.slot &&
    match e.2.status with
    | .parked (.retry r _ _) _ => r == q && e.2.parkSeq.getD 0 < mine
    | _ => false)

/-- FORK to an engine (06 R122): park while its queue holds 4 requests, in the order of parking. -/
def State.fork (s : State) (st : Stream) (a : Word) : State :=
  let q : Cond := match st with | .m => .forkM | _ => .forkV
  if fld a 63 60 ≠ 0 then s.trap cAPERTURE a
  else if fld a 1 0 ≠ 0 then s.trap cALIGN a
  else if 4 ≤ (s.here.engOf st).forks.length ∨ s.behind q then s.park (.retry q 12 a)
  else
    let r : ForkReq := { pc := a, a0 := s.g 0, a1 := s.g 1, a2 := s.g 2, a3 := s.g 3 }
    (s.updHere (fun c => c.updEngOf st (fun e => { e with forks := e.forks ++ [r] }))).finish 4 1

/-- FORKV (06 R122). -/
def execForkv (a : GReg) (s : State) : Host.Outcome State Fault Refusal := .next (s.fork .v (s.g a))

/-- FORKM (06 R122). -/
def execForkm (a : GReg) (s : State) : Host.Outcome State Fault Refusal := .next (s.fork .m (s.g a))

end Sys2Proof.Machine
end

