-- ==== Sys2Proof/Machine/SSys.lean ====
section
/-!
DEFINITION. System words of the S stream: special registers, TRAP, BRK and RTT (06 R123-R127, 18 R361-R363), and the
special registers that the V and M streams share (05 R101).
-/

namespace Sys2Proof.Machine

open Sys2Proof

/-! ## Special registers -/

/-- LCELL (06 Table 6.5). -/
def State.lcell (s : State) (c : Nat) : Word :=
  w64 ((s.cell c).idx (s.launchOf c) * 2 ^ 16 + (s.cell c).y * 2 ^ 8 + (s.cell c).x)

/-- LGEOM (06 Table 6.5). -/
def State.lgeom (s : State) (c : Nat) : Word :=
  let l := s.launchOf c
  w64 (l.kernelId.toNat * 2 ^ 32 + (s.cell c).role * 2 ^ 24 + l.roleCount * 2 ^ 16 + l.h * 2 ^ 8 + l.w)

/-- PCELL (06 Table 6.5). -/
def State.pcell (s : State) (c : Nat) : Word :=
  w64 (s.device * 2 ^ 32 + memberOf c * 2 ^ 26 + dieOf c * 2 ^ 24 + clusterOf c * 2 ^ 16 +
    c / Config.cols * 2 ^ 8 + c % Config.cols)

/-- Register `r` of a cell, which held `old`, is written: until `till` an issuing word sees either value (06 R126). -/
def Cell.wrote (c : Cell) (r : Nat) (old : Word) (now till : Nat) : Cell :=
  { c with late := c.late.filter (fun e => now < e.till) ++ [{ reg := r, till := till, old := old }] }

/-- The values from before writes of a register of a cell that an issuing word may still see (06 R126). -/
def State.lateOlds (s : State) (c r : Nat) : List Word :=
  ((s.cell c).late.filter (fun e => e.reg = r ∧ s.now < e.till)).map (·.old)

/-- One of a value and others, as the spec leaves open. -/
def State.oneOf (s : State) (i : Nat) (v : Word) (l : List Word) : Word :=
  match l with
  | [] => v
  | l => (v :: l).getD (Config.pick s.fresh 0 i % (l.length + 1)) v

/-- The value of a register of a cell that an issuing word sees: the new one, or shortly after a write an earlier one (06
R126, log 39). -/
def State.seen (s : State) (c r : Nat) (v : Word) : Word := s.oneOf (300 + r) v (s.lateOlds c r)

/-- Set QOVF when there is an overflow; a value from before a write is set as well (07 R150). -/
def Cell.orQovf (c : Cell) (b : Bool) : Cell :=
  { c with
    qovf := c.qovf || b
    late := if b && !c.qovf then c.late.filter (fun e => e.reg != 0x05) else c.late }

/-- A PMC as read (19 R384): a source that the model does not keep (what MMAS saves against the dense
time) reads as a free value (log 18). -/
def State.pmcNow (s : State) (c : Nat) (i : Fin 4) : Word :=
  let x := s.cell c
  let code := x.pmCode i
  if code = 1 then x.pmc[i] + w64 (s.now - x.pmSince[i])
  else if code = 5 then Config.freeWord (s.draw (64 + i.val))
  else x.pmc[i]

/-- A PMC as an issuing word sees it: shortly after a write it may still count on from an earlier value (06 R126). -/
def State.readPmc (s : State) (c : Nat) (i : Fin 4) : Word :=
  s.oneOf (70 + i.val) (s.pmcNow c i) ((s.lateOlds c (0x20 + i.val)).map (fun d => s.pmcNow c i + d))

/-- The Cell and Launch registers that every stream may read (06 Table 6.4). -/
def State.sregShared (s : State) (c r : Nat) : Option Word :=
  let x := s.cell c
  let l := s.launchOf c
  match r with
  | 0x00 => some (s.lcell c)
  | 0x01 => some (s.lgeom c)
  | 0x02 => some (s.pcell c)
  | 0x03 => some (s.ccycle c)
  | 0x04 => some (s.seen c 0x04 (x.seed.setWidth 64))
  | 0x05 => some (s.seen c 0x05 (boolW x.qovf))
  | 0x06 => some (s.seen c 0x06 (if l.flags.getLsbD 3 then l.router else 0))
  | 0x07 => some (s.seen c 0x07 (x.binbase.setWidth 64))
  | 0x10 => some (w64 l.waitlim)
  | 0x11 => some (w64 (b2n l.preempt + 2 * b2n l.cancel))
  | 0x12 => some (boolW l.umbra)
  | 0x20 => some (s.readPmc c 0)
  | 0x21 => some (s.readPmc c 1)
  | 0x22 => some (s.readPmc c 2)
  | 0x23 => some (s.readPmc c 3)
  | 0x24 => some (s.seen c 0x24 (x.pmsel.setWidth 64))
  | _ => none

/-- CCLK of a budget that a body has used by a device time (04 R64, 18 R360). -/
def FBody.usedAt (b : FBody) (now : Nat) : Nat :=
  match b.since with
  | some t => b.used + (now - t)
  | none => b.used

/-- TASKLEFT (06 Table 6.4): the task budget left, the handler budget left for a fibre of the Handler issue class; for
a trap handler in a task's slot the trapped task's budget; for a server fibre, which has no budget, a free value
(log 17). -/
def State.taskLeft (s : State) : Word :=
  let f := s.fibre
  let handler := w64 (Config.handlerBudget - f.body.usedAt s.now)
  match f.body.kind with
  | .task => w64 (s.myLaunch.budget - f.body.usedAt s.now)
  | .handler _ => handler
  | .completion _ => handler
  | .server _ => Config.freeWord (s.draw 68)
  | .trap .fibre =>
    match f.frame with
    | some b =>
      match b.kind with
      | .task => w64 (s.myLaunch.budget - b.usedAt s.now)
      | _ => Config.freeWord (s.draw 68)
    | none => 0
  | .trap _ => handler

/-- A special register as the S stream reads it; none where Table 6.4 lists none. -/
def State.sreg (s : State) (r : Nat) : Option Word :=
  let f := s.fibre
  match r with
  | 0x08 => some f.trap.code
  | 0x09 => some f.trap.pc
  | 0x0A => some f.trap.detail
  | 0x0B => some f.trap.seq
  | 0x0C => some f.trap.stream
  | 0x0D => some (w64 f.body.outst)
  | 0x0E => some (s.here.reqseq.setWidth 64)
  | 0x0F => some s.taskLeft
  | 0x13 => some s.routeEmpty
  | _ => s.sregShared s.cur.cell r

/-- MFS (06 R123). -/
def execMfs (r : BitVec 8) (d : GReg) (s : State) : Host.Outcome State Fault Refusal :=
  .next (
    match s.sreg r.toNat with
    | some v => s.writeRd d v 4 1
    | none => s.trap cPRIV (w64 r.toNat))

/-- The detail of a PRIV trap of a write (18 Table 18.2). -/
def privWrite (r : Nat) : Word := w64 (256 + r)

/-- Write a PMC (06 Table 6.4). -/
def Cell.setPmc (c : Cell) (i : Fin 4) (v : Word) (now : Nat) : Cell :=
  { c with pmc := c.pmc.set i v, pmSince := c.pmSince.set i now }

/-- Write PMSEL: what the CCLK counters have counted so far stays. -/
def Cell.setPmsel (c : Cell) (v : Word) (now : Nat) : Cell := { c.pmFold now with pmsel := v.setWidth 32 }

/-- Register `r` of the acting cell has been written with what `f` does, and held `old`; a word that issues before `till`
may see that (06 R126). -/
def State.writeSreg (s : State) (r : Nat) (old : Word) (till : Nat) (f : Cell → Cell) : State :=
  s.updHere (fun c => (f c).wrote r old s.now till)

/-- A PMC of the acting cell is written; what it was ahead of the new value is kept for words that still see it. -/
def State.writePmc (s : State) (i : Fin 4) (v : Word) : State :=
  let d := s.pmcNow s.cur.cell i - v
  s.updHere (fun c =>
    ({ c.setPmc i v s.now with late := c.late.map (fun e => if e.reg = 0x20 + i.val then { e with old := e.old + d } else e) } : Cell).wrote
      (0x20 + i.val) d s.now (s.now + 5))

/-- MTS of a register without an instruction of its own (06 R123, Table 6.4). -/
def execMts (r : BitVec 8) (a : GReg) (s : State) : Host.Outcome State Fault Refusal :=
  let v := s.g a
  .next (
    match r.toNat with
    | 0x05 => (s.writeSreg 0x05 (boolW s.here.qovf) (s.now + 5) (fun c => { c with qovf := v.getLsbD 0 })).finish 4 1
    | 0x20 => (s.writePmc 0 v).finish 4 1
    | 0x21 => (s.writePmc 1 v).finish 4 1
    | 0x22 => (s.writePmc 2 v).finish 4 1
    | 0x23 => (s.writePmc 3 v).finish 4 1
    | 0x24 => (s.writeSreg 0x24 (s.here.pmsel.setWidth 64) (s.now + 5) (fun c => c.setPmsel v s.now)).finish 4 1
    | n => s.trap cPRIV (privWrite n))

/-- The generator's state after a write (07 R136): a write of 0 stores 1. -/
def seedWritten (v : Word) : W32 := if v.setWidth 32 = (0 : W32) then 1 else v.setWidth 32

/-- MTS to SEED (06 Table 6.4): bits 63 to 32 are discarded. -/
def execMtsSeed (a : GReg) (s : State) : Host.Outcome State Fault Refusal :=
  let v := s.g a
  .next ((s.writeSreg 0x04 (s.here.seed.setWidth 64) (s.now + 5) (fun c => { c with seed := seedWritten v })).finish 4 1)

/-- MTS to TRAPPC (18 R357, R363): discarded outside a trap handler. -/
def execMtsTrappc (a : GReg) (s : State) : Host.Outcome State Fault Refusal :=
  let v := s.g a
  let s1 :=
    if s.fibre.body.kind.isTrap then
      s.updFibre (fun f => { f with trap := { f.trap with pc := v, written := true } })
    else s
  .next (s1.finish 4 1)

/-! ## MTS to ROUTER -/

/-- Count at a die (19 Table 19.5). -/
def State.countDie (s : State) (die i n : Nat) : State :=
  { s with dieMon := s.dieMon.put (32 * die + i) ((s.dieMon.find (32 * die + i)).getD 0 + n) }

/-- Count an event of the whole device: every die's monitors count it. -/
def State.countDies (s : State) (i n : Nat) : State := (upFrom 4 0).foldl (fun s d => s.countDie d i n) s

/-- A Router that no launch holds. -/
def Router.idle : Router where
  launch := none
  loaded := none
  queue := []
  held := []
  rr := []
  hist := []
  allow := []
  sent := []

/-- The Router of a die. -/
def State.router (s : State) (die : Nat) : Router := (s.routers.find die).getD .idle

/-- Put a Router back. -/
def State.setRouter (s : State) (die : Nat) (r : Router) : State := { s with routers := s.routers.put die r }

/-- An AADD of 32 bits at DEVICE scope by a unit of a launch into GLOBAL memory; none where it is refused. -/
def State.unitAadd (s : State) (launch : Option Nat) (job va n : Nat) : Option State :=
  match s.translate job va .write with
  | .pa pa => if s.homeBad pa 4 then none else 
    some ((s.homeWrite pa 4 ((s.homeRead pa 4 + n) % 2 ^ 32) false).claim launch pa 4)
  | _ => none

/-- A Router writes its counts into the histogram and clears them (14 R285); refused counts are lost and counted. -/
def State.flushHist (s : State) (job die : Nat) : State :=
  let r := s.router die
  let s1 := r.hist.foldl (fun s e =>
    if e.2 = 0 then s
    else match s.unitAadd r.launch job e.1 e.2 with
      | some t => t
      | none => s.countDie die 28 1) s
  s1.setRouter die { r with hist := [] }

/-- MTS to ROUTER (06 Table 6.4, 14 R282, R285): without the ROUTER flag PRIV; the histograms are written, the table
is loaded at each Router's next GATEQ. -/
def execMtsRouter (a : GReg) (s : State) : Host.Outcome State Fault Refusal :=
  let v := s.g a
  .next (
    match s.here.launch with
    | some l =>
      if s.myLaunch.flags.getLsbD 3 then
        let dies := (s.routers.filter (fun e => e.2.launch = some l)).map Prod.fst
        let s1 := dies.foldl (fun s d =>
          let t := s.flushHist s.myLaunch.job d
          t.setRouter d { t.router d with loaded := none }) s
        ((s1.updLaunch l (fun x => { x with router := v &&& ~~~ 0xFFF })).writeSreg 0x06 s.myLaunch.router (s.now + 5)
          (fun c => c)).finish 4 1
      else s.trap cPRIV (privWrite 6)
    | none => s.trap cPRIV (privWrite 6))

/-! ## MTS to BINBASE (14 R287) -/

/-- A bin descriptor's fields (14 Table 14.4). -/
abbrev binBuffer (d : BitVec 128) : Nat := (d.extractLsb' 0 32).toNat
/-- Capacity. -/
abbrev binCapacity (d : BitVec 128) : Nat := (d.extractLsb' 32 16).toNat
/-- Count. -/
abbrev binCount (d : BitVec 128) : Nat := (d.extractLsb' 48 16).toNat
/-- Destination word. -/
abbrev binDest (d : BitVec 128) : W32 := d.extractLsb' 64 32
/-- Flags word. -/
abbrev binFlags (d : BitVec 128) : W32 := d.extractLsb' 96 32
/-- The NOTICE flag. -/
abbrev binNotice (d : BitVec 128) : Bool := d.getLsbD 97

/-- A descriptor passes the checks of its load (14 R287, Table 14.4). -/
def binOk (d : BitVec 128) : Bool :=
  (binFlags d).toNat < 4 && (!binNotice d || binDest d == 0) && binCount d ≤ binCapacity d && binCapacity d ≤ 4096 &&
  binBuffer d % 32 = 0 && binBuffer d + 32 * binCapacity d ≤ Config.hwArea

/-- How the load of a bin table ends. -/
inductive BinLoad where
  | ok (l : List (BitVec 128))
  | bad (index : Nat)
  | outside (addr : Nat)
  deriving DecidableEq, Repr

/-- Read descriptors from an offset until one is not valid, at most `fuel` (14 R287). A descriptor in the
hardware-managed area cannot be read (11 R226). -/
def loadBins (p : Spad) : Nat → Nat → Nat → BinLoad
  | 0, _, _ => .ok []
  | fuel + 1, off, i =>
    if Config.hwArea ≤ off then .outside off
    else
      let d := BitVec.ofNat 128 (p.read off 16)
      if d.getLsbD 96 then
        if binOk d then
          match loadBins p fuel (off + 16) (i + 1) with
          | .ok l => .ok (d :: l)
          | e => e
        else .bad i
      else .ok []

/-- The detail of a ROUTE trap (14 R302). -/
def routeDetail (code x : Nat) : Word := w64 (x % 65536 * 65536 + code)

/-- MTS to BINBASE (14 R287): the load replaces the shadow; a failing load leaves it empty. -/
def execMtsBinbase (a : GReg) (s : State) : Host.Outcome State Fault Refusal :=
  let v := (s.g a).setWidth 20 &&& ~~~ (0xF : BitVec 20)
  .next (
    match loadBins s.here.spad 1024 v.toNat 0 with
    | .ok l =>
      (s.writeSreg 0x07 (s.here.binbase.setWidth 64) (s.now + 5 + l.length) (fun c => { c with binbase := v, bins := l })).finish
        4 (1 + l.length)
    | .bad i => (s.updHere (fun c => { c with bins := [] })).trap cROUTE (routeDetail 6 i)
    | .outside o => (s.updHere (fun c => { c with bins := [] })).trap cAPERTURE (w64 o))

/-! ## TRAP, BRK, RTT -/

/-- TRAP (18 R362). -/
def execTrap (a : GReg) (s : State) : Host.Outcome State Fault Refusal := .next (s.trapPast cUSER (s.g a) 4)

/-- BRK (06 R127). -/
def execBrk (c : BitVec 8) (s : State) : Host.Outcome State Fault Refusal :=
  .next (s.trapPast cBREAK (c.setWidth 64) 4)

/-- The body that a frame resumes at: as saved, or after a taken jump to the value that the handler wrote (18 R363;
log 19). -/
def FBody.resumeAt (b : FBody) (t : TrapRegs) (rtt : Word) (now : Nat) : FBody :=
  let b1 : FBody := { b with stop := false, since := if b.kind = .task then some now else b.since }
  if t.written then { b1 with pc := t.pc, blk := none, branch := some rtt } else b1

/-- An engine resumes at TRAPPC (18 R361, R363); its handler has taken the time of a header and an RTT at the least. -/
def Engine.resume (e : Engine) (t : TrapRegs) (rtt : Word) : Engine :=
  { e with
    stopped := false
    clk := e.clk + 2
    run := e.run.map (fun p => if t.written then { pc := t.pc, blk := none, branch := some rtt } else p) }

/-- An engine's stream ends without a produce (18 R361). -/
def Engine.dropStream (e : Engine) : Engine := { e with stopped := false, run := none, tok := none, wait := none }

/-- What an aborted handler held is served again or discarded (18 R361, R364). -/
def State.releaseHeld (s : State) (c : Nat) (h : Held) (drop : Bool) : State :=
  match h with
  | .msg e =>
    match (s.cell c).am.find e with
    | some a =>
      if drop then (s.amReplyTo c a 0).freeEntry c e
      else s.updCell c (fun x => { x with am := x.am.put e { a with held := false } })
    | none => s
  | .completion r =>
    if drop then s
    else s.updCell c (fun x => { x with copy := { x.copy with comps := r :: x.copy.comps } })

/-- RTT, once every request that the handler posted has been answered (18 R361). -/
def State.rttDo (s : State) (drop : Bool) : State :=
  let c := s.cur.cell
  let slot := s.cur.slot
  let f := s.fibre
  let free := s.updCell c (fun x => x.freeSlot slot)
  match f.body.kind with
  | .trap .fibre =>
    match f.frame with
    | some b =>
      let nb := b.resumeAt f.trap f.body.pc s.now
      -- a refusal delivered at the end of a dropped task has TRAPPC 0, and only a written TRAPPC leads on (18 R365)
      let nb1 := if drop then { b with ending := true }
        else if b.ending then { nb with ending := !(f.trap.written && f.trap.pc != 0) }
        else nb
      s.updFibre (fun f =>
        { f with body := nb1, status := .ready, trap := .zero, frame := none, parkSeq := none })
    | none => free
  | .trap (.handler h) => free.releaseHeld c h drop
  | .trap .v =>
    free.updCell c (fun x =>
      let y := x.updEngOf .v (fun e => if drop then e.dropStream else e.resume f.trap f.body.pc)
      if drop then { y with v := { y.v with binds := [] } } else y)
  | .trap .m =>
    free.updCell c (fun x =>
      x.updEngOf .m (fun e => if drop then e.dropStream else e.resume f.trap f.body.pc))
  | _ => free

/-- RTT and RTT.DROP (18 R361): ILLEGAL outside a trap handler; parks until OUTST is 0. -/
def State.rtt (s : State) (drop : Bool) : State :=
  if s.fibre.body.kind.isTrap = false then s.trap cILLEGAL s.fibre.body.pc
  else if s.fibre.body.outst ≠ 0 then s.parkOutst
  else s.rttDo drop

/-- RTT (18 R361). -/
def execRtt (s : State) : Host.Outcome State Fault Refusal := .next (s.rtt false)

/-- RTT.DROP (18 R361). -/
def execRttDrop (s : State) : Host.Outcome State Fault Refusal := .next (s.rtt true)

end Sys2Proof.Machine
end

