-- ==== Sys2Proof/Machine/SMem.lean ====
section
/-!
DEFINITION. Memory and remote-operation words of the S stream (12).
-/

namespace Sys2Proof.Machine

open Sys2Proof

/-! ## Checks of an access (12 R236) -/

/-- What a checked access reaches. -/
inductive Target where
  /-- The executing cell's scratchpad, at an offset of the program's area. -/
  | own (off : Nat)
  /-- Another cell, GLOBAL memory or another device. -/
  | far (p : MemPlace)
  | event (line : Fin 16) (cfg : Bool)
  deriving DecidableEq, Repr

/-- Check an access of `n` bytes at issue: APERTURE, then ALIGN (11 R219, R220, R226; 12 R236). -/
def State.checkMem (s : State) (a : Word) (n : Nat) (events : Bool) : Except Nat Target :=
  let aligned (t : Target) : Except Nat Target := if a.toNat % n = 0 then .ok t else .error cALIGN
  match s.resolveHere a n with
  | none => .error cAPERTURE
  | some (.spad c off) =>
    if Config.hwArea < off + n then .error cAPERTURE
    else aligned (if c = s.cur.cell then .own off else .far (.spad c off))
  | some (.global va) => aligned (.far (.global va))
  | some (.remote d) =>
    if fld a 63 60 = 0xE ∧ Config.hwArea < fld a 19 0 + n then .error cAPERTURE else aligned (.far (.device d a))
  | some (.event line cfg) => if events ∧ n = 8 then .ok (.event line cfg) else .error cAPERTURE

/-- As `checkMem`, for a full/empty operation (12 R242): a scratchpad word. -/
def State.checkFe (s : State) (a : Word) : Except Nat Target :=
  match s.checkMem a 8 false with
  | .ok (.far (.global _)) => .error cAPERTURE
  | .ok (.far (.device d x)) => if fld a 63 60 = 0xE then .ok (.far (.device d x)) else .error cAPERTURE
  | .error c =>
    match s.resolveHere a 8 with
    | some (.spad _ _) => .error c
    | _ => .error cAPERTURE
  | r => r

/-- An address in the form CVTG gives it (12 R255, 18 R358). -/
def State.cvtgForm (s : State) (a : Word) : Word :=
  match fld a 63 60 with
  | 0xB =>
    match s.fibre.body.priv with
    | some base => w64 (base + fld a 39 0)
    | none => a
  | 0xA => w64 (0x8000000000000000 + s.here.idx s.myLaunch * 2 ^ 20 + fld a 19 0)
  | 0x9 => w64 (0x8000000000000000 + (s.cell (memberCell s.cur.cell (fld a 22 20))).idx s.myLaunch * 2 ^ 20 +
      fld a 19 0)
  | 0xD =>
    match relCell s.myLaunch s.here.x s.here.y (sx8 (fld a 35 28)) (sx8 (fld a 27 20)) with
    | some c => w64 (0x8000000000000000 + (s.cell c).idx s.myLaunch * 2 ^ 20 + fld a 19 0)
    | none => a
  | _ => a

/-! ## Requests (12 R236, R258) -/

/-- Where a request of a job goes in the network: to the cell of a scratchpad, or to the home of its address (12 R236);
what does not translate to device memory is refused at home 0. -/
def State.homeNode (s : State) (job : Nat) (p : MemPlace) : Node :=
  match p with
  | .spad c _ => .cell c
  | .global va =>
    match s.translate job va .read with
    | .pa pa => .home (homeOf pa)
    | _ => .home 0
  | .device _ _ => .home 0

/-- The acting fibre as the party that waits for an answer, under the next number. -/
def State.asker (s : State) : Asker :=
  { dev := s.device, cell := s.cur.cell, slot := s.cur.slot, fid := s.fibre.body.fid, id := s.nextId }

/-- Take a request number (12 R258). -/
def State.takeSeq (s : State) : State := s.updHere (fun c => { c with reqseq := c.reqseq + 1 })

/-- The request leaves the cell and takes the current request number (12 R258). -/
def State.sendMem (s : State) (a : Word) (p : MemPlace) (op : MemOp) (posted : Bool) : State :=
  let r : MemReq :=
    { ctx := s.ctxOf s.cur.cell
      who := s.asker
      posted := posted
      seq := s.here.reqseq
      pc := s.fibre.body.pc
      addr := a
      place := p
      op := op }
  match p with
  | .device d _ => s.takeSeq.newId.sendFabric d .request (.mem r)
  | _ => s.takeSeq.send (.cell s.cur.cell) (s.homeNode s.myLaunch.job p) .request (.mem r)

/-- A posted request joins OUTST; the one that takes it from 0 to 1 is remembered (12 R258, 18 R365). -/
def FBody.post (b : FBody) (seq : W32) : FBody :=
  { b with outst := b.outst + 1, window := if b.outst = 0 then (b.pc, seq) else b.window }

/-- Post a request and go on in 1 CCLK; at OUTST = 64 park (12 R237, R258). -/
def State.postMem (s : State) (a : Word) (p : MemPlace) (op : MemOp) : State :=
  if Config.maxOutst ≤ s.fibre.body.outst then s.park (.retry .outstLow 15 (w64 s.fibre.body.outst))
  else
    ((s.sendMem a p op true).updFibre (fun f => { f with body := f.body.post s.here.reqseq })).finish 4 1

/-- As `postMem`, for a word of `len` bytes. -/
def State.postMemLen (s : State) (a : Word) (p : MemPlace) (op : MemOp) (len : Nat) : State :=
  if Config.maxOutst ≤ s.fibre.body.outst then s.park (.retry .outstLow 15 (w64 s.fibre.body.outst))
  else
    ((s.sendMem a p op true).updFibre (fun f => { f with body := f.body.post s.here.reqseq })).finish len 1

/-- Send a request and park until its answer (12 R237, 18 Table 18.4 kind 14). -/
def State.waitMem (s : State) (a : Word) (p : MemPlace) (op : MemOp) (rd : Option GReg) (size : LdSize)
    (acq : Option Scope) (len : Nat) : State :=
  (s.park (.reply s.nextId (s.cvtgForm a) rd size acq len)).sendMem a p op false

/-! ## Loads and stores (12 R238, R239) -/

/-- The hardware-managed area of the acting cell as an LD reads it; none outside the readable regions (11 R226). -/
def State.hwRead (s : State) (off n : Nat) : Option Nat :=
  let c := s.here
  if off < 0xF1000 then
    match c.am.find ((off - Config.hwArea) / 64) with
    | some e => some (e.image / 2 ^ (8 * (off % 64)) % 2 ^ (8 * n))
    | none => some 0
  else if off < 0xF1100 then
    some ((c.chans[(off - 0xF1000) / 16]?.getD .unused).image / 2 ^ (8 * (off % 16)) % 2 ^ (8 * n))
  else if 0xF2000 ≤ off ∧ off < 0xF6000 then
    some ((c.bins.getD ((off - 0xF2000) / 16) 0).toNat / 2 ^ (8 * (off % 16)) % 2 ^ (8 * n))
  else none

/-! ## Event lines (16 R331-R334) -/

/-- An event line that has not been configured. -/
def Line.off : Line where
  cfg := 0
  kind := .off
  arrivals := 0
  phase := 0
  closed := 0
  busy := false
  set := false
  waiters := []

/-- An event line by 16 * cluster + line. -/
def State.line (s : State) (key : Nat) : Line := (s.lines.find key).getD .off

/-- Put an event line back. -/
def State.setLine (s : State) (key : Nat) (l : Line) : State := { s with lines := s.lines.put key l }

/-- The lowest cell of a cluster (01 R12). -/
def clusterCell (cl : Nat) : Nat := 2 * (cl % 12) + Config.cols * (4 * (cl / 12))

/-- The parent of a line, as its configuration names it (16 Table 16.7). -/
def State.lineParent (s : State) (key : Nat) (l : Line) : Option Nat :=
  if fld l.cfg 32 32 = 1 then
    some (16 * clusterOf ((s.launchOf (clusterCell (key / 16))).physIdx (fld l.cfg 46 37)) + fld l.cfg 36 33)
  else none

/-- The scope of a line's accesses (16 R333). -/
def Line.scope (l : Line) : Scope := if l.kind = .barrier ∧ fld l.cfg 32 32 = 1 then .device else .cluster

/-- A store of the fibre to a line has not been applied. -/
def State.storePending (s : State) (fid key : Nat) : Bool :=
  s.net.any (fun m =>
    match m.body with
    | .eventStore w _ cl line _ _ => w.fid == fid && 16 * cl + line.val == key
    | _ => false)

/-- A fibre that waits at a line goes on with a value, and its L1 acquires. -/
def State.lineWake (s : State) (w : Asker) (v : Word) (acq : Scope) : State :=
  let f := (s.cell w.cell).fibre w.slot
  match f.status with
  | .parked (.event _ rd len) _ =>
    if f.body.fid = w.fid then
      (s.acqL1 w.cell acq).updCell w.cell (fun c =>
        let g := f.body.g.set rd v
        c.setFibre w.slot { f with body := { f.body with g := g }.past len, status := .ready, parkSeq := none })
    else s
  | _ => s

/-- Release the fibres of the phases of a BARRIER line that are complete (16 R334). -/
def State.lineRelease (s : State) (key : Nat) : State :=
  let l := s.line key
  let go := l.waiters.filter (fun w => w.phase ≤ l.phase)
  let s1 := s.setLine key { l with waiters := l.waiters.filter (fun w => !decide (w.phase ≤ l.phase)) }
  go.foldl (fun s w => s.lineWake w.who (w64 w.phase) l.scope) s1

/-- The lines whose parent is a line. -/
def State.lineChildren (s : State) (key : Nat) : List Nat :=
  (s.lines.filter (fun e => e.2.kind = .barrier ∧ s.lineParent e.1 e.2 = some key)).map Prod.fst

/-- A phase of a line is released: its fibres go on, and the release goes down to every child line (16 R334). -/
def State.linePhase (s : State) (key : Nat) : State :=
  (s.lineChildren key).foldl (fun s k => s.send (.line key) (.line k) .control (.lineRelease k)) (s.lineRelease key)

/-- A BARRIER line counts an arrival; the n-th completes its phase, or sends one arrival to the parent (16 R334). -/
def State.lineArrive (s : State) (key : Nat) : State :=
  let l := s.line key
  if l.arrivals + 1 < fld l.cfg 31 16 then s.setLine key { l with arrivals := l.arrivals + 1 }
  else
    match s.lineParent key l with
    | none =>
      (s.setLine key { l with arrivals := 0, closed := l.closed + 1, phase := l.closed + 1 }).linePhase key
    | some p =>
      (s.setLine key { l with arrivals := 0, closed := l.closed + 1 }).send (.line key) (.line p) .control
        (.lineArrive p)

/-- Data that a load delivers: extended, or a POISON trap, or 1 under D.P (12 R238). -/
def State.loadDone (s : State) (d : GReg) (z : LdSize) (a : Word) (x : Nat) (bad : Bool) (len lat : Nat) : State :=
  if bad then (if z = .dp then s.writeRd d 1 len lat else s.trap cPOISON a)
  else s.writeRd d (z.extend x) len lat

/-- LD of an EVENT address (16 R331-R334): after the fibre's own earlier stores to the line, and for an arrival after
its earlier accesses (the arrival releases). A load of an OFF line traps with APERTURE. -/
def State.eventLoad (s : State) (a : Word) (d : GReg) (line : Fin 16) (cfg : Bool) (len : Nat) : State :=
  let c := s.cur.cell
  let key := 16 * clusterOf c + line.val
  let l := s.line key
  let again := s.park (.retry .outst0 7 a)
  if s.storePending s.fibre.body.fid key then again
  else if cfg then s.takeSeq.writeRd d (if l.kind = .off then 0 else l.cfg) len 4
  else
    match l.kind with
    | .off => s.trap cAPERTURE a
    | .barrier =>
      if s.fibre.body.outst ≠ 0 then again
      else
        let w : LineWaiter := { who := s.asker, phase := l.closed + 1 }
        let s1 := (s.relL1 l.scope).takeSeq.park (.event a d len)
        (s1.setLine key { l with waiters := l.waiters ++ [w] }).newId.lineArrive key
    | .mutex =>
      if l.busy then
        ((s.takeSeq.park (.event a d len)).setLine key
          { l with waiters := l.waiters ++ [{ who := s.asker, phase := 0 }] }).newId
      else ((s.setLine key { l with busy := true }).acqL1 c .cluster).takeSeq.writeRd d 0 len 4
    | .event =>
      if l.set then (s.acqL1 c .cluster).takeSeq.writeRd d 1 len 4
      else
        ((s.takeSeq.park (.event a d len)).setLine key
          { l with waiters := l.waiters ++ [{ who := s.asker, phase := 0 }] }).newId

/-- LD of a size at an address; `home` when it is performed at the home (12 R238, R240). -/
def State.load (s : State) (d : GReg) (z : LdSize) (a : Word) (home : Bool) (acq : Option Scope) (events : Bool)
    (len : Nat) : State :=
  let n := z.bytes
  let acquired (s : State) : State := match acq with
    | some sc => s.acqL1 s.cur.cell sc
    | none => s
  match s.resolveHere a n with
  | some (.spad c off) =>
    if c = s.cur.cell ∧ Config.hwArea ≤ off ∧ a.toNat % n = 0 then
      match s.hwRead off n with
      | some x => (acquired s).loadDone d z a x false len 4
      | none => s.trap cAPERTURE a
    else
      match s.checkMem a n false with
      | .error c => s.trap c a
      | .ok (.own off) =>
        (if s.here.spad.bad off n ∧ z ≠ .dp then s else acquired s).loadDone d z a (s.here.spad.read off n)
          (s.here.spad.bad off n) len 4
      | .ok (.far p) => s.waitMem a p (.load z home) (some d) z acq len
      | .ok (.event _ _) => s.trap cAPERTURE a
  | _ =>
    match s.checkMem a n (events && z == .d) with
    | .error c => s.trap c a
    | .ok (.far p) => s.waitMem a p (.load z home) (some d) z acq len
    | .ok (.event line cfg) => s.eventLoad a d line cfg len
    | .ok (.own _) => s

/-- LD (12 R238). -/
def execLd (i : BitVec 16) (d a : GReg) (z : LdSize) (s : State) : Host.Outcome State Fault Refusal :=
  .next (s.load d z (s.g a + dispW i) false none true 4)

/-- Compact LDD (06 Table 6.6). -/
def execLddC16 (a b : GReg) (d : BitVec 4) (s : State) : Host.Outcome State Fault Refusal :=
  .next (s.load a .d (s.g b + d.setWidth 64 * 8) false none true 2)

/-- A configuration value passes the checks of 16 R332 and Table 16.7. -/
def lineCfgOk (l : Launch) (v : Word) : Bool :=
  let kind := fld v 1 0
  fld v 63 47 = 0 && fld v 15 2 = 0 &&
  (if kind = 1 then
    fld v 31 16 != 0 &&
    (fld v 32 32 = 0 || (decide (fld v 46 37 < l.w * l.h) && wholeCluster l (l.physIdx (fld v 46 37))))
   else fld v 31 16 = 0 && fld v 32 32 = 0)

/-- ST.D to an EVENT address (16 R331, R332): a bad configuration traps at issue, any other store is posted. -/
def State.eventStore (s : State) (v : Word) (line : Fin 16) (cfg : Bool) (len : Nat) : State :=
  if cfg ∧ !lineCfgOk s.myLaunch v then s.trap cILLEGAL v
  else if Config.maxOutst ≤ s.fibre.body.outst then s.park (.retry .outstLow 15 (w64 s.fibre.body.outst))
  else
    let who := s.asker
    let seq := s.here.reqseq
    (((s.takeSeq).send (.cell s.cur.cell) (.cell s.cur.cell) .control
        (.eventStore who seq (clusterOf s.cur.cell) line cfg v)).updFibre
      (fun f => { f with body := f.body.post seq })).finish len 1

/-- Perform a store into the executing cell's scratchpad. -/
def State.ownStore (s : State) (off n x : Nat) : State :=
  s.updHere (fun c => { c with spad := c.spad.write off n x false })

/-- ST of `n` bytes (12 R239); `home` when it is performed at the home (12 R236, R240). -/
def State.store (s : State) (n : Nat) (a v : Word) (home events : Bool) (len : Nat) : State :=
  match s.checkMem a n events with
  | .error c => s.trap c a
  | .ok (.own off) => (s.ownStore off n v.toNat).finish len 1
  | .ok (.far p) => s.postMemLen a p (.store n v home) len
  | .ok (.event line cfg) => s.eventStore v line cfg len

/-- ST (12 R239). -/
def execSt (i : BitVec 16) (d a : GReg) (z : StSize) (s : State) : Host.Outcome State Fault Refusal :=
  .next (s.store z.bytes (s.g a + dispW i) (s.g d) false true 4)

/-- Compact STD (06 Table 6.6). -/
def execStdC16 (a b : GReg) (d : BitVec 4) (s : State) : Host.Outcome State Fault Refusal :=
  .next (s.store 8 (s.g b + d.setWidth 64 * 8) (s.g a) false true 2)

/-- LDACQ (12 R240). -/
def execLdacq (c : Scope) (i : BitVec 13) (d a : GReg) (s : State) : Host.Outcome State Fault Refusal :=
  .next (s.load d .d (s.g a + disp13W i) c.wide (some c) false 4)

/-- STREL (12 R240). -/
def execStrel (c : Scope) (i : BitVec 13) (d a : GReg) (s : State) : Host.Outcome State Fault Refusal :=
  let x := s.g a + disp13W i
  let v := s.g d
  .next (
    match s.checkMem x 8 false with
    | .error e => s.trap e x
    | .ok _ => s.released c (fun s => s.store 8 x v c.wide false 4))

/-! ## Full/empty operations (12 R242, R243) -/

/-- What a full/empty operation does to a word of a scratchpad when it need not wait: the scratchpad and the value it
answers; none when it must wait. -/
def Spad.feOp (p : Spad) (off : Nat) (f : FeFn) (v : Word) : Option (Spad × Word) :=
  match f with
  | .take => if p.tag off then some (p.setTag off false, w64 (p.read off 8)) else none
  | .peek => if p.tag off then some (p, w64 (p.read off 8)) else none
  | .tag => some (p, boolW (p.tag off))
  | .put => if p.tag off then none else some ((p.write off 8 v.toNat false).setTag off true, 0)
  | .force => some ((p.write off 8 v.toNat false).setTag off true, 0)
  | .clear => some (p.setTag off false, 0)

/-- TAKE and PEEK of a poisoned word trap with POISON (12 R242). -/
def FeFn.checksPoison : FeFn → Bool
  | .take | .peek => true
  | _ => false

/-- The mode of a request that waits. -/
def FeWait.fn : FeWait → FeFn
  | .take => .take
  | .peek => .peek
  | .put => .put

/-- The wait that an operation makes. -/
def FeFn.wait? : FeFn → Option FeWait
  | .take => some .take
  | .peek => some .peek
  | .put => some .put
  | _ => none

/-- The body of a fibre in a slot by its name: the running one, or the one in its trap frame. -/
def Fibre.has (f : Fibre) (fid : Nat) : Bool := f.body.fid == fid

/-- A parked fibre of a cell receives the answer of its request: rd is written, the L1 acquires, and the word ends. -/
def State.wakeWith (s : State) (w : Asker) (rd : Option GReg) (v : Word) (acq : Option Scope) (len : Nat) : State :=
  let s1 := match acq with
    | some sc => s.acqL1 w.cell sc
    | none => s
  s1.updCell w.cell (fun c =>
    let f := c.fibre w.slot
    let g := match rd with
      | some d => f.body.g.set d v
      | none => f.body.g
    c.setFibre w.slot { f with body := { f.body with g := g }.past len, status := .ready, parkSeq := none })

/-- A fibre that waits takes an exact trap at its word (12 R237). -/
def State.trapAt (s : State) (c slot : Nat) (cls sub : Nat) (detail : Word) : State :=
  let b := ((s.cell c).fibre slot).body
  s.takeTrap c slot b cls sub detail 0 b.pc b.pc 0

/-- The party is a fibre of a cell of this device. -/
def State.owns (s : State) (owner : Nat) (w : Asker) : Bool := w.cell == owner && w.dev == s.device

/-- Answer a full/empty request: a fibre of the owning cell wakes at once, another one by a message. -/
def State.feAnswer (s : State) (owner : Nat) (w : Asker) (a : Word) (v : Word) (bad : Bool) : State :=
  if s.owns owner w then
    let f := (s.cell owner).fibre w.slot
    match f.status with
    | .parked (.fe id addr rd acq len) _ =>
      if id = w.id ∧ f.has w.fid then
        (if bad then s.trapAt owner w.slot cPOISON 0 addr else s.wakeWith w rd v acq len)
      else s
    | _ => s
  else
    s.respond (.cell owner) w
      (.memAns { who := w, posted := false, seq := 0, pc := 0, addr := a,
                 res := if bad then .refused cPOISON else .ok v false })

/-- The oldest waiting request on a word whose condition holds. -/
def fePick (p : Spad) (word : Nat) : List FePending → Option FePending
  | [] => none
  | q :: r => if q.word = word ∧ (p.feOp (8 * word) q.mode.fn q.data).isSome then some q else fePick p word r

/-- A full/empty operation of a party at a word of a cell: a PUT of another cell releases beyond the cell, and the TAKE or
PEEK of the cell's own that sees it owes an acquire as wide (12 R242, 17 R346). -/
def Cell.feSync (c : Cell) (f : FeFn) (word : Nat) (own : Bool) : Cell :=
  match f with
  | .put => if own then c else { c with feWide := setAdd c.feWide word }
  | .take => if own && c.feWide.contains word then { c with feWide := setDel c.feWide word, acqDue := true } else c
  | .peek => if own && c.feWide.contains word then { c with feWide := setDel c.feWide word, acqDue := true } else c
  | _ => c

/-- Serve the requests that wait on a word of a cell, in the order of their arrival, while one can go on (12 R242). -/
def State.feServe (s : State) (owner word : Nat) : Nat → State
  | 0 => s
  | fuel + 1 =>
    let c := s.cell owner
    match fePick c.spad word c.fe with
    | none => s
    | some q =>
      let bad := q.mode.fn.checksPoison && c.spad.bad (8 * word) 8
      let s1 := (s.updCell owner (fun c =>
        ({ c with
          fe := c.fe.erase q
          spad := if bad then c.spad else
            match c.spad.feOp (8 * word) q.mode.fn q.data with
            | some r => r.1
            | none => c.spad } : Cell).feSync q.mode.fn word (s.owns owner q.who))).acqOwed owner
      let v := match c.spad.feOp (8 * word) q.mode.fn q.data with
        | some r => r.2
        | none => 0
      State.feServe (s1.feAnswer owner q.who q.addr v bad) owner word fuel

/-- How a full/empty operation that reaches its word goes on. -/
inductive FeResult where
  | done (v : Word)
  | poison
  | waits
  deriving DecidableEq, Repr

/-- Perform a full/empty operation at the owning cell, or let it wait there (12 R242, R243). -/
def State.feArrive (s : State) (owner off : Nat) (f : FeFn) (v : Word) (w : Asker) (a : Word) : State × FeResult :=
  let c := s.cell owner
  match c.spad.feOp off f v with
  | some r =>
    if f.checksPoison && c.spad.bad off 8 then (s, .poison)
    else
      let s1 := (s.updCell owner (fun c =>
        ({ c with spad := r.1 } : Cell).feSync f (off / 8) (s.owns owner w))).acqOwed owner
      (s1.feServe owner (off / 8) (c.fe.length + 1), .done r.2)
  | none =>
    match f.wait? with
    | some m =>
      (s.updCell owner (fun c => { c with fe := c.fe ++ [{ word := off / 8, mode := m, data := v, who := w, addr := a }] }),
        .waits)
    | none => (s, .waits)

/-- An LDFE, or an STFE PUT, that waits for its answer (12 R242). -/
def State.feWaited (s : State) (f : FeFn) (a v : Word) (rd : Option GReg) (acquires : Bool) : State :=
  match s.checkFe a with
  | .error c => s.trap c a
  | .ok (.own off) =>
    let w := s.asker
    let r := s.newId.feArrive s.cur.cell off f v w a
    match r.2 with
    | .done x => match rd with
      | some d => r.1.writeRd d x 4 4
      | none => r.1.finish 4 4
    | .poison => s.trap cPOISON a
    | .waits => r.1.park (.fe w.id (s.cvtgForm a) rd (if acquires then some .cell else none) 4)
  | .ok (.far p) =>
    (s.park (.fe s.nextId (s.cvtgForm a) rd (if acquires then some .device else none) 4)).sendMem a p (.fe f v) false
  | .ok (.event _ _) => s.trap cAPERTURE a

/-- An STFE FORCE or CLEAR: at once in the own scratchpad, posted elsewhere (12 R242). -/
def State.fePosted (s : State) (f : FeFn) (a v : Word) : State :=
  match s.checkFe a with
  | .error c => s.trap c a
  | .ok (.own off) => (s.feArrive s.cur.cell off f v s.asker a).1.finish 4 1
  | .ok (.far p) => s.postMem a p (.fe f v)
  | .ok (.event _ _) => s.trap cAPERTURE a

/-- LDFE TAKE (12 R242). -/
def execLdfeTake (i : BitVec 13) (d a : GReg) (s : State) : Host.Outcome State Fault Refusal :=
  .next (s.feWaited .take (s.g a + disp13W i) 0 (some d) true)

/-- LDFE PEEK (12 R242). -/
def execLdfePeek (i : BitVec 13) (d a : GReg) (s : State) : Host.Outcome State Fault Refusal :=
  .next (s.feWaited .peek (s.g a + disp13W i) 0 (some d) true)

/-- LDFE TAG (12 R242). -/
def execLdfeTag (i : BitVec 13) (d a : GReg) (s : State) : Host.Outcome State Fault Refusal :=
  .next (s.feWaited .tag (s.g a + disp13W i) 0 (some d) false)

/-- STFE PUT (12 R242): releases at CELL for the own word, at DEVICE for another one. -/
def execStfePut (i : BitVec 13) (d a : GReg) (s : State) : Host.Outcome State Fault Refusal :=
  let x := s.g a + disp13W i
  let v := s.g d
  .next (
    match s.checkFe x with
    | .error c => s.trap c x
    | .ok (.own _) => s.released .cell (fun s => s.feWaited .put x v none false)
    | .ok _ => s.released .device (fun s => s.feWaited .put x v none false))

/-- STFE FORCE (12 R242). -/
def execStfeForce (i : BitVec 13) (d a : GReg) (s : State) : Host.Outcome State Fault Refusal :=
  .next (s.fePosted .force (s.g a + disp13W i) (s.g d))

/-- STFE CLEAR (12 R242). -/
def execStfeClear (i : BitVec 13) (a : GReg) (s : State) : Host.Outcome State Fault Refusal :=
  .next (s.fePosted .clear (s.g a + disp13W i) 0)

/-! ## Atomics (12 R244-R246) -/

/-- The value that an atomic writes, on words of `n` bits; none when it writes nothing (12 Table 12.3, R246). -/
def amoNew (f : AmoFn) (n o b e : Nat) : Option Nat :=
  let so := (BitVec.ofNat n o).toInt
  let sb := (BitVec.ofNat n b).toInt
  match f with
  | .add => some ((o + b) % 2 ^ n)
  | .min => some (if sb < so then b else o)
  | .max => some (if so < sb then b else o)
  | .minu => some (min o b)
  | .maxu => some (max o b)
  | .and => some (o &&& b)
  | .or => some (o ||| b)
  | .xor => some (o ^^^ b)
  | .swp => some b
  | .fadd => some (f32Add (BitVec.ofNat 32 o) (BitVec.ofNat 32 b)).toNat
  | .cas => if o = e then some b else none

/-- An atomic on a scratchpad: refused on a poisoned location (18 R372), else the scratchpad and the old value. -/
def Spad.amo (p : Spad) (off : Nat) (f : AmoFn) (z : AmoSize) (b e : Word) : Option (Spad × Nat) :=
  let n := z.bytes
  if p.bad off n then none
  else
    let o := p.read off n
    match amoNew f (8 * n) o (b.toNat % 2 ^ (8 * n)) (e.toNat % 2 ^ (8 * n)) with
    | some x => some (p.write off n x false, o)
    | none => some (p, o)

/-- An AMO or ACAS (12 R244-R246). -/
def State.amo (s : State) (f : AmoFn) (posted : Bool) (z : AmoSize) (o : Order) (c : Scope) (d : GReg) (a b e : Word) :
    State :=
  match s.checkMem a z.bytes false with
  | .error x => s.trap x a
  | .ok t =>
    let go (s : State) : State :=
      match t with
      | .own off =>
        match s.here.spad.amo off f z b e with
        | none => s.trap cPOISON a
        | some r =>
          let s1 := s.updHere (fun c => { c with spad := r.1 })
          let s2 := if o.acquires then s1.acqL1 s.cur.cell c else s1
          if posted then s2.finish 4 1 else s2.writeRd d (w64 r.2) 4 4
      | .far p =>
        if posted then s.postMem a p (.amo f z b e)
        else s.waitMem a p (.amo f z b e) (some d) (match z with | .w32 => .wu | .w64 => .d) (if o.acquires then some c else none) 4
      | .event _ _ => s.trap cAPERTURE a
    if o.releases then s.released c go else go s

/-- AADD (12 R245). -/
def execAadd (p : Bool) (z : AmoSize) (o : Order) (c : Scope) (d a b : GReg) (s : State) :
    Host.Outcome State Fault Refusal := .next (s.amo .add p z o c d (s.g a) (s.g b) 0)

/-- AMIN (12 R245). -/
def execAmin (p : Bool) (z : AmoSize) (o : Order) (c : Scope) (d a b : GReg) (s : State) :
    Host.Outcome State Fault Refusal := .next (s.amo .min p z o c d (s.g a) (s.g b) 0)

/-- AMAX (12 R245). -/
def execAmax (p : Bool) (z : AmoSize) (o : Order) (c : Scope) (d a b : GReg) (s : State) :
    Host.Outcome State Fault Refusal := .next (s.amo .max p z o c d (s.g a) (s.g b) 0)

/-- AMINU (12 R245). -/
def execAminu (p : Bool) (z : AmoSize) (o : Order) (c : Scope) (d a b : GReg) (s : State) :
    Host.Outcome State Fault Refusal := .next (s.amo .minu p z o c d (s.g a) (s.g b) 0)

/-- AMAXU (12 R245). -/
def execAmaxu (p : Bool) (z : AmoSize) (o : Order) (c : Scope) (d a b : GReg) (s : State) :
    Host.Outcome State Fault Refusal := .next (s.amo .maxu p z o c d (s.g a) (s.g b) 0)

/-- AAND (12 R245). -/
def execAand (p : Bool) (z : AmoSize) (o : Order) (c : Scope) (d a b : GReg) (s : State) :
    Host.Outcome State Fault Refusal := .next (s.amo .and p z o c d (s.g a) (s.g b) 0)

/-- AOR (12 R245). -/
def execAor (p : Bool) (z : AmoSize) (o : Order) (c : Scope) (d a b : GReg) (s : State) :
    Host.Outcome State Fault Refusal := .next (s.amo .or p z o c d (s.g a) (s.g b) 0)

/-- AXOR (12 R245). -/
def execAxor (p : Bool) (z : AmoSize) (o : Order) (c : Scope) (d a b : GReg) (s : State) :
    Host.Outcome State Fault Refusal := .next (s.amo .xor p z o c d (s.g a) (s.g b) 0)

/-- ASWP (12 R245). -/
def execAswp (p : Bool) (z : AmoSize) (o : Order) (c : Scope) (d a b : GReg) (s : State) :
    Host.Outcome State Fault Refusal := .next (s.amo .swp p z o c d (s.g a) (s.g b) 0)

/-- AFADD (12 R245). -/
def execAfadd (p : Bool) (z : AmoSize) (o : Order) (c : Scope) (d a b : GReg) (s : State) :
    Host.Outcome State Fault Refusal := .next (s.amo .fadd p z o c d (s.g a) (s.g b) 0)

/-- ACAS (12 R246): the expected value is rd at issue. -/
def execAcas (z : AmoSize) (o : Order) (c : Scope) (d a b : GReg) (s : State) :
    Host.Outcome State Fault Refusal := .next (s.amo .cas false z o c d (s.g a) (s.g b) (s.g d))

/-! ## Active messages and delegation (12 R247-R252) -/

/-- The aperture of an AMSEND target: one that names a cell (12 R247). -/
def State.amTargetOk (s : State) (a : Word) : Bool :=
  match s.resolveHere a 1 with
  | some (.spad _ _) => true
  | some (.remote _) => fld a 63 60 = 0xE
  | _ => false

/-- The message of an AMSEND or DELEG of the acting fibre: g0-g3 at issue. -/
def State.amPayload (s : State) (o : Order) (c : Scope) (a b : Word) : BufSend :=
  { target := a, pc := b, a0 := s.g 0, a1 := s.g 1, a2 := s.g 2, a3 := s.g 3, order := o, scope := c }

/-- AMSEND or DELEG outside a handler: the checks, the release, the message id, the wait (12 R247, R252). -/
def State.amIssue (s : State) (reply deleg : Bool) (o : Order) (c : Scope) (d : GReg) (a b : Word) : State :=
  if !s.amTargetOk a then s.trap cAPERTURE a
  else if fld b 63 60 ≠ 0 then s.trap cAPERTURE b
  else if fld b 1 0 ≠ 0 then s.trap cALIGN b
  else
    let m := s.amPayload o c a b
    let go (s : State) : State :=
      let p : Park := if reply then .amReply s.nextId (s.cvtgForm a) d c deleg false 4
        else .amAccept s.nextId (s.cvtgForm a) 4
      (s.park p).amSend s.cur.cell s.cur.slot s.fibre.body.fid m reply deleg false
    if o.releases then s.released c go else go s

/-- AMSEND in a handler is buffered; a ninth one is a fault of the handler (12 R250, 18 R364). -/
def State.amBuffer (s : State) (o : Order) (c : Scope) (a b : Word) : State :=
  if !s.amTargetOk a then s.trap cAPERTURE a
  else if fld b 63 60 ≠ 0 then s.trap cAPERTURE b
  else if fld b 1 0 ≠ 0 then s.trap cALIGN b
  else if s.fibre.body.sends.length < 8 then
    (s.updFibre (fun f =>
      { f with body := { f.body with sends := f.body.sends ++ [s.amPayload o c a b] } })).finish 4 1
  else s.handlerAbort s.cur.cell s.cur.slot cHANDLER s.fibre.body.pc s.fibre.body.pc

/-- AMSEND (12 R247). -/
def execAmsend (r : Bool) (o : Order) (c : Scope) (d a b : GReg) (s : State) : Host.Outcome State Fault Refusal :=
  .next (
    if s.fibre.body.kind.isHandler then
      (if r then s.trap cILLEGAL s.fibre.body.pc else s.amBuffer o c (s.g a) (s.g b))
    else s.amIssue r false o c d (s.g a) (s.g b))

/-- DELEG (12 R252). -/
def execDeleg (o : Order) (c : Scope) (d a b : GReg) (s : State) : Host.Outcome State Fault Refusal :=
  .next (
    if s.fibre.body.kind.isHandler then s.trap cILLEGAL s.fibre.body.pc
    else s.amIssue true true o c d (s.g a) (s.g b))

/-- The entry that the acting handler or routine serves. -/
def FKind.entry? : FKind → Option Nat
  | .handler e => some e
  | .server e => some e
  | _ => none

/-- AMREPLY (12 R251): buffered in a handler, sent at once by a routine, after the release at the message's scope. -/
def execAmreply (a : GReg) (s : State) : Host.Outcome State Fault Refusal :=
  let b := s.fibre.body
  let v := s.g a
  let illegal := s.trap cILLEGAL b.pc
  .next (
    match b.kind.entry? with
    | none => illegal
    | some e =>
      match s.here.am.find e with
      | none => illegal
      | some m =>
        if !m.reply || b.replied then illegal
        else
          s.released m.scope (fun s =>
            let s1 := s.updFibre (fun f =>
              { f with body := { f.body with
                replied := true
                replyBuf := if b.kind.isHandler then some v else none } })
            (if b.kind.isHandler then s1 else s1.amReplyTo s.cur.cell m v).finish 4 1))

/-! ## Fences (12 R253, R254) -/

/-- FENCE ACQ. -/
def execFenceAcq (c : Scope) (s : State) : Host.Outcome State Fault Refusal :=
  .next ((s.acqL1 s.cur.cell c).finish 4 1)

/-- FENCE REL. -/
def execFenceRel (c : Scope) (s : State) : Host.Outcome State Fault Refusal :=
  .next (s.released c (fun s => s.finish 4 1))

/-- FENCE AR. -/
def execFenceAr (c : Scope) (s : State) : Host.Outcome State Fault Refusal :=
  .next (s.released c (fun s => (s.acqL1 s.cur.cell c).finish 4 1))

/-- FENCE SC (12 Table 12.5): AR, and a place in the single order, which a step of the model has by itself. -/
def execFenceSc (c : Scope) (s : State) : Host.Outcome State Fault Refusal :=
  .next (s.released c (fun s => (s.acqL1 s.cur.cell c).finish 4 1))

/-! ## Address conversion (12 R255, R256) -/

/-- CVTG (12 R255). -/
def execCvtg (d a : GReg) (s : State) : Host.Outcome State Fault Refusal :=
  let x := s.g a
  .next (
    match s.resolveHere x 1 with
    | none => s.trap cAPERTURE x
    | some (.event _ _) => s.trap cAPERTURE x
    | some _ => s.writeRd d (s.cvtgForm x) 4 1)

/-- The cell that a scratchpad address names on this device. -/
def State.namedCell (s : State) (x : Word) : Option Nat :=
  match s.resolveHere x 1 with
  | some (.spad c _) => some c
  | _ => none

/-- The APT word of an address (12 Table 12.6). -/
def State.aptWord (s : State) (x : Word) : Word :=
  let code := fld x 63 60
  let loc := s.resolveHere x 1
  let scr := code = 0x8 ∨ code = 0x9 ∨ code = 0xA ∨ code = 0xD ∨ code = 0xE
  let dev := if code = 0x1 ∨ code = 0xE then fld x 59 48 else s.device
  let index := match s.namedCell x with
    | some c => (s.cell c).idx s.myLaunch
    | none => if code = 0xE ∧ loc.isSome then fld x 29 20 else 0
  let valid := loc.isSome
  let here := valid && dev == s.device
  w64 (dev * 2 ^ 32 + index * 2 ^ 16 + b2n here * 128 + b2n (s.namedCell x == some s.cur.cell) * 64 +
    b2n (decide scr) * 32 + b2n valid * 16 + code)

/-- APT (12 R256). -/
def execApt (d a : GReg) (s : State) : Host.Outcome State Fault Refusal :=
  let x := s.g a
  .next (s.writeRd d (s.aptWord x) 4 1)

/-! ## Cache operations (12 R257) -/

/-- How a range of a cache operation goes on. -/
inductive CacheRange where
  | trap
  | nothing
  | sectors (first last : Nat)
  deriving DecidableEq, Repr

/-- The range of a cache operation (12 R257): EVENT and unassigned codes trap whatever the count (log 20). -/
def State.cacheRange (s : State) (a n : Word) : CacheRange :=
  let c := min n.toNat 1048576
  let code := fld a 63 60
  if code = 0xC then .trap
  else if c = 0 then
    (if code = 0 ∨ code = 1 ∨ code = 8 ∨ code = 9 ∨ code = 0xA ∨ code = 0xB ∨ code = 0xD ∨ code = 0xE then .nothing
     else .trap)
  else
    match s.resolveHere a (if code = 0 ∨ code = 0xB then c else 1) with
    | some (.global va) => if code = 0 ∨ code = 0xB then .sectors (va / 64) ((va + c - 1) / 64) else .nothing
    | some (.event _ _) => .trap
    | some _ => .nothing
    | none => .trap

/-- CFLUSH (12 R257): write back the dirty bytes of the range. -/
def execCflush (a b : GReg) (s : State) : Host.Outcome State Fault Refusal :=
  let x := s.g a
  .next (
    match s.cacheRange x (s.g b) with
    | .trap => s.trap cAPERTURE x
    | .nothing => s.finish 4 1
    | .sectors lo hi =>
      (s.flushL1 (s.l1Cells s.cur.cell) (fun v => lo ≤ v && v ≤ hi)).finish 4 1)

/-- CINV (12 R257): as CFLUSH, then the sectors are invalidated. -/
def execCinv (a b : GReg) (s : State) : Host.Outcome State Fault Refusal :=
  let x := s.g a
  .next (
    match s.cacheRange x (s.g b) with
    | .trap => s.trap cAPERTURE x
    | .nothing => s.finish 4 1
    | .sectors lo hi =>
      let w := fun v => lo ≤ v && v ≤ hi
      ((s.flushL1 (s.l1Cells s.cur.cell) w).invalidateL1 (s.l1Cells s.cur.cell) w).finish 4 1)

/-- Fill the sectors of a range that are not held whole; those whose translation faults are dropped (12 R257). -/
def State.prefetch (s : State) (c : Nat) (l : List Nat) : State :=
  l.foldl (fun s v =>
    let o := s.l1Owner c (64 * v)
    let old := findSector (s.cell o).l1 v
    match s.translate (s.launchOf c).job (64 * v) .read with
    | .pa pa => (s.makeRoom o v).updCell o (fun y => { y with l1 := putSector y.l1 (s.fillSector old v (pa / 64)) })
    | _ => s) s

/-- PREF (12 R257). -/
def execPref (a b : GReg) (s : State) : Host.Outcome State Fault Refusal :=
  let x := s.g a
  .next (
    match s.cacheRange x (s.g b) with
    | .trap => s.trap cAPERTURE x
    | .nothing => s.finish 4 1
    | .sectors lo hi => (s.prefetch s.cur.cell (upFrom (hi + 1 - lo) lo)).finish 4 1)

end Sys2Proof.Machine
end

