-- ==== Sys2Proof/Machine/SSync.lean ====
section
/-!
DEFINITION. Synchronisation words of the S stream: counters, channels, the combining network (16).
-/

namespace Sys2Proof.Machine

open Sys2Proof

/-! ## Counters (16 R320) -/

/-- KINC of `len` bytes: a CELL release, the increment, and COUNTER past the word when it saturates. -/
def State.kinc (s : State) (k : KReg) (n : W32) (len : Nat) : State :=
  s.released .cell (fun s =>
    let sat := s.here.satK k n.toNat
    let s1 := s.bump s.cur.cell k n.toNat
    if sat then s1.trapPast cCOUNTER (w64 k.val) len else s1.finish len 1)

/-- KINC (16 R320). -/
def execKinc (k : KReg) (n : KAmt) (s : State) : Host.Outcome State Fault Refusal := .next (s.kinc k (s.kAmt n) 4)

/-- Compact KINC by 1 (06 Table 6.6). -/
def execKincC16 (k : KReg) (s : State) : Host.Outcome State Fault Refusal := .next (s.kinc k 1 2)

/-- KWAIT (take) or KWAITN of `len` bytes. -/
def State.kwait (s : State) (k : KReg) (n : W32) (take : Bool) (len : Nat) : State :=
  if n ≤ s.here.k[k] then
    ((s.updHere (fun c => { c with k := if take then c.k.set k (c.k[k] - n) else c.k }.observe k)).acqOwed s.cur.cell).finish
      len 1
  else s.park (.counter k n take len)

/-- KWAIT (16 R320). -/
def execKwait (k : KReg) (n : KAmt) (s : State) : Host.Outcome State Fault Refusal :=
  .next (s.kwait k (s.kAmt n) true 4)

/-- KWAITN (16 R320). -/
def execKwaitn (k : KReg) (n : KAmt) (s : State) : Host.Outcome State Fault Refusal :=
  .next (s.kwait k (s.kAmt n) false 4)

/-- Compact KWAIT by 1 (06 Table 6.6). -/
def execKwaitC16 (k : KReg) (s : State) : Host.Outcome State Fault Refusal := .next (s.kwait k 1 true 2)

/-- KSET (16 R320, R321): a CELL release and the new value, which the tests of the CCLK find. -/
def execKset (k : KReg) (n : KAmt) (s : State) : Host.Outcome State Fault Refusal :=
  let v := s.kAmt n
  .next (s.released .cell (fun s => (s.updHere (fun c =>
    { c with k := c.k.set k v, acts := c.acts ++ [{ k := k, sat := false, source := none }] })).finish 4 1))

/-- KRD (16 R320). -/
def execKrd (k : KReg) (d : GReg) (s : State) : Host.Outcome State Fault Refusal :=
  .next (s.writeRd d ((s.here.k[k]).setWidth 64) 4 1)

/-! ## Channels (16 R324-R329) -/

/-- An endpoint of the acting cell. -/
def State.ep (s : State) (e : Fin 16) : Endpoint := s.here.chans[e]

/-- Change an endpoint of the acting cell. -/
def State.updEp (s : State) (e : Fin 16) (f : Endpoint → Endpoint) : State :=
  s.updHere (fun c => { c with chans := c.chans.set e (f c.chans[e]) })

/-- The sectors of a copy of `n` bytes from `off` that hold a byte of a poisoned sector, by their place in the copy. -/
def copyPoison (p : Spad) (off n : Nat) : List Nat :=
  (upFrom ((n + 63) / 64) 0).filter (fun i => p.bad (off + 64 * i) (min 64 (n - 64 * i)))

/-- CSEND (16 R326): spending an allowance acquires what its CGRANT released (R328). -/
def execCsend (e : Fin 16) (a : GReg) (s : State) : Host.Outcome State Fault Refusal :=
  let p := s.ep e
  let x := s.g a
  .next (
    if p.side ≠ .sender then s.trap cILLEGAL (w64 e.val)
    else if fld x 63 20 ≠ 0 ∨ Config.hwArea < x.toNat + p.size then s.trap cAPERTURE x
    else if fld x 3 0 ≠ 0 then s.trap cALIGN x
    else
      s.released .device (fun s =>
        if p.count = 0 ∨ s.behind (.allowance e) then s.park (.retry (.allowance e) 5 (w64 e.val))
        else
          let dst := s.myLaunch.physIdx (p.peer.getD 0)
          let body : MsgBody := .slot dst p.peerEp (Mem.readBytes s.here.spad.bytes p.size x.toNat)
            (copyPoison s.here.spad x.toNat p.size) (p.seq % p.slots * p.size)
          (((s.updEp e (fun p => { p with count := p.count - 1, seq := p.seq + 1 })).send
            (.cell s.cur.cell) (.cell dst) .bulk body).acqL1 s.cur.cell .device).finish 4 1))

/-- CRECV (16 R327): it acquires at DEVICE scope (17 Table 17.5). -/
def execCrecv (e : Fin 16) (d : GReg) (s : State) : Host.Outcome State Fault Refusal :=
  let p := s.ep e
  .next (
    if p.side ≠ .receiver then s.trap cILLEGAL (w64 e.val)
    else if p.filled = 0 ∨ s.behind (.filled e) then s.park (.retry (.filled e) 5 (w64 e.val))
    else
      let s1 := s.updEp e (fun p => { p with seq := p.seq + 1, filled := p.filled - 1, count := p.count + 1 })
      let s2 := s1.updHere (fun c => { c with k := if c.k[p.k] = 0 then c.k else c.k.set p.k (c.k[p.k] - 1) })
      (s2.acqL1 s.cur.cell .device).writeRd d (w64 (0xA000000000000000 + p.array + p.seq % p.slots * p.size)) 4 1)

/-- CGRANT (16 R328). -/
def execCgrant (e : Fin 16) (a : GReg) (s : State) : Host.Outcome State Fault Refusal :=
  let p := s.ep e
  let n := (s.g a).toNat
  .next (
    if p.side ≠ .receiver then s.trap cILLEGAL (w64 e.val)
    else if p.count < n then s.trap cILLEGAL (w64 p.count)
    else if n = 0 then s.finish 4 1
    else
      s.released .device (fun s =>
        let s1 := s.updEp e (fun p => { p with count := p.count - n })
        let c := s.cur.cell
        (match p.peer with
          | some i => s1.send (.cell c) (.cell (s.myLaunch.physIdx i)) .bulk (.grant (s.myLaunch.physIdx i) p.peerEp n)
          | none => s1.send (.cell c) (.router (dieOf c)) .bulk (.grant (s.here.idx s.myLaunch) 0 n)).finish 4 1))

/-- CSENDs of a cell that wait for allowance on an endpoint. -/
def Cell.waitingSends (c : Cell) (e : Fin 16) : Nat :=
  (c.fibres.filter (fun f =>
    match f.2.status with
    | .parked (.retry r _ _) _ => r == .allowance e
    | _ => false)).length

/-- An endpoint is ready for CALT (16 R329). -/
def Cell.epReady (c : Cell) (e : Fin 16) : Bool :=
  match (c.chans[e]).side with
  | .unused => false
  | .receiver => 0 < (c.chans[e]).filled
  | .sender => c.waitingSends e < (c.chans[e]).count

/-- The endpoints of a mask, lowest first. -/
def maskEps (m : Word) : List (Fin 16) := (upFrom 16 0).filterMap (fun i => if m.getLsbD i then some (Fin.ofNat 16 i) else none)

/-- CALT (16 R329). -/
def execCalt (d a : GReg) (s : State) : Host.Outcome State Fault Refusal :=
  let m := s.g a
  let l := maskEps m
  .next (
    if fld m 63 16 ≠ 0 ∨ l = [] ∨ 4 < l.length ∨ l.any (fun e => (s.ep e).side == .unused) then s.trap cILLEGAL m
    else
      match l.find? (fun e => s.here.epReady e) with
      | some e => s.writeRd d (w64 e.val) 4 1
      | none => s.park (.retry (.calt m) 6 m))

/-! ## The combining network (16 R336-R339) -/

/-- The group's scope (16 R337). -/
def Launch.groupScope (l : Launch) : Scope := if l.spread = [] then .device else .domain

/-- Contributor index of a cell: rank of its device in the spread, then its logical index (15 R309). -/
def State.contributor (s : State) (c : Nat) : Nat :=
  let l := s.launchOf c
  (l.spread.idxOf s.device) * (l.w * l.h) + (s.cell c).idx l

/-- Contributors of a launch: every cell of it, or of every part of a spread launch (16 R337). -/
def Launch.contributors (l : Launch) : Nat := (max 1 l.spread.length) * (l.w * l.h)

/-- A count of the acting cell on a group. -/
def grpCount (m : AMap Nat) (g : Nat) : Nat := (m.find g).getD 0

/-- The detail of a COMBINE trap (16 R338). -/
def combDetail (m g code : Nat) : Word := w64 (m % 65536 * 256 + g * 16 + code)

/-- A contribution of a part of a spread launch goes to every other part (15 R309, 16 R337). -/
def State.sendContrib (s : State) (g : Nat) (c : Contrib) : State :=
  match s.myLaunch.key with
  | some key =>
    (s.myLaunch.spread.filter (fun d => d != s.device)).foldl (fun s d => s.sendFabric d .combine (.contrib key g c)) s
  | none => s

/-- CINJ (16 R336, R337). -/
def execCinj (o : CombOp) (g : Fin 16) (a : GReg) (s : State) : Host.Outcome State Fault Refusal :=
  let l := s.myLaunch
  let key := 16 * l.job + g.val
  let m := grpCount s.here.injected g.val
  let v := match o with
    | .barrier => 0
    | .fadd | .fmin | .fmax => (s.g a).setWidth 32 |>.setWidth 64
    | _ => s.g a
  let taken := match s.groups.find key with
    | some x => some x.launch != s.here.launch
    | none => false
  .next (
    if taken then s.trap cCOMBINE (combDetail m g.val 2)
    else
      s.released l.groupScope (fun s =>
        if 4 ≤ m - grpCount s.here.extracted g.val ∨ s.behind (.inject g) then
          s.park (.retry (.inject g) 8 (w64 g.val))
        else
          let grp := (s.groups.find key).getD { launch := s.here.launch.getD 0, contribs := [] }
          let c : Contrib := { who := s.contributor s.cur.cell, m := m, op := o, value := v }
          let s1 : State := { s with groups := s.groups.put key { grp with contribs := grp.contribs ++ [c] } }
          ((s1.sendContrib g.val c).updHere
            (fun x => { x with injected := x.injected.put g.val (m + 1) })).finish 4 1))

/-- The result of an operation of a group at a cell. -/
def Cell.result (c : Cell) (g m : Nat) : Option CombRes := c.results.find? (fun r => r.group = g ∧ r.m = m)

/-- CEXT (16 R336-R338). -/
def execCext (g : Fin 16) (d : GReg) (s : State) : Host.Outcome State Fault Refusal :=
  let m := grpCount s.here.extracted g.val
  .next (
    match s.here.result g.val m with
    | none => s.park (.retry (.extract g) 8 (w64 g.val))
    | some r =>
      if s.behind (.extract g) then s.park (.retry (.extract g) 8 (w64 g.val))
      else if r.code ≠ 0 then s.trap cCOMBINE (combDetail m g.val r.code)
      else
        let s1 := s.updHere (fun c =>
          { c with
            results := c.results.erase r
            extracted := c.extracted.put g.val (m + 1) })
        ((s1.updHere (fun c => c.orQovf (r.op == .qadd && r.ovf))).acqL1 s.cur.cell s.myLaunch.groupScope).writeRd d r.value 4 1)

end Sys2Proof.Machine
end

