-- ==== Sys2Proof/Machine/SRoute.lean ====
section
/-!
DEFINITION. Token routing and exchange words of the S stream: GATEQ, BINPUT, EXSEND, EXPOLL (14 R282-R291, R298).
-/

namespace Sys2Proof.Machine

open Sys2Proof

/-! ## Reads of GLOBAL memory by a unit -/

/-- The bytes of GLOBAL memory from an address, page by page, or the class and address of the first page that cannot
be read (11 R233). -/
def State.greadFrom (s : State) (job : Nat) : Nat → Nat → Nat → Except (Nat × Nat) (List Byte)
  | 0, _, _ => .ok []
  | fuel + 1, va, n =>
    if n = 0 then .ok []
    else if 2 ^ 57 ≤ va then .error (cXLATE, va)
    else
      let k := min n (65536 - va % 65536)
      match s.translate job va .read with
      | .fault c => .error (c, va)
      | .window _ _ => .error (cPROTECT, va)
      | .pa pa =>
        match State.greadFrom s job fuel (va + k) (n - k) with
        | .ok r => .ok (Mem.readBytes s.mem k pa ++ r)
        | e => e

/-- The bytes of GLOBAL memory from an address. -/
def State.gread (s : State) (job va n : Nat) : Except (Nat × Nat) (List Byte) :=
  s.greadFrom job (n / 65536 + 2) va n

/-- Whether `n` bytes of GLOBAL memory can be written, or the class and address of the first page that cannot. -/
def State.gwritable (s : State) (job : Nat) : Nat → Nat → Nat → Except (Nat × Nat) Unit
  | 0, _, _ => .ok ()
  | fuel + 1, va, n =>
    if n = 0 then .ok ()
    else if 2 ^ 57 ≤ va then .error (cXLATE, va)
    else
      let k := min n (65536 - va % 65536)
      match s.translate job va .write with
      | .fault c => .error (c, va)
      | .window _ _ => .error (cPROTECT, va)
      | .pa _ => State.gwritable s job fuel (va + k) (n - k)

/-- The little-endian number in `n` bytes of a list from an index. -/
def bAt (l : List Byte) (i n : Nat) : Nat := bytesNat ((l.drop i).take n)

/-! ## The policy table (14 R282, Tables 14.1 and 14.2) -/

/-- How a load of a policy table fails. -/
inductive LoadFail where
  /-- ROUTE with a code and a value. -/
  | route (code x : Nat)
  /-- A translation fault. -/
  | xlate (cls addr : Nat)
  deriving DecidableEq, Repr

/-- An F32 word is finite. -/
def f32Finite (x : Nat) : Bool := x / 2 ^ 23 % 256 != 255

/-- The field checks of Table 14.1 in ascending offset: the offset of the first field that fails. -/
def policyBad (t : List Byte) (cells : Nat) : Option Nat :=
  let e := bAt t 0 2
  let b (i : Nat) := bAt t i 1
  let d := b 0xC
  let checks : List (Nat × Bool) :=
    [(0, e = 0 || decide (1024 < e)), (2, b 2 = 0 || decide (8 < b 2)), (3, decide (4 < b 3)), (4, decide (2 < b 4)),
     (5, b 5 = 0 || decide (64 < b 5) || e % b 5 != 0), (6, b 6 = 0 || decide (b 5 < b 6)),
     (7, decide (64 ≤ b 7) || b 7 / 16 % 4 = 3 || b 7 / 4 % 4 = 3), (8, !f32Finite (bAt t 8 4)),
     (0xC, d = 0 || decide (64 < d)), (0xD, bAt t 0xD 3 != 0), (0x10, bAt t 0x10 8 % 64 != 0),
     (0x18, bAt t 0x18 8 % 64 != 0), (0x20, bAt t 0x20 8 % 4 != 0), (0x28, bAt t 0x28 88 != 0)] ++
    (upFrom 64 0).map (fun i =>
      (0x80 + 2 * i, if i < d then decide (cells ≤ bAt t (0x80 + 2 * i) 2) else bAt t (0x80 + 2 * i) 2 != 0)) ++
    (upFrom 128 0).map (fun i => (0x100 + i, bAt t (0x100 + i) 1 / 2 ^ (e - 8 * i) != 0 && decide (e < 8 * i + 8))) ++
    [(0x180, bAt t 0x180 3712 != 0)]
  (checks.find? (fun c => c.2)).map Prod.fst

/-- Read and check the policy table at an address, with its bias array when `bias`, and its placement array. -/
def State.loadPolicy (s : State) (l : Launch) (va : Nat) (withBias : Bool) : Except LoadFail Policy :=
  match s.gread l.job va 4096 with
  | .error (c, a) => .error (.xlate c a)
  | .ok t =>
    match policyBad t (l.w * l.h) with
    | some o => .error (.route 3 o)
    | none =>
      let e := bAt t 0 2
      let biasVa := bAt t 0x10 8
      let bias : Except LoadFail (List W32) :=
        if biasVa = 0 ∨ !withBias then .ok (List.replicate e 0)
        else
          match s.gread l.job biasVa (4 * e) with
          | .error (c, a) => .error (.xlate c a)
          | .ok b =>
            match (upFrom e 0).find? (fun i => !f32Finite (bAt b (4 * i) 4)) with
            | some i => .error (.route 3 (0x1000 + 4 * i))
            | none => .ok ((upFrom e 0).map (fun i => BitVec.ofNat 32 (bAt b (4 * i) 4)))
      match bias with
      | .error f => .error f
      | .ok bs =>
        match s.gread l.job (bAt t 0x18 8) (16 * e) with
        | .error (c, a) => .error (.xlate c a)
        | .ok p =>
          match (upFrom (4 * e) 0).find? (fun i => bAt p (4 * i) 4 / 2 ^ 20 % 2 ^ 11 != 0) with
          | some i => .error (.route 3 (0x2000 + 4 * i))
          | none =>
            .ok {
              experts := e
              k := bAt t 2 1
              r := bAt t 3 1
              score := bAt t 4 1
              groups := bAt t 5 1
              keep := bAt t 6 1
              flags := BitVec.ofNat 8 (bAt t 7 1)
              scale := BitVec.ofNat 32 (bAt t 8 4)
              bias := bs
              place := (upFrom e 0).map (fun i => BitVec.ofNat 128 (bAt p (16 * i) 16))
              hist := bAt t 0x20 8
              dead := BitVec.ofNat 1024 (bAt t 0x100 128)
              disp := (upFrom (bAt t 0xC 1) 0).map (fun i => bAt t (0x80 + 2 * i) 2) }

/-- The load that a Router makes (14 R282): the histogram must be writable, and each dispatcher of the die must have a
channel from the Router at endpoint 0 with slots of at least 128 B. -/
def State.routerLoad (s : State) (l : Launch) (die : Nat) : Except LoadFail Policy :=
  match s.loadPolicy l l.router.toNat true with
  | .error f => .error f
  | .ok p =>
    let hist : Except (Nat × Nat) Unit :=
      if p.hist = 0 then .ok () else s.gwritable l.job (4 * p.experts / 65536 + 2) p.hist (4 * p.experts)
    match hist with
    | .error (c, a) => .error (.xlate c a)
    | .ok _ =>
      let mine := p.disp.filter (fun i => dieOf (l.physIdx i) == die)
      let usable := mine.all (fun i =>
        let ep := (s.cell (l.physIdx i)).chans[0]
        ep.side == .receiver && ep.peer == none && decide (128 ≤ ep.size))
      if mine = [] ∨ !usable then .error (.route 4 die) else .ok p

/-- Trap as a failed load gives (14 R282, R291). -/
def State.loadTrap (s : State) : LoadFail → State
  | .route code x => s.trap cROUTE (routeDetail code x)
  | .xlate cls addr => s.trap cls (w64 addr)

/-! ## GATEQ (14 R283) -/

/-- A row of `e` scores at an offset, widened to F32. -/
def readScores (p : Spad) (off e : Nat) (bf16 : Bool) : List W32 :=
  (upFrom e 0).map (fun i =>
    if bf16 then BitVec.ofNat 32 (p.read (off + 2 * i) 2 * 65536) else BitVec.ofNat 32 (p.read (off + 4 * i) 4))

/-- GATEQ once the table is known: the checks of the row, room, and the copy. -/
def State.gateq (s : State) (die : Nat) (p : Policy) (fresh : Bool) (x : BitVec 16) (a b : Word) : State :=
  let bf := b.getLsbD 56
  let n := p.experts * (if bf then 2 else 4)
  if fld a 63 20 ≠ 0 ∨ Config.hwArea < a.toNat + n then s.trap cAPERTURE a
  else if fld a 3 0 ≠ 0 then s.trap cALIGN a
  else if fld b 63 57 ≠ 0 then s.trap cROUTE (routeDetail 5 0)
  else
    let r := s.router die
    let r1 := if fresh then
        { r with loaded := some p, rr := [] }
      else r
    if 64 ≤ r.queue.length ∨ s.behind .routerRoom then
      (s.setRouter die r1).park (.retry .routerRoom 10 a)
    else
      let tok : RouterTok :=
        { policy := p
          row := readScores s.here.spad a.toNat p.experts bf
          token := b.setWidth 32
          seq := fld b 55 32
          slot := x
          gate := s.here.idx s.myLaunch
          poison := s.here.spad.bad a.toNat n }
      (s.setRouter die { r1 with queue := r1.queue ++ [tok] }).finish 4 1

/-- GATEQ (14 R283). -/
def execGateq (x : BitVec 16) (a b : GReg) (s : State) : Host.Outcome State Fault Refusal :=
  let l := s.myLaunch
  let die := dieOf s.cur.cell
  .next (
    if !l.flags.getLsbD 3 then s.trap cROUTE (routeDetail 1 0)
    else if l.router = 0 then s.trap cROUTE (routeDetail 2 0)
    else
      match (s.router die).loaded with
      | some p => s.gateq die p false x (s.g a) (s.g b)
      | none =>
        match s.routerLoad l die with
        | .error f => s.loadTrap f
        | .ok p => s.gateq die p true x (s.g a) (s.g b))

/-! ## BINPUT (14 R288) -/

/-- Entry `i` of a routing record at an offset (14 Table 14.3); beyond the record's twelve entries its value is open. -/
def State.recEntry (s : State) (off i : Nat) : Nat :=
  if i < 12 then s.here.spad.read (off + 0x20 + 8 * i) 8 else (Config.freeWord (s.draw (128 + i))).toNat

/-- Expert id of a record's entry. -/
abbrev entExpert (e : Nat) : Nat := e % 65536

/-- The bin entry that BINPUT writes (14 Table 14.5). -/
def State.binEntry (s : State) (off j : Nat) : Nat :=
  let rd (o n : Nat) := s.here.spad.read (off + o) n
  let x := s.recEntry off j
  let k := rd 0xB 1
  let m := ((upFrom j 0).filter (fun i => entExpert (s.recEntry off i) != 0xFFFF)).length
  let hasSpare := m < rd 0x9 1
  let sp := s.recEntry off (k + m)
  let bad := (rd 0xA 1).testBit 2 || s.here.spad.bad off 128
  rd 0 4 + 2 ^ 32 * (rd 4 4 + 2 ^ 32 * (rd 0xC 2 + 2 ^ 16 * (rd 0xE 2 + 2 ^ 16 * (j + 2 ^ 8 *
    ((b2n bad + 2 * b2n (entExpert x == 0xFFFF) + 4 * b2n ((rd 0xA 1).testBit 1)) + 2 ^ 8 * (k + 2 ^ 16 *
    (x / 2 ^ 32 + 2 ^ 32 * ((if hasSpare then entExpert sp else 0xFFFF) + 2 ^ 16 *
    ((if hasSpare then sp / 65536 % 256 else 0) + 2 ^ 16 * s.device)))))))))

/-- Set the count of a bin. -/
def setBinCount (d : BitVec 128) (n : Nat) : BitVec 128 :=
  (d &&& ~~~ (BitVec.ofNat 128 (0xFFFF * 2 ^ 48))) ||| BitVec.ofNat 128 (n * 2 ^ 48)

/-- BINPUT (14 R288). -/
def execBinput (d a b : GReg) (s : State) : Host.Outcome State Fault Refusal :=
  let x := s.g a
  let y := s.g b
  let bin := fld y 9 0
  let j := fld y 19 16
  .next (
    if fld x 63 20 ≠ 0 ∨ Config.hwArea < x.toNat + 128 then s.trap cAPERTURE x
    else if fld x 3 0 ≠ 0 then s.trap cALIGN x
    else if fld y 63 20 ≠ 0 ∨ fld y 15 10 ≠ 0 then s.trap cROUTE (routeDetail 5 0)
    else
      match s.here.bins[bin]? with
      | none => s.trap cROUTE (routeDetail 6 bin)
      | some t =>
        if s.here.spad.read (x.toNat + 0xB) 1 ≤ j then s.trap cROUTE (routeDetail 8 j)
        else if (entExpert (s.recEntry x.toNat j) == 0xFFFF) != binNotice t then s.trap cROUTE (routeDetail 7 bin)
        else if binCount t = binCapacity t then s.writeRd d 0xFFFFFFFF 4 2
        else
          (s.updHere (fun c =>
            { c with
              spad := c.spad.write (binBuffer t + 32 * binCount t) 32 (s.binEntry x.toNat j) false
              bins := listSet c.bins bin (setBinCount t (binCount t + 1)) })).writeRd d (w64 (binCount t)) 4 2)

/-! ## EXSEND (14 R291) -/

/-- The field checks of Table 14.8 in ascending offset: the offset of the first field that fails. -/
def exDescBad (d : List Byte) : Option Nat :=
  let b (i : Nat) := bAt d i 1
  let disp := b 0 = 1
  let rs := bAt d 8 2
  let n := bAt d 0xA 2
  let inArea (o len : Nat) : Bool := o + len ≤ Config.hwArea
  let checks : List (Nat × Bool) :=
    [(0, b 0 != 1 && b 0 != 2), (1, if disp then decide (2 ≤ b 1) else b 1 != 0), (2, decide (64 ≤ b 2)),
     (3, decide (6 ≤ b 3)), (4, if disp then decide (16 ≤ b 4) else b 4 != 0), (5, bAt d 5 3 != 0),
     (8, rs % 16 != 0 || rs = 0 || decide (4096 < rs)), (0xA, decide ((if disp then 1024 else 4096) < n)),
     (0xC, if disp then !inArea (bAt d 0xC 4) (2 * n) else decide (64 ≤ bAt d 0xC 4)),
     (0x10, if disp then decide (2 ^ 20 ≤ bAt d 0x10 4) else !inArea (bAt d 0x10 4) (n * rs)),
     (0x14, if disp then bAt d 0x14 4 != 0 else !inArea (bAt d 0x14 4) (16 * n)),
     (0x18, !disp && bAt d 0x18 8 != 0), (0x20, !disp && bAt d 0x20 8 != 0), (0x28, bAt d 0x28 8 % 64 != 0),
     (0x30, bAt d 0x30 16 != 0)]
  (checks.find? (fun c => c.2)).map Prod.fst

/-- Read and check a combine table (14 R290, Table 14.7); `k` is the policy table's for DISPATCH, `rs` the row size a
RETURN must match. -/
def State.loadComb (s : State) (l : Launch) (va : Nat) (k rs : Option Nat) : Except LoadFail CombTable :=
  match s.gread l.job va 192 with
  | .error (c, a) => .error (.xlate c a)
  | .ok t =>
    let kk := bAt t 1 1
    let n := bAt t 2 2
    let r := bAt t 4 2
    let nc := bAt t 0 1
    let checks : List (Nat × Bool) :=
      [(0, nc = 0 || decide (64 < nc)), (1, match k with | some x => kk != x | none => false),
       (2, n = 0 || decide (1024 < n)),
       (4, r % 16 != 0 || r = 0 || decide (4096 < r) || (match rs with | some x => r != x | none => false)),
       (6, bAt t 6 2 != 0), (8, bAt t 8 4 % 16 != 0 || decide (Config.hwArea < bAt t 8 4 + n * kk * r)),
       (0xC, bAt t 0xC 4 % 16 != 0 || decide (Config.hwArea < bAt t 0xC 4 + n * kk * 4)), (0x10, bAt t 0x10 48 != 0)] ++
      (upFrom 64 0).map (fun i =>
        (0x40 + 2 * i, if i < nc then decide (l.w * l.h ≤ bAt t (0x40 + 2 * i) 2) else bAt t (0x40 + 2 * i) 2 != 0))
    match checks.find? (fun c => c.2) with
    | some c => .error (.route 11 c.1)
    | none =>
      .ok {
        nc := nc
        k := kk
        t := n
        rowSize := r
        buffer := bAt t 8 4
        weights := bAt t 0xC 4
        list := (upFrom nc 0).map (fun i => bAt t (0x40 + 2 * i) 2) }

/-- A bin entry as the engine takes it, from its 32 bytes and its bin (14 Tables 14.4 and 14.5). -/
def BinEnt.of (e : Nat) (bin : BitVec 128) : BinEnt where
  token := BitVec.ofNat 32 e
  seq := e / 2 ^ 32 % 2 ^ 24
  origin := e / 2 ^ 64 % 2 ^ 16
  rowSlot := e / 2 ^ 80 % 2 ^ 16
  j := e / 2 ^ 96 % 2 ^ 8
  k := e / 2 ^ 112 % 2 ^ 8
  poison := (e / 2 ^ 104).testBit 0
  null := binNotice bin
  renorm := (e / 2 ^ 104).testBit 2
  weight := BitVec.ofNat 32 (e / 2 ^ 128)
  spareExpert := e / 2 ^ 160 % 2 ^ 16
  spareReplica := e / 2 ^ 176 % 2 ^ 8
  originDev := e / 2 ^ 192 % 2 ^ 12
  dest := (binDest bin).toNat / 2 ^ 12
  expert := (binDest bin).toNat / 4 % 1024
  replica := (binDest bin).toNat % 4

/-- The entries of a bin. -/
def binEnts (p : Spad) (bin : BitVec 128) : List BinEnt :=
  (upFrom (binCount bin) 0).map (fun i => BinEnt.of (p.read (binBuffer bin + 32 * i) 32) bin)

/-- Requests that the Exchange Engine holds from a cell. -/
def State.exHeld (s : State) (launch idx : Nat) : Nat :=
  (s.exch.filter (fun x => x.req.launch = launch ∧ x.req.idx = idx ∧ x.req.device = s.device)).length

/-- A combiner's logical index and its entry for a token (14 R290). -/
def CombTable.place (c : CombTable) (token : W32) : Nat × Nat :=
  (c.list.getD (token.toNat % c.nc) 0, token.toNat / c.nc % c.t)

/-- Send a RETURN's rows (14 R296), from row `i` on. -/
def State.sendReturn (s : State) (c sub : Nat) (r : ExReq) : List Nat → State
  | [] => s
  | i :: rest =>
    let p := (s.cell c).spad
    let tag := p.read (r.tags + 16 * i) 16
    let token : W32 := BitVec.ofNat 32 tag
    let org := tag / 2 ^ 64 % 2 ^ 32
    let off := r.rows + r.rowSize * i
    let bad := (tag / 2 ^ 32).testBit 24
    let dev := org / 2 ^ 10 % 2 ^ 12
    let pl := r.comb.place token
    let l := s.launch r.launch
    let dst := l.physIdx pl.1
    let body : MsgBody := .retRow (if dev = s.device then dst else pl.1) pl.2 r.comb token
      (256 * s.device + 64 * dieOf c + r.slot) bad (Mem.readBytes p.bytes r.rowSize off)
      (copyPoison p off r.rowSize) sub { dev := s.device, key := l.key, round := 0 }
    State.sendReturn
      (if dev = s.device then s.send (.exch (dieOf c)) (.cell dst) .exchange body
       else s.sendFabric dev .exchange body) c sub r rest

/-- A message goes to the Exchange Engines of every other part of a spread launch. -/
def State.toParts (s : State) (launch : Nat) (b : Nat × Nat → MsgBody) : State :=
  let l := s.launch launch
  match l.key with
  | some key => (l.spread.filter (fun d => d != s.device)).foldl (fun s d => s.sendFabric d .exchange (b key)) s
  | none => s

/-- The demand of a DISPATCH goes to the engines of the other parts (14 R292, R293). -/
def State.sendDemand (s : State) (u : ExSub) : State := s.toParts u.req.launch (fun key => .exDemand key u)

/-- The Exchange Engine takes a request (14 R291, R292). -/
def State.exSubmit (s : State) (c : Nat) (r : ExReq) : State :=
  let n := (s.cell c).exIssued
  let sub : ExSub :=
    { id := s.nextId
      req := r
      round := 16 * n + (s.cell c).role
      started := false
      decided := !r.dispatch
      owed := if r.dispatch then 0 else r.n }
  let s1 : State := { s.newId with exch := s.exch ++ [sub] }
  if r.dispatch then (s1.sendDemand sub).updCell c (fun x => { x with exIssued := n + 1 })
  else s1.sendReturn c sub.id r (upFrom r.n 0)

/-- The class and address of the first of the combine table, the policy table and its placement array that cannot be read
(14 R291, step 6). -/
def State.exUnread (s : State) (l : Launch) (d : List Byte) : Option (Nat × Nat) :=
  match s.gread l.job (bAt d 0x28 8) 192 with
  | .error e => some e
  | .ok _ =>
    if bAt d 0 1 ≠ 1 then none
    else
      match s.gread l.job (bAt d 0x18 8) 4096 with
      | .error e => some e
      | .ok t =>
        match s.gread l.job (bAt t 0x18 8) (16 * bAt t 0 2) with
        | .error e => some e
        | .ok _ => none

/-- EXSEND once its descriptor has passed: the tables, room, and the submission. -/
def State.exsend (s : State) (d : List Byte) (off : Word) : State :=
  let l := s.myLaunch
  let disp := bAt d 0 1 = 1
  let n := bAt d 0xA 2
  let list := if disp then (upFrom n 0).map (fun i => s.here.spad.read (bAt d 0xC 4 + 2 * i) 2) else []
  match list.find? (fun i => s.here.bins.length ≤ i), s.exUnread l d with
  | some i, _ => s.trap cROUTE (routeDetail 6 i)
  | none, some (cls, a) => s.trap cls (w64 a)
  | none, none =>
    let pol : Except LoadFail (Option Policy) :=
      if disp then
        match s.loadPolicy l (bAt d 0x18 8) false with
        | .ok p => .ok (some p)
        | .error f => .error f
      else .ok none
    match pol with
    | .error f => s.loadTrap f
    | .ok p =>
      match s.loadComb l (bAt d 0x28 8) (p.map (·.k)) (if disp then none else some (bAt d 8 2)) with
      | .error f => s.loadTrap f
      | .ok ct =>
        let r : ExReq :=
          { launch := s.here.launch.getD 0
            device := s.device
            idx := s.here.idx l
            dispatch := disp
            fast := (bAt d 1 1).testBit 0
            comp := bAt d 2 1
            scope := (Scope.ofCode? (bAt d 3 1)).getD .fibre
            role := bAt d 4 1
            rowSize := bAt d 8 2
            n := n
            rows := bAt d 0x10 4
            tags := bAt d 0x14 4
            slot := bAt d 0xC 4
            policyVa := w64 (bAt d 0x18 8)
            slotDir := w64 (bAt d 0x20 8)
            combVa := w64 (bAt d 0x28 8)
            policy := p
            comb := ct
            ents := (list.map (fun i => binEnts s.here.spad (s.here.bins.getD i 0))).flatten }
        if 8 ≤ s.exHeld r.launch r.idx then s.park (.exch r off)
        else (s.exSubmit s.cur.cell r).finish 4 1

/-- EXSEND (14 R291). -/
def execExsend (a : GReg) (s : State) : Host.Outcome State Fault Refusal :=
  let x := s.g a
  .next (
    if !s.myLaunch.flags.getLsbD 4 then s.trap cROUTE (routeDetail 1 0)
    else if fld x 5 0 ≠ 0 then s.trap cALIGN x
    else if 0xEFFC0 < x.toNat then s.trap cAPERTURE x
    else
      let d := Mem.readBytes s.here.spad.bytes 64 x.toNat
      match exDescBad d with
      | some o => s.trap cROUTE (routeDetail 9 o)
      | none => s.exsend d x)

/-! ## EXPOLL (14 R298) -/

/-- EXPOLL: the head of the combine-ready queue, its combine entry freed; with none, all ones or a wait. -/
def execExpoll (w : Bool) (d : GReg) (s : State) : Host.Outcome State Fault Refusal :=
  .next (
    match s.here.readyQ with
    | [] => if w then s.park (.retry .ready 9 0) else s.writeRd d (BitVec.allOnes 64) 4 1
    | x :: r =>
      let s1 := s.updHere (fun c => { c with readyQ := r, comb := c.comb.del (fld x 9 0) })
      (s1.acqL1 s.cur.cell .device).writeRd d x 4 1)

end Sys2Proof.Machine
end

