-- ==== Sys2Proof/Machine/Net.lean ====
section
/-!
DEFINITION. Messages at their destination: reservation, delivery and the order that 01 R19-R21 keeps.
-/

namespace Sys2Proof.Machine

open Sys2Proof

/-- What a step without an encoding does that finds nothing to do. -/
abbrev idle (s : State) : Host.Outcome State Fault Refusal := .next s

/-- Payload bytes of a message. -/
def MsgBody.bytes : MsgBody → Nat
  | .slot _ _ d _ _ => d.length
  | .packet _ _ _ _ _ _ _ _ _ row _ _ => 32 + row.length
  | .retRow _ _ _ _ _ _ row _ _ _ => 16 + row.length
  | _ => 64

/-- Flits of a message, with 128 bytes of payload each (01 R16). -/
def MsgBody.flits (b : MsgBody) : Nat := max 1 ((b.bytes + 127) / 128)

/-- Flits of the present part: at most 32, 4 KiB of payload, under one reservation (01 R19). -/
def Msg.partFlits (m : Msg) : Nat := min 32 (m.body.flits - 32 * m.part)

/-- The part is the message's last. -/
def Msg.lastPart (m : Msg) : Bool := decide (m.body.flits ≤ 32 * m.part + 32)

/-- The router node of the torus at which a party stands: a cell's own; where the other units of a die attach is not
stated (log 78); an event unit is reached by wires of its cluster. -/
def Node.spot : Node → Option Nat
  | .cell c => some c
  | .home h => some (Config.torusNode h % (Config.cols * Config.rows))
  | .router d => some (Config.torusNode (64 + d) % (Config.cols * Config.rows))
  | .exch d => some (Config.torusNode (68 + d) % (Config.cols * Config.rows))
  | .xdie => some (Config.torusNode 72 % (Config.cols * Config.rows))
  | .device d => some (Config.torusNode (73 + d) % (Config.cols * Config.rows))
  | .line _ => none

/-- The message stays at one node, or travels on wires of its own (01 R24). -/
def Msg.direct (m : Msg) : Bool :=
  match m.src.spot, m.dst.spot with
  | some a, some b => a == b
  | _, _ => true

/-- Every byte of the message has reached its destination. -/
def Msg.arrived (m : Msg) : Bool :=
  match m.stage with
  | .whole => true
  | .staged => m.direct
  | _ => false

/-- The device is fenced: its peers are refused (18 Table 18.9). -/
def State.fenced (s : State) : Bool := s.fencedFns.any (fun f => f.1 == 4)

/-- A sender that has been fenced (18 R373). -/
def State.senderFenced (s : State) (n : Node) : Bool :=
  match n with
  | .cell c => s.excluded.contains c
  | .router d => s.fencedFns.contains (1, d)
  | .exch d => s.fencedFns.contains (2, d)
  | _ => s.fenced

/-- The unit that takes the message may let it wait while later ones are taken (14 R290, R295, R296). -/
def MsgBody.mayWait : MsgBody → Bool
  | .packet _ _ _ _ _ _ _ _ _ _ _ _ => true
  | .notice _ _ _ _ _ _ => true
  | .retRow _ _ _ _ _ _ _ _ _ _ => true
  | _ => false

/-- The 64-byte sector that a request to the homes reaches; requests to different sectors have different homes or no
promised order (12 R241). -/
def MsgBody.homeSector : MsgBody → Option Nat
  | .mem r =>
    match r.place with
    | .global va => some (va / 64)
    | _ => none
  | _ => none

/-- `m` is to be delivered before `n` (01 R20). -/
def Msg.before (m n : Msg) : Bool :=
  m.src = n.src && m.dst = n.dst && m.cls = n.cls &&
  match m.body.homeSector, n.body.homeSector with
  | some a, some b => a = b
  | _, _ => true

/-- A message by number, when no message that comes before it is still on its way. -/
def State.deliverable (s : State) (id : Nat) : Option Msg :=
  match s.net.find? (fun m => m.id = id) with
  | none => none
  | some m =>
    let earlier := s.net.takeWhile (fun x => x.id != id)
    if earlier.any (fun x => x.before m && !x.landed) then none else some m

/-- A message that has landed, when its unit may take it now. -/
def State.landed (s : State) (id : Nat) : Option Msg :=
  match s.deliverable id with
  | none => none
  | some m =>
    let earlier := s.net.takeWhile (fun x => x.id != id)
    if m.landed && (m.body.mayWait || !earlier.any (fun x => x.before m && !x.body.mayWait)) then some m else none

/-- Take a message out of the network. -/
def State.dropMsg (s : State) (id : Nat) : State := { s with net := s.net.filter (fun m => m.id != id) }

/-- Change a message in the network. -/
def State.setMsg (s : State) (id : Nat) (f : Msg → Msg) : State :=
  { s with net := s.net.map (fun m => if m.id = id then f m else m) }

/-- REASSEMBLY_RESERVE (01 R19): the request for space has arrived; the destination reserves space for the whole part and
grants it. -/
def execReassemblyReserve (msg : Nat) (s : State) : Host.Outcome State Fault Refusal :=
  .next (s.setMsg msg (fun m => if m.stage = .asked then { m with stage := .granting, since := 2 * s.now } else m))

/-- MESSAGE_DELIVER (01 R20): the message is reassembled and delivered in its source's order; the system controller takes
a drop report (01 R22). -/
def execMessageDeliver (msg : Nat) (s : State) : Host.Outcome State Fault Refusal :=
  match s.deliverable msg with
  | none => idle s
  | some m =>
    if !m.arrived then idle s
    else
      match m.body with
      | .dropReport n => .next { s.dropMsg msg with dropReports := s.dropReports ++ [n] }
      | _ => .next (s.setMsg msg (fun m => { m with stage := .landed }))

/-- An increment from an engine, a remote unit or the Lease Controller: it saturates and is counted (16 R322). -/
def State.engineBump (s : State) (c : Nat) (k : KReg) (n : Nat) : State :=
  let s1 := if (s.cell c).satK k n then s.count c 13 1 else s
  s1.bump c k n

/-- As `engineBump`, with the release of its writer at a scope (16 Table 16.2): where that is wider than the cell, the
next test of the counter acquires at that width (17 R346). -/
def State.releaseBump (s : State) (c : Nat) (k : KReg) (n : Nat) (sc : Scope) : State :=
  (if s.l1Scope c sc then s.updCell c (fun x => { x with kwide := x.kwide ||| BitVec.ofNat 32 (2 ^ k.val) }) else s).engineBump
    c k n

/-- Write bytes into a cell's scratchpad with the poison of each 64-byte piece of the data. -/
def Spad.writeBytes (p : Spad) (off : Nat) (d : List Byte) (bad : List Nat) : Spad :=
  let pieces := upFrom ((d.length + 63) / 64) 0
  { p with
    bytes := Mem.writeBytes p.bytes off d
    poison := pieces.foldl (fun q i =>
      poisonAfter q (off + 64 * i) (min 64 (d.length - 64 * i)) (bad.contains i)) p.poison }

/-! ## Channels (16 R327, R328) -/

/-- CHANNEL_SLOT_ARRIVE (16 R327): the slot is performed, Filled and the filled counter rise. -/
def execChannelSlotArrive (msg : Nat) (s : State) : Host.Outcome State Fault Refusal :=
  match s.landed msg with
  | some m =>
    match m.body with
    | .slot c e d bad off =>
      let p := (s.cell c).chans[Fin.ofNat 16 e]
      let s1 := (s.dropMsg msg).updCell c (fun x =>
        { x with
          spad := x.spad.writeBytes (p.array + off) d bad
          chans := x.chans.set (Fin.ofNat 16 e) { p with filled := p.filled + 1 } })
      .next (s1.releaseBump c p.k 1 .device)
    | _ => idle s
  | none => idle s

end Sys2Proof.Machine
end

