-- ==== Sys2Proof/Machine/Torus.lean ====
section
/-!
DEFINITION. The on-package torus: the flits of messages at its nodes, NCLK by NCLK (01 R16-R19, R22).
-/

namespace Sys2Proof.Machine

open Sys2Proof

/-! ## The grid -/

/-- The node that an output port leads to: east, west, south, north (01 R17: four ports; the torus wraps). -/
def neighbour (n p : Nat) : Nat :=
  let x := n % Config.cols
  let y := n / Config.cols
  match p with
  | 0 => (x + 1) % Config.cols + Config.cols * y
  | 1 => (x + (Config.cols - 1)) % Config.cols + Config.cols * y
  | 2 => x + Config.cols * ((y + 1) % Config.rows)
  | _ => x + Config.cols * ((y + (Config.rows - 1)) % Config.rows)

/-- The input port of a neighbour at which a link from an output port ends. -/
def facing (p : Nat) : Nat := match p with | 0 => 1 | 1 => 0 | 2 => 3 | _ => 2

/-- Steps between two places of a ring. -/
def ringDist (size a b : Nat) : Nat :=
  let d := (a + size - b) % size
  min d (size - d)

/-- Hops between two nodes (01 R16). -/
def hops (a b : Nat) : Nat :=
  ringDist Config.cols (a % Config.cols) (b % Config.cols) + ringDist Config.rows (a / Config.cols) (b / Config.cols)

/-- A port that reduces the distance (01 R17). -/
def productive (n dst p : Nat) : Bool := decide (hops (neighbour n p) dst < hops n dst)

/-- One of several ports; which is left open (log 78). -/
def pickPort (draw : Nat × Nat) (l : List Nat) : Option Nat :=
  match l with
  | [] => none
  | [p] => some p
  | p :: q => some ((q[Config.pick draw.1 16 draw.2 % (q.length + 1)]?).getD p)

/-! ## One node in one NCLK (01 R17) -/

/-- What a node has assigned so far: output ports in use, flits that leave, flits ejected, deflections. -/
structure NodeOut where
  used : List Nat
  moved : List Flit
  ejected : List Flit
  deflected : Nat
  deriving DecidableEq, Repr

/-- Ports that are still free. -/
def NodeOut.free (o : NodeOut) : List Nat := (upFrom 4 0).filter (fun p => !o.used.contains p)

/-- The port that a flit takes: a free productive one, or any free one. -/
def NodeOut.port (o : NodeOut) (n dst : Nat) (draw : Nat × Nat) : Option Nat :=
  let good := o.free.filter (productive n dst)
  pickPort draw (if good.isEmpty then o.free else good)

/-- A flit leaves a node by a port; a hop takes 2 NCLK (01 R16). -/
def Flit.leave (f : Flit) (n p t : Nat) : Flit := { f with node := neighbour n p, port := facing p, due := t + 2 }

/-- A node assigns one arriving flit: ejection, at most two, or an output port; without a productive one it is deflected. -/
def NodeOut.assign (n t : Nat) (draw : Nat × Nat) (o : NodeOut) (f : Flit) : NodeOut :=
  if f.dst = n ∧ o.ejected.length < 2 then { o with ejected := o.ejected ++ [f] }
  else
    match o.port n f.dst (draw.1, draw.2 + f.port) with
    | some p =>
      { o with
        used := p :: o.used
        moved := o.moved ++ [f.leave n p t]
        deflected := o.deflected + b2n (!productive n f.dst p) }
    | none => o

/-- A flit goes before another: the older one, or by a port priority that rotates with every NCLK. -/
def Flit.before (t : Nat) (f g : Flit) : Bool :=
  decide (g.age t < f.age t) || (f.age t == g.age t && decide ((f.port + t) % 4 < (g.port + t) % 4))

/-- Put a flit into a list in the order in which a node takes its flits. -/
def insertFlit (t : Nat) (f : Flit) : List Flit → List Flit
  | [] => [f]
  | g :: r => if f.before t g then f :: g :: r else g :: insertFlit t f r

/-! ## Injection and ejection (01 R17, R19) -/

/-- What a node's network interface would put into the network for a message: the request for space or a flit of its
present part at the source, the grant at the destination. A fenced source sends no flits of a message that needs more than
one (01 R21). -/
def State.wants (s : State) (n : Nat) (m : Msg) : Option FlitKind :=
  if m.direct then none
  else if m.src.spot = some n ∧ (m.stage = .staged ∨ (m.stage = .opened ∧ m.sent < m.partFlits)) then
    (if m.partFlits = 1 then some .data
     else if m.stage = .staged then some .ask
     else if s.senderFenced m.src then none
     else some .data)
  else if m.dst.spot = some n ∧ m.stage = .granting then some .grant
  else none

/-- The flit that a node injects next. -/
def State.injection (s : State) (n : Nat) : Option (Msg × FlitKind) :=
  (s.net.filterMap (fun m => (s.wants n m).map (fun k => (m, k)))).head?

/-- A message once a flit of a kind has been injected for it. -/
def Msg.injected (m : Msg) (k : FlitKind) : Msg :=
  match k with
  | .ask => { m with stage := .asking }
  | .grant => { m with stage := .granted }
  | .data => { m with stage := .opened, sent := m.sent + 1 }

/-- A message once a flit of it has been ejected at its end; when a part is complete the next one follows. -/
def Msg.ejected (m : Msg) (k : FlitKind) : Msg :=
  match k with
  | .ask => { m with stage := .asked }
  | .grant => { m with stage := .opened }
  | .data =>
    if m.got + 1 < m.partFlits then { m with got := m.got + 1 }
    else if m.lastPart then { m with stage := .whole, got := m.got + 1 }
    else { m with stage := .staged, part := m.part + 1, sent := 0, got := 0 }

/-- The node is under the hold of a neighbour (01 R17). -/
def Torus.held (x : Torus) (n : Nat) : Bool := (upFrom 4 0).any (fun p => x.holds.contains (neighbour n p))

/-- The first flit of a message that a node injects, by a port that is left free; 4 NCLK go into injection and ejection
(01 R16). -/
def State.inject (s : State) (n t : Nat) (draw : Nat × Nat) (o : NodeOut) : State :=
  match s.injection n with
  | none => { s with torus := { s.torus with waits := s.torus.waits.del n, holds := setDel s.torus.holds n } }
  | some (m, k) =>
    let dst := (match k with | .grant => m.src.spot | _ => m.dst.spot).getD n
    let f : Flit := { msg := m.id, kind := k, dst := dst, node := n, port := 0, due := t, born := t }
    match (if s.torus.held n then none else o.port n dst (draw.1, draw.2 + 4)) with
    | none => { s with torus := { s.torus with waits := if (s.torus.waits.find n).isSome then s.torus.waits else s.torus.waits.put n t } }
    | some p =>
      let g : Flit := f.leave n p t
      { s.setMsg m.id (fun m => m.injected k) with
        torus := { s.torus with
          flits := s.torus.flits ++ [{ g with due := g.due + 4 }]
          waits := s.torus.waits.del n
          holds := setDel s.torus.holds n } }

/-- Count deflections at a node's cell (19 Table 19.4) and ejected flits on its die (Table 19.5). -/
def State.countFlits (s : State) (n : Nat) (o : NodeOut) : State :=
  let s1 := if o.deflected = 0 ∨ (s.cells.find n).isNone then s else s.count n 20 o.deflected
  if o.ejected.isEmpty then s1 else s1.countDie (dieOf n) 10 o.ejected.length

/-- One node in one NCLK: its arriving flits, oldest first, then an injection. -/
def State.nodeStep (t : Nat) (s : State) (n : Nat) : State :=
  let here (f : Flit) : Bool := f.node == n && decide (f.due ≤ t)
  let draw := (s.fresh, 8 * (768 * t + n))
  let o := ((s.torus.flits.filter here).foldl (fun l f => insertFlit t f l) []).foldl (NodeOut.assign n t draw)
    { used := [], moved := [], ejected := [], deflected := 0 }
  let s1 : State := { s with torus := { s.torus with flits := s.torus.flits.filter (fun f => !here f) ++ o.moved } }
  let s2 := o.ejected.foldl (fun s f => s.setMsg f.msg (fun m => m.ejected f.kind)) s1
  (s2.countFlits n o).inject n t draw o

/-- The nodes at which something happens: flits have arrived, or a flit is to be injected. -/
def State.busyNodes (s : State) (t : Nat) : List Nat :=
  let ends := s.net.flatMap (fun m => m.src.spot.toList ++ m.dst.spot.toList)
  ((s.torus.flits.filter (fun f => decide (f.due ≤ t))).map (·.node) ++
    ends.filter (fun n => (s.injection n).isSome) ++ s.torus.waits.map Prod.fst).foldl setAdd []

/-- The torus for so many NCLK from one on. -/
def State.torusRun (s : State) : Nat → Nat → State
  | 0, _ => s
  | n + 1, t => State.torusRun ((s.busyNodes t).foldl (State.nodeStep t) s) n (t + 1)

/-- The torus for so many CCLK: an NCLK is half a CCLK (01 R25). -/
def State.torusStep (s : State) (cclk : Nat) : State :=
  if s.net = [] ∧ s.torus.flits = [] ∧ s.torus.waits = [] then s else s.torusRun (2 * cclk) (2 * s.now)

/-! ## Holds and drops -/

/-- A node whose injection has waited since an NCLK asserts a hold on its four neighbours once that is 256 NCLK ago, until
it injects (01 R17). A node that is itself under a hold asserts none (DESIGN CHOICE, log 78). -/
def Torus.assertHold (now : Nat) (x : Torus) (w : Nat × Nat) : Torus :=
  if w.2 + 256 ≤ now ∧ x.held w.1 = false then { x with holds := setAdd x.holds w.1 } else x

/-- INJECTION_HOLD (01 R17): every node whose injection waits, from the lowest on. -/
def execInjectionHold (s : State) : Host.Outcome State Fault Refusal :=
  .next { s with torus := s.torus.waits.foldl (Torus.assertHold (2 * s.now)) s.torus }

/-- The die of a party: its own, or that of its torus node. -/
def Node.die (n : Node) : Nat :=
  match n with
  | .router d => d
  | .exch d => d
  | .home h => h / 16
  | n => dieOf (n.spot.getD 0)

/-- Space at the destination is reserved for a part of a message that has not arrived whole. -/
def Msg.partial? (m : Msg) : Bool := m.stage == .granting || m.stage == .granted || (m.stage == .opened && m.partFlits != 1)

/-- REASSEMBLY_DROP (01 R22, 18 R376): a reassembly that a fenced source has left partial for 65,536 NCLK is dropped, its
space freed, and the drop counted and reported to the system controller with the source. -/
def execReassemblyDrop (msg : Nat) (s : State) : Host.Outcome State Fault Refusal :=
  match s.net.find? (fun m => m.id = msg) with
  | some m =>
    if m.partial? ∧ s.senderFenced m.src ∧ m.since + 65536 ≤ 2 * s.now then
      let s1 : State := { s with torus := { s.torus with flits := s.torus.flits.filter (fun f => f.msg != msg) } }
      .next (((s1.dropMsg msg).countDie m.dst.die 11 1).send m.dst .xdie .control (.dropReport m.src))
    else idle s
  | none => idle s

end Sys2Proof.Machine
end

