-- ==== Sys2Proof/Machine/ERouter.lean ====
section
/-!
DEFINITION. The Router of a C-die: its decision and its records (14 R284-R286), and the grants of channels (16 R328).
-/

namespace Sys2Proof.Machine

open Sys2Proof

/-- The value of an F32 word. -/
abbrev fv (w : W32) : FVal := decodeFloat .f32 w.toNat

/-- The F32 word of a value, rounded once. -/
abbrev fw (v : FVal) : W32 := BitVec.ofNat 32 (roundArith .f32 v)

/-- Numerical order of two F32 words that are no NaNs: −0 equals +0. -/
def f32Lt (a b : W32) : Bool :=
  if (fv a).isZero && (fv b).isZero then false else ltE (fv a) (fv b)

/-- Insert before the first element that is smaller; earlier elements win ties. -/
def insertDesc {α : Type} (key : α → W32) (x : α) : List α → List α
  | [] => [x]
  | y :: r => if f32Lt (key y) (key x) then x :: y :: r else y :: insertDesc key x r

/-- Sort by an F32 key descending, ties to the earlier element. -/
def sortDesc {α : Type} (key : α → W32) (l : List α) : List α := l.foldl (fun a x => insertDesc key x a) []

/-- The scores of a row under the table's score function (14 R284). The softmax's argument is the exact value of
(x − m) × log2 e, rounded once (00 Table 0.3; log 21). -/
def scoreRow (score : Nat) (x : List W32) : List W32 :=
  match score with
  | 0 => x
  | 1 => x.map (f32Special sigmV)
  | _ =>
    let m := x.foldl f32Max 0x7FC00000
    let t := x.map (fun e =>
      f32Special exp2V (fw (mulE (addE (fv e) (fv m).negate) (fv 0x3FB8AA3B))))
    let sum := f32Tree t
    t.map (fun e => f32Div e sum)

/-- Replica `i` of an expert (14 Table 14.2). -/
def Policy.replica (p : Policy) (e i : Nat) : Nat := (p.place.getD e 0).toNat / 2 ^ (32 * i) % 2 ^ 32

/-- Indices of the valid replicas of an expert. -/
def Policy.valid (p : Policy) (e : Nat) : List Nat := (upFrom 4 0).filter (fun i => (p.replica e i).testBit 31)

/-- The destination that a replica names: 256 × device + 64 × die + slot. -/
def replicaDest (r : Nat) : Nat := r / 256 % 4096 * 256 + r % 256

/-- The expert may be selected (14 R284). -/
def Policy.eligible (p : Policy) (e : Nat) (b : W32) : Bool :=
  !p.dead.getLsbD e && !(p.valid e).isEmpty && !(fv b).isNan

/-- The score of a group from its eligible values, highest first (14 R284). -/
def groupScore (two : Bool) (l : List W32) : Option W32 :=
  match l with
  | [] => none
  | [a] => some a
  | a :: b :: _ =>
    if two then
      let t := f32Add a b
      some (if (fv t).isNan then 0x7F800000 else t)
    else some a

/-- The experts of the kept groups that are eligible, best first: (expert, score for selection). -/
def Policy.candidates (p : Policy) (b : List W32) : List (Nat × W32) :=
  let size := p.experts / p.groups
  let all := ((upFrom p.experts 0).zip b).filter (fun x => p.eligible x.1 x.2)
  let scored := (upFrom p.groups 0).filterMap (fun g =>
    let l := sortDesc id ((all.filter (fun x => x.1 / size = g)).map Prod.snd)
    (groupScore (p.flags.getLsbD 0) l).map (fun v => (g, v)))
  let kept := ((sortDesc Prod.snd scored).take p.keep).map Prod.fst
  sortDesc Prod.snd (all.filter (fun x => kept.contains (x.1 / size)))

/-- The weights of the chosen experts (14 R284): unbiased, divided when RENORM applies, scaled; and whether the
division was applied. -/
def Policy.weights (p : Policy) (w : List W32) (nsel : Nat) : List W32 × Bool :=
  let seq : W32 := match w.take nsel with
    | [] => 0
    | a :: r => r.foldl f32Add a
  let ok := p.flags.getLsbD 1 && f32Finite seq.toNat && !(fv seq).isZero
  ((if ok then w.map (fun x => f32Div x seq) else w).map (fun x => f32Mul x p.scale), ok)

/-- The distance of a replica from a die (14 R284). -/
def replicaDist (device die r : Nat) : Nat :=
  if r / 256 % 4096 = device then (if r / 64 % 4 = die then 0 else 1) else 2

/-- The first of the least distance. -/
def nearest (dist : Nat → Nat) : List Nat → Nat
  | [] => 0
  | i :: r => r.foldl (fun b j => if dist j < dist b then j else b) i

/-- The replica index that an expert takes, and the round-robin counters after (14 R284). -/
def Policy.pick (p : Policy) (device die : Nat) (token : W32) (rr : AMap Nat) (e : Nat) : Nat × AMap Nat :=
  let v := p.valid e
  match p.flags.toNat / 4 % 4 with
  | 0 => (v.getD ((token * 0x9E3779B1).toNat / 65536 % v.length) 0, rr)
  | 1 => let c := (rr.find e).getD 0; (v.getD (c % v.length) 0, rr.put e (c + 1))
  | _ => (nearest (fun i => replicaDist device die (p.replica e i)) v, rr)

/-- The replicas of a list of experts, in slot order. -/
def Policy.picks (p : Policy) (device die : Nat) (token : W32) : AMap Nat → List Nat → List Nat × AMap Nat
  | rr, [] => ([], rr)
  | rr, e :: r =>
    let x := p.pick device die token rr e
    let y := Policy.picks p device die token x.2 r
    (x.1 :: y.1, y.2)

/-- An entry of a routing record (14 Table 14.3). -/
def recordEntry (w : W32) (spare : Bool) (replica expert : Nat) : Nat :=
  w.toNat * 2 ^ 32 + b2n spare * 2 ^ 24 + replica * 2 ^ 16 + expert

/-- What a Router decides for a token: the record's bytes, the histogram words of its selected experts, whether it is a
BYPASS, and the round-robin counters after. -/
structure Decision where
  record : List Byte
  counted : List Nat
  bypass : Bool
  rr : AMap Nat
  deriving DecidableEq, Repr

/-- The Router's decision for a token (14 R284, R286). -/
def RouterTok.decision (t : RouterTok) (device die : Nat) (rr : AMap Nat) : Decision :=
  let p := t.policy
  let s := scoreRow p.score t.row
  let b := (s.zip p.bias).map (fun x => f32Add x.1 x.2)
  let c := p.candidates b
  let a := c.length
  let nsel := min p.k a
  let nspare := min p.r (a - nsel)
  let chosen := (c.take (nsel + nspare)).map Prod.fst
  let w := p.weights (chosen.map (fun e => s.getD e 0)) nsel
  let r := p.picks device die t.token rr chosen
  let ent (i : Nat) : Nat :=
    recordEntry (w.1.getD i 0) (nsel ≤ i) (r.1.getD i 0) (chosen.getD i 0)
  let entries := (upFrom 12 0).map (fun i =>
    if i < nsel then ent i
    else if p.k ≤ i ∧ i < p.k + nspare then ent (nsel + (i - p.k))
    else 0xFFFF)
  let flags := b2n (a == 0) + 2 * b2n w.2 + 4 * b2n t.poison + 8 * b2n (decide (a < p.k))
  { record :=
      natBytes 4 t.token.toNat ++ natBytes 4 t.seq ++ natBytes 1 nsel ++ natBytes 1 nspare ++ natBytes 1 flags ++
      natBytes 1 p.k ++ natBytes 4 (t.slot.toNat * 65536 + t.gate) ++ natBytes 16 0 ++
      (entries.map (natBytes 8)).flatten
    counted := if p.hist = 0 then [] else (chosen.take nsel).map (fun e => p.hist + 4 * e)
    bypass := a == 0
    rr := r.2 }

/-- A Router writes its decided record into its dispatcher's channel when there is allowance, and counts its selected slots
(14 R285, 16 R330). -/
def State.routerOffer (s : State) (die : Nat) : State :=
  let r := s.router die
  match r.held, r.launch with
  | h :: rest, some l =>
    let d := h.disp
    let have_ := (r.allow.find d).getD 0
    if have_ = 0 then s
    else
      let c := (s.launch l).physIdx d
      let ep := (s.cell c).chans[0]
      let n := (r.sent.find d).getD 0
      (s.setRouter die
        { r with
          held := rest
          hist := h.counted.foldl (fun m k => m.put k ((m.find k).getD 0 + 1)) r.hist
          allow := r.allow.put d (have_ - 1)
          sent := r.sent.put d (n + 1) }).send
        (.router die) (.cell c) .exchange (.slot c 0 h.record [] (n % ep.slots * ep.size))
  | _, _ => s

/-- ROUTER_TOKEN_DECIDE (14 R284, R285, R301): the oldest token is decided once no record is held; at a pre-emption the
tokens that the Router has accepted are decided all the same. Where a launch that has moved has no dispatcher on the die,
any may be named: the record waits (log 33). -/
def execRouterTokenDecide (die : Nat) (s : State) : Host.Outcome State Fault Refusal :=
  let s1 := s.routerOffer die
  let r := s1.router die
  let saving := match r.launch with
    | some l => (s.launch l).preempt
    | none => false
  match r.queue with
  | t :: q =>
    if !r.held.isEmpty && !saving then .next s1
    else
    let d := t.decision s.device die r.rr
    let mine := match r.launch with
      | some l => t.policy.disp.filter (fun i => dieOf ((s.launch l).physIdx i) = die)
      | none => []
    let all := if mine = [] then t.policy.disp else mine
    let disp := all.getD (t.token.toNat % all.length) 0
    let s2 := s1.setRouter die
      { r with
        queue := q
        rr := d.rr
        held := r.held ++ [{ disp := disp, record := d.record, counted := d.counted }] }
    let s3 := s2.countDie die 12 1
    let s4 := if d.bypass then { s3.countDie die 13 1 with routeEmpty := s.routeEmpty + 1 } else s3
    .next (s4.routerOffer die)
  | [] => .next s1

/-- CHANNEL_GRANT_ARRIVE (16 R328): the allowance of the sender rises, at a cell or at a Router. -/
def execChannelGrantArrive (msg : Nat) (s : State) : Host.Outcome State Fault Refusal :=
  match s.landed msg with
  | some m =>
    match m.body, m.dst with
    | .grant c e n, .cell _ =>
      .next ((s.dropMsg msg).updCell c (fun x =>
        let p := x.chans[Fin.ofNat 16 e]
        { x with chans := x.chans.set (Fin.ofNat 16 e) { p with count := p.count + n } }))
    | .grant i _ n, .router die =>
      let r := s.router die
      .next (((s.dropMsg msg).setRouter die
        { r with allow := r.allow.put i ((r.allow.find i).getD 0 + n) }).routerOffer die)
    | _, _ => idle s
  | none => idle s

end Sys2Proof.Machine
end

