-- ==== Sys2Proof/Machine/EExch.lean ====
section
/-!
DEFINITION. The Exchange Engine, Prism and the combiners (14 R289-R297, R400), and the poison log (19 R382).
-/

namespace Sys2Proof.Machine

open Sys2Proof

/-! ## Events and the poison log (19 R380, R382) -/

/-- Send an EVENT message to every open session of a job, or to every session (19 R380). -/
def State.eventSend (s : State) (job : Option Nat) (kind : Nat) (data : List Byte) : State :=
  let to_ := s.sessions.filter (fun e => job.isNone || e.2.job == job)
  to_.foldl (fun s e => s.hostOp e.1 (.event kind (e.2.job.getD 0) data)) s

/-- Write a number of `n` bytes at a GLOBAL address of a job at SYSTEM scope; no effect where it cannot be written. -/
def State.gwriteNum (s : State) (job va n x : Nat) : State :=
  match s.translate job va .write with
  | .pa pa => s.homeWrite pa n x false
  | _ => s

/-- The number of `n` bytes at a GLOBAL address of a job; 0 where it cannot be read. -/
def State.greadNum (s : State) (job va n : Nat) : Nat :=
  match s.translate job va .read with
  | .pa pa => s.homeRead pa n
  | _ => 0

/-- The first of the addresses that a poison-log append needs that is not mapped (03 R58). -/
def State.logUnmapped (s : State) (job : Nat) : Option Nat :=
  let j := s.job job
  let at_ := j.poisonRing + 32 * (s.greadNum job j.poisonBlock 8 % 2 ^ j.poisonN)
  if (j.walk j.poisonBlock 3).isNone then some j.poisonBlock else if (j.walk at_ 3).isNone then some at_ else none

/-- POISON_LOG_APPEND (19 R382): an entry of 32 bytes at head mod 2^n, then head; or Lost when the ring is full. A launch
that finds the log unmapped fails (03 R58, log 25). -/
def State.poisonAppend (s : State) (job : Nat) (launch : Option Nat) (entry : Nat) : State :=
  match s.logUnmapped job with
  | some va =>
    match launch with
    | some l => s.killLaunch l (some (.unmapped va))
    | none => s
  | none =>
  let j := s.job job
  let head := s.greadNum job j.poisonBlock 8
  let tail := s.greadNum job (j.poisonBlock + 8) 8
  if j.poisonN = 0 then s
  else if (head + 2 ^ 64 - tail) % 2 ^ 64 = 2 ^ j.poisonN then
    (s.gwriteNum job (j.poisonBlock + 16) 8 (s.greadNum job (j.poisonBlock + 16) 8 + 1)).eventSend (some job) 2
      (natBytes 8 head)
  else
    let s1 := s.gwriteNum job (j.poisonRing + 32 * (head % 2 ^ j.poisonN)) 32 entry
    let s2 := s1.gwriteNum job j.poisonBlock 8 (head + 1)
    if head = tail then s2.eventSend (some job) 2 (natBytes 8 (head + 1)) else s2

/-- A poison-log entry (19 Table 19.3). -/
def poisonEntry (kind device idx kernel token seq expert addr : Nat) : Nat :=
  kind + 2 ^ 32 * (device + 2 ^ 16 * (idx + 2 ^ 16 * (kernel + 2 ^ 32 * (token + 2 ^ 32 * (seq + 2 ^ 32 *
    (expert + 2 ^ 32 * addr))))))

/-! ## Rounds (14 R289, R292-R294) -/

/-- A submission by number. -/
def State.exSub (s : State) (id : Nat) : Option ExSub := s.exch.find? (fun x => x.id = id)

/-- Change a submission. -/
def State.updSub (s : State) (id : Nat) (f : ExSub → ExSub) : State :=
  { s with exch := s.exch.map (fun x => if x.id = id then f x else x) }

/-- A row or notice of a submission has been performed; on another device the answer travels (14 R291). -/
def State.exPaid (s : State) (id n : Nat) : State := s.updSub id (fun x => { x with owed := x.owed - n })

/-- A row or notice of a submission has been performed here: the engine of its device hears of it. -/
def State.paid (s : State) (org : ExOrg) (sub n : Nat) : State :=
  if org.dev = s.device then s.exPaid sub n else s.sendFabric org.dev .response (.exAck sub n)

/-- The engines' queue has room again: a parked EXSEND of the cell submits what it copied (14 R291). -/
def State.exWake (s : State) (c : Nat) : State :=
  let waiting := (s.cell c).fibres.filterMap (fun e =>
    match e.2.status with
    | .parked (.exch r _) _ => some (e.1, r)
    | _ => none)
  let first := waiting.foldl (fun (b : Option (Nat × ExReq)) x =>
    match b with
    | none => some x
    | some y =>
      if ((s.cell c).fibre x.1).parkSeq.getD 0 < ((s.cell c).fibre y.1).parkSeq.getD 0 then some x else b) none
  match first with
  | none => s
  | some (slot, r) =>
    if 8 ≤ s.exHeld r.launch r.idx then s
    else
      (s.exSubmit c r).updCell c (fun x =>
        let f := x.fibre slot
        x.setFibre slot { f with body := f.body.past 4, status := .ready, parkSeq := none })

/-- A submission leaves the engine. -/
def State.exLeave (s : State) (x : ExSub) : State :=
  let s1 : State := { s with exch := s.exch.filter (fun y => y.id != x.id) }
  if x.req.device = s.device then s1.exWake ((s.launch x.req.launch).physIdx x.req.idx) else s1

/-- A round is abandoned: every source of it on this device takes an engine trap with ROUTE (14 R289, R292, R302). -/
def State.abandon (s : State) (subs : List ExSub) (code x : Nat) : State :=
  subs.foldl (fun s u =>
    let s1 := s.exLeave u
    if u.req.device = s.device then
      s1.unitTrap ((s.launch u.req.launch).physIdx u.req.idx) .exch
        { cls := cROUTE, sub := 0, detail := routeDetail code x, pc := 0, seq := 0, word := 0, when_ := 0, src := 4 }
    else s1) s

/-- The cells of a role, in source order: by device rank, then by logical index (14 R292). -/
def Launch.sources (l : Launch) (device role : Nat) : List (Nat × Nat) :=
  let idx := (upFrom (l.w * l.h) 0).filter (fun i => l.roles.getD i 0 = role)
  (if l.spread = [] then [device] else l.spread.foldl (fun a d => setAdd a d) []).flatMap
    (fun d => idx.map (fun i => (d, i)))

/-- The submissions of a round of a launch, in source order, when every cell of the round's role has submitted: of the
first such round in the order of submission. -/
def State.roundReady (s : State) (l : Nat) : Option (List ExSub) :=
  let open_ := s.exch.filter (fun x => x.req.launch = l ∧ x.req.dispatch ∧ !x.started)
  open_.findSome? (fun x =>
    let subs := ((s.launch l).sources s.device (x.round % 16)).map (fun p =>
      open_.find? (fun y => y.req.device = p.1 ∧ y.req.idx = p.2 ∧ y.round = x.round))
    if subs.all Option.isSome then some (subs.filterMap id) else none)

/-- The sources of a round agree on mode, row size, tables, role and overflow policy (14 R292, R400). -/
def sameRound (a b : ExSub) : Bool :=
  a.req.fast == b.req.fast && a.req.rowSize == b.req.rowSize && a.req.policyVa == b.req.policyVa &&
  a.req.slotDir == b.req.slotDir && a.req.combVa == b.req.combVa && a.req.role == b.req.role &&
  (a.req.policy.map (fun p => p.flags.toNat / 16 % 4)) == (b.req.policy.map (fun p => p.flags.toNat / 16 % 4))

/-- The dies that a launch touches, rising. -/
def Launch.dies (l : Launch) : List Nat :=
  (upFrom (l.w * l.h) 0).foldl (fun a i => setAdd a (dieOf (l.physIdx i))) []

/-- A used slot's record (14 Table 14.6), or none where it breaks the table. -/
def State.slotRec (s : State) (l : Launch) (die i rs : Nat) (r : List Byte) : Option ExSlot :=
  let cell := bAt r 0 2
  let cap := bAt r 2 2
  let buf := bAt r 4 4
  let tags := bAt r 8 4
  let ctr := bAt r 0xE 2
  if cell < l.w * l.h ∧ dieOf (l.physIdx cell) = die ∧ cap ≤ 4096 ∧ bAt r 0xC 2 = rs ∧ buf % 16 = 0 ∧ tags % 16 = 0 ∧
      buf + cap * rs ≤ Config.hwArea ∧ tags + cap * 16 ≤ Config.hwArea ∧ ctr < 32768 then
    some {
      dest := 256 * s.device + 64 * die + i
      cell := l.physIdx cell
      cap := cap
      buffer := buf
      tags := tags
      filled := Fin.ofNat 32 ctr
      done := Fin.ofNat 32 (ctr / 32)
      release := Fin.ofNat 32 (ctr / 1024)
      granted := 0
      pos := 0
      toCome := 0
      started := false
      finished := false }
  else none

/-- The used slots of the dies named, or the code and value of the failure (14 R289). -/
def State.readSlots (s : State) (l : Launch) (dir rs : Nat) : List Nat → Except (Nat × Nat) (List ExSlot)
  | [] => .ok []
  | d :: rest =>
    match s.gread l.job (dir + 1024 * d) 1024 with
    | .error _ => .error (13, 64 * d)
    | .ok b =>
      let recs := (upFrom 64 0).filterMap (fun i =>
        if bAt b (16 * i + 2) 2 = 0 then none else some (i, s.slotRec l d i rs (b.drop (16 * i))))
      match recs.find? (fun x => x.2.isNone) with
      | some x => .error (10, 64 * d + x.1)
      | none =>
        match State.readSlots s l dir rs rest with
        | .ok r => .ok (recs.filterMap Prod.snd ++ r)
        | e => e

/-- The entries of a source: a NOTICE entry needs no permit; of two entries of one token for one destination the one
with the higher j is dropped (14 R292). -/
def sourceEnts (src : Nat) (l : List BinEnt) : List RoundEnt :=
  l.map (fun e =>
    let dup := l.any (fun x => !x.null && x.token == e.token && x.originDev == e.originDev && x.dest == e.dest &&
      decide (x.j < e.j))
    { src := src
      ent := e
      dest := e.dest
      expert := e.expert
      replica := e.replica
      state := if e.null then .null else if dup then .dropped else .waiting })

/-- Hand the remaining grants out, one to each source in order that still demands (14 R293). -/
def spendGrants : Nat → List (Nat × Nat) → List Nat
  | _, [] => []
  | r, (g, d) :: rest => if 0 < r ∧ g < d then (g + 1) :: spendGrants (r - 1) rest else g :: spendGrants r rest

/-- The grants of a slot with room `c` to demands `d`, by source (14 R293). -/
def grants (c : Nat) (d : List Nat) : List Nat :=
  let total := d.foldl (· + ·) 0
  if total ≤ c then d
  else
    let g := d.map (fun x => c * x / total)
    spendGrants (c - g.foldl (· + ·) 0) (g.zip d)

/-- `a` is sent before `b`: by weight descending, ties by token id ascending (14 R293). -/
def sendsBefore (a b : RoundEnt) : Bool :=
  if f32Lt b.ent.weight a.ent.weight then true
  else if f32Lt a.ent.weight b.ent.weight then false
  else decide (a.ent.token < b.ent.token)

/-- Insert an indexed entry in sending order. -/
def insertEnt (x : Nat × RoundEnt) : List (Nat × RoundEnt) → List (Nat × RoundEnt)
  | [] => [x]
  | y :: r => if sendsBefore x.2 y.2 then x :: y :: r else y :: insertEnt x r

/-- The places in the round's list of the entries that a slot grants. -/
def grantedAt (ents : List (Nat × RoundEnt)) (nsrc : Nat) (slot : ExSlot) : List Nat :=
  let bySrc := (upFrom nsrc 0).map (fun i =>
    (ents.filter (fun e => e.2.src = i ∧ e.2.state = .waiting ∧ e.2.dest = slot.dest)).foldl
      (fun a e => insertEnt e a) [])
  let g := grants (slot.cap - slot.granted) (bySrc.map List.length)
  ((bySrc.zip g).map (fun x => (x.1.take x.2).map Prod.fst)).flatten

/-- One permit (14 R293): entries granted, slots charged. -/
def Round.permit (r : Round) : Round :=
  let idx := (upFrom r.ents.length 0).zip r.ents
  let res (l : List ExSlot) : List (ExSlot × List Nat) := l.map (fun sl => (sl, grantedAt idx r.subs.length sl))
  let charged (l : List ExSlot) : List ExSlot :=
    (res l).map (fun x => { x.1 with granted := x.1.granted + x.2.length })
  let won := ((res (r.slots ++ r.far)).map Prod.snd).flatten
  { r with
    slots := charged r.slots
    far := charged r.far
    ents := idx.map (fun e => if won.contains e.1 then { e.2 with state := .granted } else e.2) }

/-- Where an overflowed entry goes under the overflow policy, by its source's placement (14 R294, R400). -/
def RoundEnt.reroute (e : RoundEnt) (p : Policy) (policy : Nat) : RoundEnt :=
  let next (x i : Nat) : RoundEnt :=
    { e with dest := replicaDest (p.replica x i), expert := x, replica := i }
  match policy with
  | 1 =>
    match ((upFrom 3 1).map (fun i => (e.replica + i) % 4)).find? (fun i => (p.replica e.expert i).testBit 31) with
    | some i => next e.expert i
    | none => { e with state := .dropped }
  | 2 =>
    if e.ent.spareExpert < p.experts ∧ (p.replica e.ent.spareExpert (e.ent.spareReplica % 4)).testBit 31 then
      next e.ent.spareExpert (e.ent.spareReplica % 4)
    else { e with state := .dropped }
  | _ => { e with state := .dropped }

/-- A round by number. -/
def State.round (s : State) (id : Nat) : Option Round := s.rounds.find? (fun r => r.id = id)

/-- Put a round back. -/
def State.setRound (s : State) (r : Round) : State :=
  { s with rounds := s.rounds.map (fun x => if x.id = r.id then r else x) }

/-- Where the rows and notices of a submission come from. -/
def State.exOrg (s : State) (u : ExSub) : ExOrg :=
  { dev := s.device, key := (s.launch u.req.launch).key, round := u.round }

/-- Send the notice of an entry to its token's combiner (14 R290, R294). -/
def State.sendNotice (s : State) (u : ExSub) (e : RoundEnt) (st : NoticeStatus) : State :=
  let pl := u.req.comb.place e.ent.token
  let l := s.launch u.req.launch
  let dst := l.physIdx pl.1
  let n : Notice :=
    { token := e.ent.token
      seq := e.ent.seq
      k := e.ent.k
      j := e.ent.j
      dest := e.dest
      weight := e.ent.weight
      poison := e.ent.poison
      renorm := e.ent.renorm
      status := st }
  let src : Node := .exch (dieOf (l.physIdx u.req.idx))
  if e.ent.originDev = s.device then
    s.send src (.cell dst) .exchange (.notice dst pl.2 u.req.comb n u.id (s.exOrg u))
  else s.sendFabric e.ent.originDev .exchange (.notice pl.1 pl.2 u.req.comb n u.id (s.exOrg u))

/-- The notices that a source of this device owes for the entries of a decided round. -/
def State.sendNotices (s : State) (r : Round) (subs : List ExSub) : State :=
  r.ents.foldl (fun s e =>
    match subs[e.src]? with
    | none => s
    | some u =>
      if u.req.device ≠ s.device then s
      else
      let st : Option NoticeStatus := match e.state with
        | .granted => some .granted
        | .dropped => some .dropped
        | .null => some .null
        | .waiting => none
      match st with
      | none => s
      | some n => (s.sendNotice u e n).updSub u.id (fun x => { x with owed := x.owed + 1 })) s

/-- The rows of a token that go to one die travel in one packet (14 R295). -/
def packets (l : List RoundEnt) : List (List RoundEnt) :=
  l.foldl (fun acc e =>
    if acc.any (fun g => g.any (fun x => x.ent.token == e.ent.token && x.src == e.src && x.dest / 64 == e.dest / 64 &&
        x.ent.originDev == e.ent.originDev)) then
      acc.map (fun g =>
        if g.any (fun x => x.ent.token == e.ent.token && x.src == e.src && x.dest / 64 == e.dest / 64 &&
            x.ent.originDev == e.ent.originDev) then
          g ++ [e] else g)
    else acc ++ [[e]]) []

/-- Insert a slot of a packet in rising slot number. -/
def insertSlot (x : Nat × W32) : List (Nat × W32) → List (Nat × W32)
  | [] => [x]
  | y :: r => if x.1 < y.1 then x :: y :: r else y :: insertSlot x r

/-- Send the packet of a token to a die (14 R295, R299): the row is read from the origin cell now; its origin device is
this one. -/
def State.sendPacket (s : State) (r : Round) (u : ExSub) (g : List RoundEnt) : State :=
  match g with
  | [] => s
  | e :: _ =>
    let l := s.launch u.req.launch
    let org := l.physIdx e.ent.origin
    let off := u.req.rows + e.ent.rowSlot * u.req.rowSize
    let p := (s.cell org).spad
    let slots := (g.map (fun x => (x.dest, x.ent.weight))).foldl (fun a x => insertSlot x a) []
    let dev := e.dest / 256
    let body : MsgBody := .packet r.id u.id e.ent.token e.ent.seq (g.any (·.ent.poison)) false e.ent.origin s.device slots
      (Mem.readBytes p.bytes u.req.rowSize off) (copyPoison p off u.req.rowSize) (s.exOrg u)
    let s1 := s.updSub u.id (fun x => { x with owed := x.owed + g.length })
    if dev = s.device then
      let first := match r.slots.find? (fun sl => sl.dest = (slots.headD (0, 0)).1) with
        | some sl => sl.cell
        | none => org
      s1.send (.exch (dieOf (l.physIdx u.req.idx))) (.cell first) .exchange body
    else s1.sendFabric dev .exchange body

/-- Send the rows of entries of a round. -/
def State.sendRows (s : State) (r : Round) (subs : List ExSub) (l : List RoundEnt) : State :=
  (packets l).foldl (fun s g =>
    match g with
    | [] => s
    | e :: _ =>
      match subs[e.src]? with
      | some u => if u.req.device = s.device then s.sendPacket r u g else s
      | none => s) s

/-- The submissions of a round, in source order. -/
def State.roundSubs (s : State) (r : Round) : List ExSub := r.subs.filterMap s.exSub

/-- A slot whose rows have all been delivered raises its done counter, a slot without a row too (20 R389). -/
def State.closeSlots (s : State) (id : Nat) : State :=
  match s.round id with
  | none => s
  | some r =>
    if r.phase ≠ .decided then s
    else
      let isOver (sl : ExSlot) : Bool :=
        !sl.finished && (if r.fast then sl.toCome == 0 else sl.pos == sl.granted)
      let s1 := r.slots.foldl (fun s sl => if isOver sl then s.releaseBump sl.cell sl.done 1 .device else s) s
      s1.setRound { r with slots := r.slots.map (fun sl => if isOver sl then { sl with finished := true } else sl) }

/-- The round is decided: notices leave and slots without rows close. -/
def State.decideRound (s : State) (r : Round) (subs : List ExSub) : State :=
  let r1 := { r with phase := .decided }
  let s1 := (s.setRound r1).sendNotices r1 subs
  (subs.foldl (fun s u => s.updSub u.id (fun x => { x with decided := true })) s1).closeSlots r.id

/-- Another part of a spread launch has started a round of a key. -/
def State.begunElsewhere (s : State) (l : Launch) (round : Nat) : Bool :=
  s.farSlots.any (fun x => some x.1 == l.key && x.2.1 == round)

/-- A FAST round sends its rows once every device has read its slots, and is decided (14 R289, R294). -/
def State.fastRows (s : State) (r : Round) (subs : List ExSub) : State :=
  let used (d : Nat) : Bool := r.slots.any (fun sl => sl.dest = d) || r.far.any (fun sl => sl.dest = d)
  let ents := r.ents.map (fun e => if e.state = .waiting ∧ !used e.dest then { e with state := .dropped } else e)
  let r1 : Round :=
    { r with
      ents := ents
      slots := r.slots.map (fun sl =>
        { sl with toCome := (ents.filter (fun e => e.state = .waiting ∧ e.dest = sl.dest)).length }) }
  (s.sendRows r1 subs (ents.filter (fun e => e.state = .waiting))).decideRound r1 subs

/-- DISPATCH_ROUND_START (14 R289, R292): checks, the slot directory, the entries. During a pre-emption only a round that
another part has started goes on (14 R301). -/
def execDispatchRoundStart (launch : Nat) (s : State) : Host.Outcome State Fault Refusal :=
  let l := s.launch launch
  match (if l.stage = .running ∧ !l.cancel then s.roundReady launch else none) with
  | none => idle s
  | some [] => idle s
  | some (u :: rest) =>
    let subs := u :: rest
    if l.preempt && !s.begunElsewhere l u.round then idle s
    else if !rest.all (sameRound u) ∨ u.req.role ≠ u.round % 16 then .next (s.abandon subs 12 (u.round / 16))
    else
      match s.readSlots l u.req.slotDir.toNat u.req.rowSize l.dies with
      | .error (code, x) =>
        .next ((s.abandon subs code x).toParts launch (fun key => .exAbandon key u.round code x))
      | .ok slots =>
        let r : Round :=
          { id := s.nextId
            n := u.round
            launch := launch
            fast := u.req.fast
            policy := match u.req.policy with
              | some p => p.flags.toNat / 16 % 4
              | none => 0
            subs := subs.map (·.id)
            slots := slots
            far := []
            ents := ((upFrom subs.length 0).zip subs).flatMap (fun x => sourceEnts x.1 x.2.req.ents)
            phase := .permit }
        let s1 := subs.foldl (fun s u => s.updSub u.id (fun x => { x with started := true })) s.newId
        let s2 := ({ s1 with rounds := s1.rounds ++ [r] } : State).toParts launch (fun key => .exSlots key u.round slots)
        .next s2

/-- The slots that the other devices of a spread launch have told of for a round. -/
def State.farOf (s : State) (r : Round) : List ExSlot :=
  match (s.launch r.launch).key with
  | some key => (s.farSlots.filter (fun x => x.1 = key ∧ x.2.1 = r.n)).flatMap (fun x => x.2.2.2)
  | none => []

/-- Every other device of a spread launch has told of its slots. -/
def State.farReady (s : State) (r : Round) : Bool :=
  let l := s.launch r.launch
  l.spread.all (fun d => d == s.device || s.farSlots.any (fun x => some x.1 == l.key && x.2.1 == r.n && x.2.2.1 == d))

/-- A round is counted by the Exchange Engine of each die of its launch (19 Table 19.5). -/
def State.countRound (s : State) (r : Round) (i : Nat) : State :=
  (s.launch r.launch).dies.foldl (fun s d => s.countDie d i 1) s

/-- PERMIT_ROUND (14 R293, R294), once every device has told of its slots: the first permit; granted rows leave; the rest
overflow. A FAST round has no permit and sends its rows. -/
def execPermitRound (id : Nat) (s : State) : Host.Outcome State Fault Refusal :=
  match s.round id with
  | none => idle s
  | some r =>
    if r.phase ≠ .permit || !s.farReady r then idle s
    else if r.fast then .next (s.fastRows { r with far := s.farOf r } (s.roundSubs r))
    else
      let subs := s.roundSubs r
      let r1 := ({ r with far := s.farOf r } : Round).permit
      let s1 := s.countRound r 14
      let s2 := s1.sendRows r1 subs (r1.ents.filter (fun e => e.state = .granted))
      let r2 : Round :=
        { r1 with
          ents := r1.ents.map (fun e =>
            if e.state = .waiting then
              match (subs[e.src]?).bind (·.req.policy) with
              | some p => e.reroute p r.policy
              | none => { e with state := .dropped }
            else e) }
      if r.policy = 1 ∨ r.policy = 2 then .next (s2.setRound { r2 with phase := .second })
      else .next (s2.decideRound r2 subs)

/-- SECOND_ROUND (14 R294): the overflowed entries over the capacity that is left; the rest are dropped. -/
def execSecondRound (id : Nat) (s : State) : Host.Outcome State Fault Refusal :=
  match s.round id with
  | none => idle s
  | some r =>
    if r.phase ≠ .second then idle s
    else
      let subs := s.roundSubs r
      let r1 := r.permit
      let new := ((r.ents.zip r1.ents).filter (fun e => e.1.state = .waiting ∧ e.2.state = .granted)).map Prod.snd
      let s1 := (s.countRound r 15).sendRows r1 subs new
      let r2 : Round :=
        { r1 with ents := r1.ents.map (fun e => if e.state = .waiting then { e with state := .dropped } else e) }
      .next (s1.decideRound r2 subs)

/-! ## Prism (14 R295) -/

/-- The tag of a row (14 Table 14.11). -/
def expertTag (token : W32) (seq : Nat) (bad : Bool) (origin dev : Nat) (weight : W32) : Nat :=
  token.toNat + 2 ^ 32 * (seq + 2 ^ 24 * b2n bad + 2 ^ 32 * (origin + 2 ^ 10 * dev + 2 ^ 32 *
    convFloat .bf16 .rne true true 0 (fv weight)))

/-- A slot has consumed its release counter for its round, now or before; or it waits for it (14 R295, 16 R321). -/
def State.prismStart (s : State) (r : Round) (sl : ExSlot) : State × Bool :=
  let key := 256 * r.id + sl.dest % 256
  let c := s.cell sl.cell
  if sl.started then (s, true)
  else if c.prismOk.contains key then
    (s.updCell sl.cell (fun c => { c with prismOk := setDel c.prismOk key }), true)
  else if (c.prismWait.find key).isSome then (s, false)
  else
    let c1 := ({ c with prismWait := c.prismWait.put key sl.release } : Cell)
    let c2 := if c1.acts = [] then c1.servePrism c1.prismWait else c1
    if c2.prismOk.contains key then (s.setCell sl.cell { c2 with prismOk := setDel c2.prismOk key }, true)
    else (s.setCell sl.cell c2, false)

/-- Place a row and its tag in a slot, and count it. -/
def State.prismPlace (s : State) (sl : ExSlot) (tag : Nat) (row : List Byte) (bad : List Nat) : State :=
  let s1 := s.updCell sl.cell (fun c =>
    { c with spad := (c.spad.writeBytes (sl.buffer + sl.pos * row.length) row bad).write (sl.tags + 16 * sl.pos) 16 tag false })
  s1.releaseBump sl.cell sl.filled 1 .device

/-- A slot that does not exist. -/
def ExSlot.none_ : ExSlot where
  dest := 0
  cell := 0
  cap := 0
  buffer := 0
  tags := 0
  filled := 0
  done := 0
  release := 0
  granted := 0
  pos := 0
  toCome := 0
  started := false
  finished := false

/-- PRISM_PACKET_ARRIVE (14 R295): Prism handles the first slot that the packet still names; a FAST slot that is full
refuses the row, and its notice says so. -/
def execPrismPacketArrive (msg : Nat) (s : State) : Host.Outcome State Fault Refusal :=
  match s.landed msg with
  | none => idle s
  | some m =>
    match m.body with
    | .packet rid sub token seq bad byp origin dev ((d, w) :: more) row poison org =>
      match s.round rid with
      | none => idle s
      | some r =>
        let at_ := r.slots.find? (fun sl => sl.dest = d)
        let sl := at_.getD .none_
        if at_.isNone && !r.fast then idle s
        else
          let full := r.fast && (at_.isNone || decide (sl.cap ≤ sl.pos))
          let go := if full then (s, true) else s.prismStart r sl
          if !go.2 then .next go.1
          else
            let s1 := if more = [] then go.1.dropMsg msg
              else go.1.setMsg msg (fun m =>
                { m with body := .packet rid sub token seq bad byp origin dev more row poison org })
            let s2 := if full then s1
              else s1.prismPlace sl (expertTag token seq (bad || !poison.isEmpty) origin dev w) row poison
            let sl1 : ExSlot :=
              { sl with
                started := sl.started || !full
                pos := if full then sl.pos else sl.pos + 1
                granted := if r.fast && !full then sl.granted + 1 else sl.granted
                toCome := sl.toCome - 1 }
            let r1 : Round := { r with slots := r.slots.map (fun x => if x.dest = d then sl1 else x) }
            let s3 := s2.setRound r1
            let s4 :=
              if org.dev ≠ s.device then
                (if r.fast then s3.sendFabric org.dev .exchange (.exFast (org.key.getD (0, 0)) sub token d (!full)) else s3.paid org sub 1)
              else if r.fast then
                match (r.ents.find? (fun e => e.state = .waiting ∧ e.ent.token = token ∧ e.dest = d ∧ (r.subs[e.src]? = some sub))), s.exSub sub with
                | some e, some u => s3.sendNotice u e (if full then .dropped else .granted)
                | _, _ => s3.exPaid sub 1
              else s3.exPaid sub 1
            .next (s4.closeSlots rid)
    | _ => idle s

/-! ## Return and combine (14 R296, R297) -/

/-- The notices of an entry in ascending j. -/
def CombEntry.sorted (e : CombEntry) : List Notice :=
  (upFrom 256 0).filterMap (fun j => e.notices.find? (fun n => n.j = j))

/-- The weights of the survivors, by slot (14 R297). -/
def CombEntry.weights (e : CombEntry) : List (Nat × W32) :=
  let l := e.sorted
  let g := (l.filter (fun n => n.status = .granted)).map (fun n => (n.j, n.weight))
  if l.any (·.renorm) ∧ l.any (fun n => n.status == .dropped) then
    match g with
    | [] => []
    | a :: r =>
      let sum := r.foldl (fun t x => f32Add t x.2) a.2
      g.map (fun x => (x.1, f32Div x.2 sum))
  else g

/-- COMBINE_ENTRY_READY (14 R297): an entry with k notices and every granted row gets its weights and is posted; a
poisoned token goes into the poison log. -/
def State.combineReady (s : State) (c t : Nat) (ct : CombTable) : State :=
  match (s.cell c).comb.find t with
  | none => s
  | some e =>
    let g := e.notices.filter (fun n => n.status = .granted)
    if e.posted || e.notices.length < ct.k || !g.all (fun n => e.rows.any (fun r => r.1 = n.j)) then s
    else
      let w := e.weights
      let bad := e.notices.any (·.poison) || e.rows.any (·.2)
      let mask := g.foldl (fun a n => a ||| 2 ^ n.j) 0
      let x := e.token.toNat * 2 ^ 32 + b2n (e.notices.any (fun n => n.status == .dropped)) * 2 ^ 27 +
        b2n (e.notices.any (fun n => n.status == .null)) * 2 ^ 26 + b2n g.isEmpty * 2 ^ 25 + b2n bad * 2 ^ 24 +
        mask % 256 * 2 ^ 16 + t
      let s1 := s.updCell c (fun y =>
        { y with
          spad := (upFrom ct.k 0).foldl (fun p j =>
            let v := match w.find? (fun z => z.1 = j) with
              | some z => z.2.toNat
              | none => 0
            p.write (ct.weights + 4 * (t * ct.k + j)) 4 v false) y.spad
          comb := y.comb.put t { e with posted := true }
          readyQ := y.readyQ ++ [w64 x] })
      if bad then
        let l := s.launchOf c
        let seq := match e.notices with
          | n :: _ => n.seq
          | [] => 0
        s1.poisonAppend l.job (s.cell c).launch
          (poisonEntry 1 s.device ((s.cell c).idx l) l.kernelId.toNat e.token.toNat seq 0 0)
      else s1

/-- NOTICE_ARRIVE (14 R290, R297): a notice waits while its entry holds another token. -/
def execNoticeArrive (msg : Nat) (s : State) : Host.Outcome State Fault Refusal :=
  match s.landed msg with
  | none => idle s
  | some m =>
    match m.body with
    | .notice c t ct n sub org =>
      let e := ((s.cell c).comb.find t).getD { token := n.token, notices := [], rows := [], posted := false }
      if e.token ≠ n.token ∨ e.posted then idle s
      else
        let e1 : CombEntry := { e with notices := e.notices.filter (fun y => y.j != n.j) ++ [n] }
        let s1 := (s.dropMsg msg).updCell c (fun x => { x with comb := x.comb.put t e1 })
        .next ((s1.paid org sub 1).combineReady c t ct)
    | _ => idle s

/-- RETURN_ROW_ARRIVE (14 R296): the row goes to the slot of its GRANTED notice; it waits for the notice, or is
discarded when the token has none for that destination. -/
def execReturnRowArrive (msg : Nat) (s : State) : Host.Outcome State Fault Refusal :=
  match s.landed msg with
  | none => idle s
  | some m =>
    match m.body with
    | .retRow c t ct token dest bad row poison sub org =>
      match (s.cell c).comb.find t with
      | none => idle s
      | some e =>
        if e.token ≠ token then idle s
        else
          match e.sorted.find? (fun n => n.status = .granted ∧ n.dest = dest) with
          | none =>
            if e.notices.length < ct.k then idle s
            else .next (((s.dropMsg msg).count c 21 1).paid org sub 1)
          | some n =>
            let e1 : CombEntry :=
              { e with rows := e.rows.filter (fun r => r.1 != n.j) ++ [(n.j, bad || !poison.isEmpty)] }
            let s1 := (s.dropMsg msg).updCell c (fun x =>
              { x with
                spad := x.spad.writeBytes (ct.buffer + (t * ct.k + n.j) * ct.rowSize) row poison
                comb := x.comb.put t e1 })
            .next ((s1.paid org sub 1).combineReady c t ct)
    | _ => idle s

/-- EXCHANGE_COMPLETE (14 R291): every row and notice of a request has been performed; its counter rises. -/
def execExchangeComplete (sub : Nat) (s : State) : Host.Outcome State Fault Refusal :=
  match s.exSub sub with
  | none => idle s
  | some u =>
    if !u.decided || u.owed != 0 then idle s
    else
      let c := (s.launch u.req.launch).physIdx u.req.idx
      let s1 := if u.req.device = s.device ∧ u.req.comp.testBit 5 then
          s.releaseBump c (Fin.ofNat 32 u.req.comp) 1 u.req.scope else s
      .next (s1.exLeave u)

end Sys2Proof.Machine
end

