-- ==== Sys2Proof/Machine/SCopy.lean ====
section
/-!
DEFINITION. Copy Engine words of the S stream: CPYQ, CPYA, CPYC, GATH, SCAT (13 R261-R271, R277, R279).
-/

namespace Sys2Proof.Machine

open Sys2Proof

/-! ## Fields of a request -/

/-- Op of a CPYQ or CPYA request (13 Table 13.1). -/
def CopyReq.op (r : CopyReq) : Nat := fld r.w0 3 0

/-- `n` bytes of the descriptor from an offset. -/
def CopyReq.dsc (r : CopyReq) (o n : Nat) : Nat := r.desc.toNat / 2 ^ (8 * o) % 2 ^ (8 * n)

/-- `n` bytes of the descriptor as a signed number. -/
def CopyReq.dscS (r : CopyReq) (o n : Nat) : Int := (BitVec.ofNat (8 * n) (r.dsc o n)).toInt

/-- Element size in bytes (13 Table 13.1, Table 13.7). -/
def CopyReq.esize (r : CopyReq) : Nat :=
  match r.scat with
  | none => 2 ^ fld r.w0 15 14
  | some _ => 2 ^ r.dsc 0x1C 1

/-- The handler word: transfer id in [63:48], handler PC in [47:0] (13 R262). -/
def CopyReq.hword (r : CopyReq) : Word :=
  match r.scat with
  | none => r.w3
  | some _ => w64 (r.dsc 0x20 8)

/-- The completion counter, when it is enabled. -/
def CopyReq.counter (r : CopyReq) : Option KReg :=
  match r.scat with
  | none => if r.w0.getLsbD 9 then some (Fin.ofNat 32 (fld r.w0 8 4)) else none
  | some _ => if (r.dsc 0x1D 1).testBit 5 then some (Fin.ofNat 32 (r.dsc 0x1D 1)) else none

/-- The completion handler is enabled. -/
def CopyReq.handler (r : CopyReq) : Bool :=
  match r.scat with
  | none => r.w0.getLsbD 10
  | some _ => (r.dsc 0x1D 1).testBit 6

/-- Scope code of the completion release. -/
def CopyReq.scopeCode (r : CopyReq) : Nat :=
  match r.scat with
  | none => fld r.w0 13 11
  | some _ => r.dsc 0x1E 1

/-- Scope of the completion release; the issue checks turn away any other code. -/
def CopyReq.scope (r : CopyReq) : Scope := (Scope.ofCode? r.scopeCode).getD .system

/-- The op has no extended descriptor: LINEAR and FILL (13 Table 13.1). -/
def CopyReq.plain (r : CopyReq) : Bool := r.scat == none && (r.op == 0 || r.op == 4)

/-- Number of partners of a MIRROR (13 R266). -/
def CopyReq.partners (r : CopyReq) : Nat := r.dsc 0x0C 1

/-- A direction of a HALO is enabled: 0 N, 1 E, 2 S, 3 W (13 Table 13.5). -/
def CopyReq.dirOn (r : CopyReq) (d : Nat) : Bool := (r.dsc 9 1).testBit d

/-- The destination of a direction of a HALO. -/
def CopyReq.dirDst (r : CopyReq) (d : Nat) : Word := w64 (r.dsc (0x10 + 8 * d) 8)

/-! ## Checks at issue (13 R268, Table 13.6) -/

/-- A field check: the word (0-3, or 4 for the descriptor), the field's place, and whether it fails. -/
abbrev FieldCheck := Nat × Nat × Bool

/-- Bytes of the descriptor that no table lists are zero. -/
def CopyReq.zeros (r : CopyReq) (o n : Nat) : FieldCheck := (4, o, r.dsc o n != 0)

/-- The descriptor's field checks, by ascending offset (13 Tables 13.3 to 13.5, R265, R266). -/
def CopyReq.descChecks (r : CopyReq) : List FieldCheck :=
  let f (o : Nat) (bad : Bool) : FieldCheck := (4, o, bad)
  let es := r.esize
  let mbz := r.zeros
  let u := r.dsc
  let out (x lo hi : Nat) : Bool := decide (x < lo) || decide (hi < x)
  match r.op with
  | 1 | 2 =>
    let two : Bool := r.op = 2
    [f 0 (out (u 0 4) 1 1048576 || u 0 4 % es != 0), f 4 (out (u 4 4) 1 1048576),
     f 0x18 (if two then out (u 0x18 4) 1 1048576 else u 0x18 4 != 0), mbz 0x1C 4,
     f 0x20 (!two && u 0x20 8 != 0), f 0x28 (!two && u 0x28 8 != 0), mbz 0x30 16]
  | 3 =>
    [f 0 (out (u 0 2) 1 65535), f 2 (out (u 2 2) 1 65535), f 4 (out (u 4 2) 1 4096), mbz 6 2,
     f 0x14 (out (u 0x14 2) 1 4096), f 0x16 (out (u 0x16 2) 1 4096 || decide (65536 < u 0x14 2 * u 0x16 2)),
     mbz 0x1C 4, f 0x20 (decide (u 0x20 4 < u 4 2 * es)), mbz 0x24 28]
  | 5 => [f 0 (out (u 0 8) 1 (2 ^ 40)), f 0x10 (decide (1 < u 0x10 1)), mbz 0x11 47]
  | 6 =>
    let n := u 0x0C 1
    [f 0 (out (u 0 8) 1 (2 ^ 48 - 1)),
     f 8 (out (u 8 4) 4096 1048576), f 0x0C (out n 1 4),
     mbz 0x0D 3, f 0x10 false, f 0x18 (decide (n ≤ 1) && u 0x18 8 != 0), f 0x20 (decide (n ≤ 2) && u 0x20 8 != 0),
     f 0x28 (decide (n ≤ 3) && u 0x28 8 != 0), mbz 0x30 16]
  | 7 =>
    [f 0 (out (u 0 2) 1 4096), f 2 (out (u 2 2) 1 4096 || u 2 2 % es != 0), f 4 (decide (u 4 4 < u 2 2)),
     f 8 (out (u 8 1) 1 64 || decide (u 0 2 < u 8 1) || decide (u 2 2 < u 8 1 * es)), f 9 (decide (32 ≤ u 9 1)),
     mbz 0x0A 2, f 0x0C (decide (2 ^ 20 ≤ u 0x0C 4)), mbz 0x30 16]
  | _ => []

/-- Check 1 over the words: op, scope, must-be-zero fields, the length of LINEAR and FILL. -/
def CopyReq.wordChecks (r : CopyReq) : List FieldCheck :=
  [(0, 0, decide (8 ≤ r.op)), (0, 11, decide (6 ≤ fld r.w0 13 11)),
   (0, 16, r.plain && fld r.w0 63 16 % r.esize != 0), (0, 36, !r.plain && fld r.w0 63 36 != 0),
   (2, 0, (r.op == 6 || r.op == 7) && r.w2 != 0), (3, 0, !r.handler && fld r.w3 47 0 != 0)]

/-- The least power of two from 4,096 to 1,048,576 that is not below a stripe: the stripe is aligned as required when it is
a multiple of it (13 R266, R268; log 22). -/
def powerAbove (n : Nat) : Nat := (((upFrom 9 12).map (fun i => 2 ^ i)).find? (fun p => decide (n ≤ p))).getD 1048576

/-- Values that must be aligned, with their alignment (13 R268 check 3). -/
def CopyReq.aligns (r : CopyReq) : List (Word × Nat) :=
  let es := r.esize
  let d (o n : Nat) : Word := w64 (r.dsc o n)
  let h : List (Word × Nat) := if r.handler then [(w64 (fld r.w3 47 0), 4)] else []
  match r.op with
  | 0 => [(r.w1, es), (r.w2, es)] ++ h
  | 1 => [(w64 (fld r.w0 35 16), 64), (r.w1, es), (r.w2, es)] ++ h ++ [(d 8 8, es), (d 0x10 8, es)]
  | 2 =>
    [(w64 (fld r.w0 35 16), 64), (r.w1, es), (r.w2, es)] ++ h ++
      [(d 8 8, es), (d 0x10 8, es), (d 0x20 8, es), (d 0x28 8, es)]
  | 3 => [(w64 (fld r.w0 35 16), 64), (r.w1, es), (r.w2, es)] ++ h ++ [(d 8 4, es), (d 0xC 4, es), (d 0x20 4, es)]
  | 4 => [(r.w2, es)] ++ h
  | 5 => [(w64 (fld r.w0 35 16), 64), (r.w1, es), (r.w2, es)] ++ h ++ [(d 8 8, 8)]
  | 6 =>
    [(w64 (fld r.w0 35 16), 64), (r.w1, es)] ++ h ++ [(d 8 4, powerAbove (r.dsc 8 4))] ++
      (upFrom r.partners 0).map (fun i => (d (0x10 + 8 * i) 8, max es (r.dsc 8 4)))
  | _ =>
    [(w64 (fld r.w0 35 16), 64), (r.w1, es)] ++ h ++ [(d 4 4, 16)] ++
      ((upFrom 4 0).filter r.dirOn).map (fun i => (r.dirDst i, es))

/-- An address that a Copy Engine request may name (11 R219, R220, R226), judged at its first byte. -/
def State.copyAddrOk (s : State) (a : Word) : Bool :=
  match s.resolve s.cur.cell none a 1 with
  | some (.spad _ off) => off < Config.hwArea
  | some (.global _) => true
  | some (.remote _) => true
  | _ => false

/-- The address names a scratchpad through aperture 0x8, 0x9, 0xA, 0xD or 0xE. -/
def State.scratchAddr (s : State) (a : Word) : Bool :=
  match s.resolve s.cur.cell none a 1 with
  | some (.spad _ off) => off < Config.hwArea
  | some (.remote _) => fld a 63 60 = 0xE
  | _ => false

/-- The address is GLOBAL or REMOTE GLOBAL. -/
def State.globalAddr (s : State) (a : Word) : Bool := s.copyAddrOk a && (fld a 63 60 == 0 || fld a 63 60 == 1)

/-- The address names the issuing cell's scratchpad. -/
def State.ownAddr (s : State) (a : Word) : Bool :=
  match s.resolve s.cur.cell none a 1 with
  | some (.spad c off) => c == s.cur.cell && decide (off < Config.hwArea)
  | _ => false

/-- The addresses of a request with whether each is accepted (13 R268 check 4). -/
def State.copyAddrs (s : State) (r : CopyReq) : List (Word × Bool) :=
  let any (a : Word) : Word × Bool := (a, s.copyAddrOk a)
  match r.op with
  | 0 => [any r.w1, any r.w2]
  | 1 | 2 | 3 => [any r.w1, any r.w2]
  | 4 => [any r.w2]
  | 5 => [any r.w1, any r.w2, any (w64 (r.dsc 8 8))]
  | 6 =>
    any r.w1 :: (upFrom r.partners 0).map (fun i =>
      let a := w64 (r.dsc (0x10 + 8 * i) 8)
      (a, s.globalAddr a))
  | _ =>
    (r.w1, s.ownAddr r.w1) :: ((upFrom 4 0).filter r.dirOn).map (fun i => (r.dirDst i, s.scratchAddr (r.dirDst i)))

/-- The trap of a request: class and detail. -/
abbrev CopyTrap := Nat × Word

/-- The detail of a COPY trap at issue (13 Table 13.6). -/
def copyDetail (c : FieldCheck) : Word := w64 (c.1 * 2 ^ 56 + c.2.1)

/-- Check a CPYQ or CPYA request in the order of Table 13.6: the first failure, if any. The descriptor's fields are
judged once the descriptor lies in the program's area (log 22). -/
def State.copyCheck (s : State) (r : CopyReq) : Option CopyTrap :=
  let off := fld r.w0 35 16
  match r.wordChecks.find? (fun c => c.2.2) with
  | some c => some (cCOPY, copyDetail c)
  | none =>
    if !r.plain && decide (0xEFFC0 < off) then some (cAPERTURE, w64 off)
    else
      match (if r.plain then [] else r.descChecks).find? (fun c => c.2.2) with
      | some c => some (cCOPY, copyDetail c)
      | none =>
        match r.aligns.find? (fun x => x.1.toNat % x.2 != 0) with
        | some x => some (cALIGN, x.1)
        | none =>
          match (s.copyAddrs r).find? (fun x => !x.2) with
          | some x => some (cAPERTURE, x.1)
          | none => none

/-- The request in g0-g3, with its descriptor as it stands now (13 R261). -/
def State.copyReq (s : State) : CopyReq where
  scat := none
  w0 := s.g 0
  w1 := s.g 1
  w2 := s.g 2
  w3 := s.g 3
  desc :=
    if fld (s.g 0) 3 0 = 0 ∨ fld (s.g 0) 3 0 = 4 then 0
    else BitVec.ofNat 512 (s.here.spad.read (fld (s.g 0) 35 16) 64)
  seq := 0
  issued := s.now

/-! ## CPYQ and CPYA -/

/-- Entries of the FIFO, and requests that enter it before one that issues now (13 R269). -/
def Cell.fifoAhead (c : Cell) : Nat :=
  c.copy.fifo.length + c.copy.slots.foldl (fun n e => n + e.2.pending) 0 +
    (c.fibres.filter (fun e => match e.2.status with
      | .parked (.copy _) _ => true
      | _ => false)).length

/-- Enter the FIFO, or park behind those that wait. -/
def State.copyEnter (s : State) (r : CopyReq) : State :=
  if s.here.fifoAhead < 16 then (s.updHere (fun c => c.enterFifo r)).finish 4 1 else s.park (.copy r)

/-- CPYQ (13 R269). -/
def execCpyq (s : State) : Host.Outcome State Fault Refusal :=
  let r := s.copyReq
  .next (
    match s.copyCheck r with
    | some t => s.trap t.1 t.2
    | none => s.copyEnter r)

/-- `cpyq.nb` (13 R269): rd is 0 when the request entered and 1 when it did not. -/
def execCpyqNb (d : GReg) (s : State) : Host.Outcome State Fault Refusal :=
  let r := s.copyReq
  .next (
    match s.copyCheck r with
    | some t => s.trap t.1 t.2
    | none =>
      if s.here.fifoAhead < 16 then (s.updHere (fun c => c.enterFifo r)).writeRd d 0 4 1
      else s.writeRd d 1 4 1)

/-- Some fibre waits for an armed slot. -/
def Cell.armWaits (c : Cell) : Bool :=
  c.fibres.any (fun e => match e.2.status with
    | .parked (.arm _ _ _ _ _) _ => true
    | _ => false)

/-- CPYA (13 R270): the lowest free slot; the slots are tested after it. -/
def execCpya (rep : Bool) (k : KReg) (d a : GReg) (s : State) : Host.Outcome State Fault Refusal :=
  let r := s.copyReq
  let t := (s.g a).setWidth 32
  .next (
    match s.copyCheck r with
    | some x => s.trap x.1 x.2
    | none =>
      if s.here.armWaits then s.park (.arm r k t rep d)
      else
        match s.here.copy.freeSlot with
        | none => s.park (.arm r k t rep d)
        | some i => (s.updHere (fun c => (c.arm i r k t rep).serveSlots)).writeRd d (w64 i) 4 1)

/-- The state word of a slot (13 R271); a slot whose record has been cleared reads as zero. -/
def CopyUnit.slotWord (u : CopyUnit) (i : Nat) : Word :=
  match u.slots.find i with
  | some a =>
    if !a.armed && !a.fired then 0
    else w64 (fld a.req.w3 63 48 * 2 ^ 40 + a.threshold.toNat * 2 ^ 8 + a.k.val * 8 + b2n a.fired * 4 + b2n a.rep * 2 +
      b2n a.armed)
  | none => 0

/-- CPYC (13 R271): the slot's state after the firing tests; the cancel form then frees the slot, and a request that has
fired goes on. -/
def State.cpyc (s : State) (d : GReg) (x : Word) (cancel : Bool) : State :=
  if fld x 63 5 ≠ 0 then s.trap cILLEGAL s.fibre.body.pc
  else
    let s1 := s.updHere (fun c => c.serveSlots)
    let i := fld x 4 0
    let v := s1.here.copy.slotWord i
    let s2 :=
      if cancel then
        s1.updHere (fun c =>
          match c.copy.slots.find i with
          | some a =>
            let slots := if a.pending = 0 then c.copy.slots.del i
              else c.copy.slots.put i { a with fired := false, armed := false, rep := false }
            Cell.armParked { c with copy := { c.copy with slots := slots } } c.fibres.length
          | none => c)
      else s1
    s2.writeRd d v 4 1

/-- CPYC query (13 R271). -/
def execCpycQ (d a : GReg) (s : State) : Host.Outcome State Fault Refusal := .next (s.cpyc d (s.g a) false)

/-- CPYC cancel (13 R271). -/
def execCpycX (d a : GReg) (s : State) : Host.Outcome State Fault Refusal := .next (s.cpyc d (s.g a) true)

/-! ## GATH and SCAT (13 R277, R279) -/

/-- The field checks of Table 13.7 by ascending offset; word 0 means the descriptor (log 22). -/
def CopyReq.gathChecks (r : CopyReq) : List FieldCheck :=
  let u := r.dsc
  let f (o : Nat) (bad : Bool) : FieldCheck := (0, o, bad)
  [f 8 (u 8 8 == 0 || decide (2 ^ 48 < u 8 8)), f 0x10 (decide (2 ^ 20 ≤ u 0x10 4)),
   f 0x14 (decide (2 ^ 20 ≤ u 0x14 4)), f 0x18 (decide (65536 < u 0x18 4)), f 0x1C (decide (12 < u 0x1C 1)),
   f 0x1D (decide (128 ≤ u 0x1D 1)), f 0x1E (decide (5 < u 0x1E 1)), f 0x1F (u 0x1F 1 != 0),
   f 0x20 (!r.handler && u 0x20 8 % 2 ^ 48 != 0), f 0x28 (u 0x28 24 != 0)]

/-- Base, list, buffer, count of a gather or scatter. -/
abbrev CopyReq.base (r : CopyReq) : Word := w64 (r.dsc 0 8)
/-- Extent. -/
abbrev CopyReq.extent (r : CopyReq) : Nat := r.dsc 8 8
/-- Offset of the index list. -/
abbrev CopyReq.list (r : CopyReq) : Nat := r.dsc 0x10 4
/-- Offset of the buffer. -/
abbrev CopyReq.buffer (r : CopyReq) : Nat := r.dsc 0x14 4
/-- Count. -/
abbrev CopyReq.count (r : CopyReq) : Nat := r.dsc 0x18 4

/-- The first offset at which two ranges of offsets meet. -/
def firstMeet (a n b m : Nat) : Option Nat := if max a b < min (a + n) (b + m) then some (max a b) else none

/-- The offset at which a SCAT's target range meets its list or buffer, or a GATH's buffer its list (13 R279). -/
def State.gathOverlap (s : State) (r : CopyReq) (scat : Bool) : Option Nat :=
  let n := r.count * r.esize
  if scat then
    match s.resolve s.cur.cell none r.base 1 with
    | some (.spad c off) =>
      if c = s.cur.cell then
        match firstMeet off r.extent r.list (4 * r.count), firstMeet off r.extent r.buffer n with
        | some x, some y => some (min x y)
        | some x, none => some x
        | none, y => y
      else none
    | _ => none
  else firstMeet r.list (4 * r.count) r.buffer n

/-- The checks of GATH and SCAT at issue (13 R277, R279). -/
def State.gathCheck (s : State) (r : CopyReq) (off : Word) (scat : Bool) : Option CopyTrap :=
  let al := min r.esize 16
  match r.gathChecks.find? (fun c => c.2.2) with
  | some c => some (cCOPY, copyDetail c)
  | none =>
    let aligns : List (Word × Nat) :=
      [(off, 64), (r.base, al), (w64 r.list, 4), (w64 r.buffer, al)] ++
        (if r.handler then [(w64 (fld r.hword 47 0), 4)] else [])
    match aligns.find? (fun x => x.1.toNat % x.2 != 0) with
    | some x => some (cALIGN, x.1)
    | none =>
      let code := fld r.base 63 60
      if !s.copyAddrOk r.base || !(code == 0 || code == 1 || code == 8 || code == 0xE) then some (cAPERTURE, r.base)
      else if Config.hwArea < r.list + 4 * r.count then some (cAPERTURE, w64 r.list)
      else if Config.hwArea < r.buffer + r.count * r.esize then some (cAPERTURE, w64 r.buffer)
      else
        match s.gathOverlap r scat with
        | some o => some (cOVERLAP, w64 o)
        | none => none

/-- GATH or SCAT (13 R277). -/
def State.gath (s : State) (off : Word) (scat : Bool) : State :=
  if 0xEFFC0 < off.toNat then s.trap cAPERTURE off
  else
    let r : CopyReq :=
      { scat := some scat
        w0 := w64 (s.here.spad.read off.toNat 8)
        w1 := 0
        w2 := 0
        w3 := 0
        desc := BitVec.ofNat 512 (s.here.spad.read off.toNat 64)
        seq := 0
        issued := s.now }
    match s.gathCheck r off scat with
    | some t => s.trap t.1 t.2
    | none => s.copyEnter r

/-- GATH (13 R277). -/
def execGath (a : GReg) (s : State) : Host.Outcome State Fault Refusal := .next (s.gath (s.g a) false)

/-- SCAT (13 R277). -/
def execScat (a : GReg) (s : State) : Host.Outcome State Fault Refusal := .next (s.gath (s.g a) true)

end Sys2Proof.Machine
end

