-- ==== Sys2Proof/Machine/ECopy.lean ====
section
/-!
DEFINITION. The Copy Engine at work: transfers, chunks, elements, completion (13 R263-R267, R272-R280).
-/

namespace Sys2Proof.Machine

open Sys2Proof

/-! ## Places -/

/-- The status of a translation fault (13 R276). -/
def faultStatus (cls : Nat) : Nat := if cls = cXLATE then 1 else 2

/-- A page of a job is under a pin that is being revoked (11 R235). -/
def Job.revoked (j : Job) (va : Nat) : Bool :=
  j.pins.any (fun p => p.revoking && decide (p.page ≤ va / 65536 ∧ va / 65536 < p.page + p.n))

/-- Where a GLOBAL address of a job leads for a unit that may reach windows, or the status of its refusal (11 R233,
R235, 13 R276, 19 R378). -/
def State.globalPlace (s : State) (job va : Nat) (acc : Access) : Except Nat CPlace :=
  let j := s.job job
  if j.revoked va then .error 3
  else
    match s.translate job va acc with
    | .pa p => .ok (.mem p)
    | .fault cls => .error (faultStatus cls)
    | .window n off => if off < ((j.windows.find n).getD (0, 0)).2 then .ok (.window n off) else .error 6

/-- The scratchpad place of an engine access, or the status of its refusal (11 R226, 18 R375). -/
def State.spadPlace (s : State) (cell off : Nat) : Except Nat CPlace :=
  if Config.hwArea ≤ off then .error 5 else if s.excluded.contains cell then .error 6 else .ok (.spad cell off)

/-- Where an address of a transfer of a cell leads, or the status of its refusal (11 R219, 13 R276). -/
def State.cpyPlace (s : State) (c : Nat) (a : Word) (acc : Access) : Except Nat CPlace :=
  match s.resolve c none a 1 with
  | none => .error 5
  | some (.event _ _) => .error 5
  | some (.remote d) => .ok (.device d a)
  | some (.spad x off) => s.spadPlace x off
  | some (.global va) => s.globalPlace (s.launchOf c).job va acc

/-- A place as a space and an offset in it, so that neighbouring bytes have neighbouring offsets. -/
def CPlace.key : CPlace → Nat × Nat
  | .mem pa => (0, pa)
  | .spad c off => (1 + c, off)
  | .window n off => (1024 + n, off)
  | .device d a => (2048 + d, a.toNat)

/-- The place is reached outside the device. -/
def CPlace.external : CPlace → Bool
  | .window _ _ => true
  | .device _ _ => true
  | _ => false

/-- Bytes of a memory with the poison of their sectors. -/
def poisonedBytes (m : List Host.Cell) (p : List Nat) (a n : Nat) : List (Byte × Bool) :=
  (upFrom n a).map (fun i => (Mem.read m i, p.contains (i / 64)))

/-- The poison after a write of bytes that carry poison (11 R227). -/
def poisonWritten (p : List Nat) (a : Nat) (d : List (Byte × Bool)) : List Nat :=
  (sectors a d.length).foldl (fun p s =>
    if ((upFrom d.length a).zip d).any (fun x => x.1 / 64 = s ∧ x.2.2) then setAdd p s
    else if a ≤ 64 * s ∧ 64 * s + 64 ≤ a + d.length then setDel p s else p) p

/-- Read bytes of a place on this device. -/
def State.placeRead (s : State) (p : CPlace) (n : Nat) : List (Byte × Bool) :=
  match p with
  | .spad c off => poisonedBytes (s.cell c).spad.bytes (s.cell c).spad.poison off n
  | .mem pa => poisonedBytes s.mem s.memPoison pa n
  | _ => []

/-- Write bytes at a place on this device, for a unit of work. -/
def State.placeWrite (s : State) (unit : Option Nat) (p : CPlace) (d : List (Byte × Bool)) : State :=
  match p with
  | .spad c off =>
    s.updCell c (fun x =>
      { x with spad :=
        { x.spad with
          bytes := Mem.writeBytes x.spad.bytes off (d.map Prod.fst)
          poison := poisonWritten x.spad.poison off d } })
  | .mem pa =>
    { s with mem := Mem.writeBytes s.mem pa (d.map Prod.fst), memPoison := poisonWritten s.memPoison pa d,
             authors := claimed s.authors unit (upFrom d.length pa) }
  | _ => s

/-! ## The bytes of a transfer in processing order (13 R263-R267, R272) -/

/-- An address plus a signed number (13 R263: modulo 2^64). -/
def addI (a : Word) (i : Int) : Word := a + BitVec.ofInt 64 i

/-- Bytes of a direction of a HALO (13 R267). -/
def CopyReq.dirLen (r : CopyReq) (d : Nat) : Nat :=
  if !r.dirOn d then 0
  else if d = 0 ∨ d = 2 then r.dsc 8 1 * r.dsc 2 2
  else r.dsc 0 2 * (r.dsc 8 1 * r.esize)

/-- The directions of a HALO in the order of 13 R267's table, each with the place at which its bytes begin. -/
def CopyReq.dirs (r : CopyReq) : List (Nat × Nat) :=
  let a := r.dirLen 0
  let b := a + r.dirLen 2
  let c := b + r.dirLen 1
  [(0, 0), (2, a), (1, b), (3, c)]

/-- Bytes of a request, or its elements for GATH and SCAT. -/
def CopyReq.total (r : CopyReq) : Nat :=
  match r.scat with
  | some _ => r.count
  | none =>
    match r.op with
    | 0 | 4 => fld r.w0 63 16
    | 1 => r.dsc 0 4 * r.dsc 4 4
    | 2 => r.dsc 0 4 * r.dsc 4 4 * r.dsc 0x18 4
    | 3 => r.dsc 0x14 2 * r.dsc 0x16 2 * (r.dsc 4 2 * r.esize)
    | 5 | 6 => r.dsc 0 8
    | _ => r.dirLen 0 + r.dirLen 1 + r.dirLen 2 + r.dirLen 3

/-- The source and destination of byte `p` in processing order, and how many bytes go on in a row from there. -/
def CopyReq.at (r : CopyReq) (p : Nat) : CSrc × Word × Nat :=
  let rest := r.total - p
  match r.op with
  | 1 | 2 =>
    let l0 := r.dsc 0 4
    let row := p / l0
    let i1 : Int := row % r.dsc 4 4
    let i2 : Int := row / r.dsc 4 4
    let j : Int := p % l0
    (.addr (addI r.w1 (i2 * r.dscS 0x20 8 + i1 * r.dscS 8 8 + j)),
      addI r.w2 (i2 * r.dscS 0x28 8 + i1 * r.dscS 0x10 8 + j), l0 - p % l0)
  | 3 =>
    let len := r.dsc 4 2 * r.esize
    let q := p / len
    let j := p % len
    let y : Int := r.dscS 0x10 2 + (q / r.dsc 0x16 2 : Nat) + r.dscS 0x18 2
    let x : Int := r.dscS 0x12 2 + (q % r.dsc 0x16 2 : Nat) + r.dscS 0x1A 2
    let src : CSrc :=
      if 0 ≤ y ∧ y < r.dsc 0 2 ∧ 0 ≤ x ∧ x < r.dsc 2 2 then
        .addr (addI r.w1 (y * r.dsc 8 4 + x * r.dsc 0xC 4 + j))
      else .zeros
    (src, r.w2 + w64 (q * r.dsc 0x20 4 + j), len - j)
  | 4 => (.fill (p % r.esize), r.w2 + w64 p, rest)
  | 6 =>
    let st := r.dsc 8 4
    let q := p / st
    (.addr (r.w1 + w64 p), w64 (r.dsc (0x10 + 8 * (q % r.partners)) 8) + w64 (q / r.partners * st + p % st),
      min rest (st - p % st))
  | 7 =>
    let d := ((r.dirs.filter (fun x => x.2 ≤ p ∧ r.dirLen x.1 ≠ 0)).getLast?).getD (0, 0)
    let q := p - d.2
    let rb := r.dsc 2 2
    let w := r.dsc 8 1 * r.esize
    let pitch := r.dsc 4 4
    let dst := r.dirDst d.1 + w64 q
    match d.1 with
    | 0 => (.addr (r.w1 + w64 (q / rb * pitch + q % rb)), dst, rb - q % rb)
    | 2 => (.addr (r.w1 + w64 ((r.dsc 0 2 - r.dsc 8 1 + q / rb) * pitch + q % rb)), dst, rb - q % rb)
    | 1 => (.addr (r.w1 + w64 (q / w * pitch + (rb - w) + q % w)), dst, w - q % w)
    | _ => (.addr (r.w1 + w64 (q / w * pitch + q % w)), dst, w - q % w)
  | _ => (.addr (r.w1 + w64 p), r.w2 + w64 p, rest)

/-- Bytes up to the next multiple of 4096. -/
def toEdge (a : Word) : Nat := 4096 - a.toNat % 4096

/-- The runs of `n` bytes from a place in processing order; a run crosses no multiple of 4096 at either side. -/
def CopyReq.runs (r : CopyReq) : Nat → Nat → Nat → List Run
  | 0, _, _ => []
  | fuel + 1, p, n =>
    if n = 0 then []
    else
      let x := r.at p
      let e := match x.1 with
        | .addr a => toEdge a
        | _ => 4096
      let m := max 1 (min (min n x.2.2) (min e (toEdge x.2.1)))
      { pos := p, src := x.1, dst := x.2.1, n := m } :: CopyReq.runs r fuel (p + m) (n - m)

/-- The runs with their places, or the status of the first refusal. -/
def State.placeRuns (s : State) (c : Nat) : List Run → Except Nat (List PRun)
  | [] => .ok []
  | r :: rest =>
    let src : Except Nat (Option CPlace) := match r.src with
      | .addr a => (s.cpyPlace c a .read).map some
      | _ => .ok none
    match src, s.cpyPlace c r.dst .write, State.placeRuns s c rest with
    | .error e, _, _ => .error e
    | _, .error e, _ => .error e
    | _, _, .error e => .error e
    | .ok a, .ok b, .ok l => .ok ({ run := r, src := a, dst := b } :: l)

/-! ## Bytes that are both source and destination of a STRIDED request (13 R263; log 13) -/

/-- Pieces of a row that cross no multiple of 4096. -/
def rowPieces : Nat → Word → Nat → List (Word × Nat)
  | 0, _, _ => []
  | fuel + 1, a, n =>
    if n = 0 then [] else let m := max 1 (min n (toEdge a)); (a, m) :: rowPieces fuel (a + w64 m) (n - m)

/-- Some row of a STRIDED request covers a place: its source rows, or its destination rows. -/
def State.inRows (s : State) (c : Nat) (r : CopyReq) (src : Bool) (k : Nat × Nat) : Bool :=
  let c2 := if r.op = 2 then r.dsc 0x18 4 else 1
  (upFrom c2 0).any (fun i2 => (upFrom (r.dsc 4 4) 0).any (fun i1 =>
    let base := if src then addI r.w1 (i2 * r.dscS 0x20 8 + i1 * r.dscS 8 8)
      else addI r.w2 (i2 * r.dscS 0x28 8 + i1 * r.dscS 0x10 8)
    (rowPieces (r.dsc 0 4 / 4096 + 2) base (r.dsc 0 4)).any (fun x =>
      match s.cpyPlace c x.1 (if src then .read else .write) with
      | .ok p => p.key.1 = k.1 && decide (p.key.2 ≤ k.2 ∧ k.2 < p.key.2 + x.2)
      | .error _ => false)))

/-- The bytes that a run delivers: a byte of a STRIDED request whose source or destination is both is undefined. -/
def State.strideFree (s : State) (c : Nat) (r : CopyReq) (p : PRun) (d : List (Byte × Bool)) : List (Byte × Bool) :=
  if r.op = 1 ∨ r.op = 2 then
    ((upFrom d.length 0).zip d).map (fun x =>
      let dk := (p.dst.key.1, p.dst.key.2 + x.1)
      let both := s.inRows c r true dk ||
        (match p.src with
          | some q => s.inRows c r false (q.key.1, q.key.2 + x.1)
          | none => false)
      if both then (Config.freeByte (s.fresh * 2 ^ 60 + p.run.pos + x.1), x.2.2) else x.2)
  else d

/-! ## Transfers -/

/-- A transfer of a cell by number. -/
def Cell.xfer (c : Cell) (id : Nat) : Option Transfer := c.copy.xfers.find? (fun x => x.id = id)

/-- Put a transfer back. -/
def Cell.setXfer (c : Cell) (x : Transfer) : Cell :=
  { c with copy := { c.copy with xfers := c.copy.xfers.map (fun y => if y.id = x.id then x else y) } }

/-- Change a transfer. -/
def State.setXfer (s : State) (c : Nat) (x : Transfer) : State := s.updCell c (fun y => y.setXfer x)

/-- The two ranges of a LINEAR or CHECKEDGATHER overlap with the destination above the source (13 R274). -/
def State.goesDown (s : State) (c : Nat) (r : CopyReq) : Bool :=
  match s.resolve c none r.w1 1, s.resolve c none r.w2 1 with
  | some (.spad a x), some (.spad b y) => a == b && decide (x < y ∧ y < x + r.total)
  | some (.global x), some (.global y) => decide (x < y ∧ y < x + r.total)
  | some (.remote a), some (.remote b) =>
    a == b && decide (r.w1.toNat < r.w2.toNat ∧ r.w2.toNat < r.w1.toNat + r.total)
  | _, _ => false

/-- The engine may work: no pre-emption or cancel of its launch is under way (13 R281). -/
def State.copyRuns (s : State) (c : Nat) : Bool := !(s.launchOf c).preempt && !(s.launchOf c).cancel

/-- TRANSFER_START (13 R272, R274): the head of the FIFO starts while fewer than 8 transfers are in flight. -/
def execTransferStart (cell : Nat) (s : State) : Host.Outcome State Fault Refusal :=
  match (s.cell cell).copy.fifo with
  | [] => idle s
  | r :: rest =>
    if !s.copyRuns cell || decide (8 ≤ (s.cell cell).copy.xfers.length) then idle s
    else
      let down := r.scat == none && (r.op == 0 || r.op == 5) && s.goesDown cell r
      let x : Transfer :=
        { id := s.nextId
          req := r
          descending := down
          done := 0
          crc := if down then 0 else BitVec.allOnes 64
          checked := false
          asked := 0
          plan := []
          pending := []
          failed := none
          segs := [] }
      .next (s.newId.updCell cell (fun c =>
        { c with copy := { c.copy with fifo := rest, xfers := c.copy.xfers ++ [x] } }.pumpCopy))

/-- ARMED_SLOT_FIRE (13 R270): the armed slots of a cell are tested; after an increment, with the other tests of its CCLK
(16 R321). -/
def execArmedSlotFire (cell : Nat) (s : State) : Host.Outcome State Fault Refusal :=
  if (s.cell cell).acts = [] then .next (s.updCell cell (fun c => c.serveSlots)) else idle s

/-- COPY_CHUNK_REISSUE (18 R376): the engine sends a chunk again from its own retention; nothing that a program sees
changes. -/
def execCopyChunkReissue (_cell _id : Nat) (s : State) : Host.Outcome State Fault Refusal := idle s

/-! ## Completion (13 R275, R276) -/

/-- Start the completion handler's request in queue order (13 R275). -/
def Cell.addCompletion (c : Cell) (r : CopyReq) (status done : Nat) : Cell :=
  let q : CompReq :=
    { pc := w64 (fld r.hword 47 0)
      id := w64 (fld r.hword 63 48)
      status := w64 status
      done := w64 done
      word0 := r.w0
      seq := r.seq
      scope := r.scope
      order := c.nextOrder
      front := 0 }
  { c with nextOrder := c.nextOrder + 1, copy := { c.copy with comps := c.copy.comps ++ [q] } }

/-- The class of a unit trap for a status (13 R276). -/
def statusClass (status : Nat) : Nat :=
  if status = 3 then cPINREVOKED else if status = 4 then cSHARDCHANGED else cCOPY

/-- A transfer ends with a status and a count of bytes done (13 R275, R276). -/
def State.cpyEnd (s : State) (c : Nat) (x : Transfer) (status done : Nat) : State :=
  let s1 := s.updCell c (fun y =>
    { y with copy := { y.copy with xfers := y.copy.xfers.filter (fun z => z.id != x.id) } })
  let s2 := match x.req.counter with
    | some k => if status = 0 then s1.releaseBump c k 1 x.req.scope else s1
    | none => s1
  if x.req.handler then s2.updCell c (fun y => y.addCompletion x.req status done)
  else if status = 0 then s2
  else
    s2.unitTrap c .copy
      { cls := statusClass status, sub := 0,
        detail := w64 (fld x.req.hword 63 48 * 2 ^ 48 + status * 2 ^ 40 + done % 2 ^ 40),
        pc := 0, seq := x.req.seq.setWidth 64, word := 0, when_ := 0, src := 3 }

/-- The destination bytes from a place on in processing order are undefined after a failure (13 R276). -/
def State.scramble (s : State) (c : Nat) (x : Transfer) (from_ n : Nat) : State :=
  (upFrom n from_).foldl (fun t p =>
    let q := if x.descending then x.req.total - 1 - p else p
    match s.cpyPlace c (x.req.at q).2.1 .write with
    | .ok pl => t.placeWrite (s.cell c).launch pl [(Config.freeByte (s.fresh * 2 ^ 60 + p), false)]
    | .error _ => t) s

/-- The bytes that lie before the chunk of a run in processing order (13 R272, R274, R276). -/
def Transfer.before (x : Transfer) (pos : Nat) : Nat :=
  if x.req.total ≤ pos then x.req.total
  else (if x.descending then x.req.total - 1 - pos else pos) / 4096 * 4096

/-- A CPYQ or CPYA transfer with the failure of the chunk that begins after `done` bytes: the lowest one counts. -/
def Transfer.failChunk (x : Transfer) (done status : Nat) : Transfer :=
  { x with
    plan := []
    failed := match x.failed with
      | some f => if done < f.2 then some (status, done) else some f
      | none => some (status, done) }

/-- The failures that the answers of write segments report (13 R276, R278). -/
def Transfer.settled (x : Transfer) : Transfer :=
  x.segs.foldl (fun y g =>
    match g.answer with
    | some (.refused e) =>
      if g.read then y
      else y.failChunk (if y.req.scat.isSome then g.pos else y.before g.pos) e
    | _ => y) x

/-- Every piece of a transfer outside the device that it writes has been answered. -/
def Transfer.answered (x : Transfer) : Bool := x.segs.all (fun g => g.answer.isSome || g.read)

/-- A transfer that has failed ends once every piece that it has written has been answered: the later bytes of its
destination are undefined (13 R276, 19 R377). -/
def State.cpyFailed (s : State) (c : Nat) (x : Transfer) : State :=
  match x.settled.failed with
  | some f =>
    if x.answered then (s.scramble c x f.2 (x.req.total - f.2)).cpyEnd c x f.1 f.2 else s.setXfer c x
  | none => s.setXfer c x

/-- A transfer fails at its chunk (13 R276). -/
def State.cpyFail (s : State) (c : Nat) (x : Transfer) (status : Nat) : State := s.cpyFailed c (x.failChunk x.done status)

/-! ## CRC-64 (13 R265) -/

/-- One bit of the reflected CRC. -/
def crcBit (x : BitVec 64) : BitVec 64 :=
  if x.getLsbD 0 then (x >>> 1) ^^^ 0xC96C5795D7870F42 else x >>> 1

/-- A byte of the reflected CRC. -/
def crcByte (x : BitVec 64) (b : Byte) : BitVec 64 :=
  crcBit (crcBit (crcBit (crcBit (crcBit (crcBit (crcBit (crcBit (x ^^^ b.setWidth 64))))))))

/-- The CRC register after bytes. -/
def crcBytes (x : BitVec 64) (l : List Byte) : BitVec 64 := l.foldl crcByte x

/-- The CRC register after `n` bytes of zeros. -/
def crcZeros : Nat → BitVec 64 → BitVec 64
  | 0, x => x
  | n + 1, x => crcZeros n (crcByte x 0)

/-- The CRC register after a chunk: in descending order the chunk comes before the `after` bytes already read. -/
def crcChunk (down : Bool) (after : Nat) (x : BitVec 64) (l : List Byte) : BitVec 64 :=
  if down then crcZeros after (crcBytes 0 l) ^^^ x else crcBytes x l

/-- The CRC of a request whose bytes have all been read. -/
def Transfer.crcValue (x : Transfer) : BitVec 64 :=
  ~~~ (if x.descending then crcZeros x.req.total (BitVec.allOnes 64) ^^^ x.crc else x.crc)

/-! ## Pieces that leave the device (15 R307, 19 R378) -/

/-- A segment of a transfer by its place. -/
def Transfer.seg (x : Transfer) (read : Bool) (pos : Nat) : Option Seg :=
  x.segs.find? (fun g => g.read = read ∧ g.pos = pos)

/-- Ask for the bytes of a place outside the device. -/
def State.segRead (s : State) (c : Nat) (x : Transfer) (p : CPlace) (pos n : Nat) : State × Transfer :=
  let id := s.nextId
  match p with
  | .window w off =>
    (s.newId.winSend (s.launchOf c).job w s.device c id (.winr w off n),
      { x with segs := x.segs ++ [{ id := id, read := true, pos := pos, window := some w, answer := none }] })
  | .device d a =>
    (s.newId.sendFabric d .bulk (.bulkRead (s.ctxOf c) c id a n),
      { x with segs := x.segs ++ [{ id := id, read := true, pos := pos, window := none, answer := none }] })
  | _ => (s, x)

/-- Write bytes to a place: on this device at once, elsewhere as a segment that is answered. -/
def State.segWrite (s : State) (c : Nat) (x : Transfer) (p : CPlace) (pos : Nat) (d : List (Byte × Bool))
    (k : Option (KReg × Scope)) : State × Transfer :=
  let id := s.nextId
  match p with
  | .window w off =>
    (s.newId.winSend (s.launchOf c).job w s.device c id (.winw w off (d.map Prod.fst)),
      { x with segs := x.segs ++ [{ id := id, read := false, pos := pos, window := some w, answer := none }] })
  | .device dev a =>
    (s.newId.sendFabric dev .bulk (.bulkWrite (s.ctxOf c) c id a d k),
      { x with segs := x.segs ++ [{ id := id, read := false, pos := pos, window := none, answer := none }] })
  | .mem pa => ((s.overtake c pa d.length).placeWrite (s.cell c).launch p d, x)
  | _ => (s.placeWrite (s.cell c).launch p d, x)

/-- Ask for every external source of a chunk that has not been asked for. -/
def State.askRuns (s : State) (c : Nat) (x : Transfer) : List PRun → State × Transfer
  | [] => (s, x)
  | r :: rest =>
    match r.src with
    | some p =>
      if p.external && (x.seg true r.run.pos).isNone then
        let y := s.segRead c x p r.run.pos r.run.n
        State.askRuns y.1 c y.2 rest
      else State.askRuns s c x rest
    | none => State.askRuns s c x rest

/-- The bytes of a FILL pattern from an index (13 Table 13.2). -/
def CopyReq.pattern (r : CopyReq) (i n : Nat) : List (Byte × Bool) :=
  (upFrom n i).map (fun j => (BitVec.ofNat 8 (r.w1.toNat / 2 ^ (8 * (j % r.esize))), false))

/-- The bytes that a run reads; none while they are on their way, or the status of their refusal. -/
def State.runData (s : State) (c : Nat) (x : Transfer) (r : PRun) : Option (Except Nat (List (Byte × Bool))) :=
  match r.run.src, r.src with
  | .fill i, _ => some (.ok (x.req.pattern i r.run.n))
  | _, none => some (.ok (List.replicate r.run.n (0, false)))
  | _, some p =>
    if p.external then
      match (x.seg true r.run.pos).bind (·.answer) with
      | none => none
      | some (.refused e) => some (.error e)
      | some (.data d) => some (.ok (s.strideFree c x.req r d))
    else some (.ok (s.strideFree c x.req r (s.placeRead p r.run.n)))

/-- The HALO counter that rises when the byte before a place has been performed: the receiver's counter (13 R267). -/
def CopyReq.mailbox (r : CopyReq) (d : Nat) : KReg :=
  if (r.dsc 9 1).testBit 4 then Fin.ofNat 32 (r.dsc 0xC 4 / 2 ^ (5 * d))
  else match d with | 0 => 30 | 1 => 31 | 2 => 28 | _ => 29

/-- The direction of a HALO that ends at a place in processing order. -/
def CopyReq.dirEnd (r : CopyReq) (p : Nat) : Option Nat :=
  if r.op = 7 ∧ r.scat = none then
    (r.dirs.find? (fun x => r.dirLen x.1 ≠ 0 ∧ x.2 + r.dirLen x.1 = p)).map Prod.fst
  else none

/-- Write the runs of a chunk in order; a HALO direction that ends raises its receiver's counter. -/
def State.writeRuns (s : State) (c : Nat) (x : Transfer) : List (PRun × List (Byte × Bool)) → State × Transfer
  | [] => (s, x)
  | (r, d) :: rest =>
    let k := (x.req.dirEnd (r.run.pos + r.run.n)).map (fun e => (x.req.mailbox e, x.req.scope))
    let y := s.segWrite c x r.dst r.run.pos d k
    let s1 := match k, r.dst with
      | some k, .spad cell _ => y.1.releaseBump cell k.1 1 k.2
      | _, _ => y.1
    State.writeRuns s1 c y.2 rest

/-- The data of all runs; `none` while some is on its way. -/
def State.allData (s : State) (c : Nat) (x : Transfer) : List PRun → Option (Except Nat (List (PRun × List (Byte × Bool))))
  | [] => some (.ok [])
  | r :: rest =>
    match s.runData c x r, State.allData s c x rest with
    | some (.error e), _ => some (.error e)
    | _, some (.error e) => some (.error e)
    | some (.ok d), some (.ok l) => some (.ok ((r, d) :: l))
    | _, _ => none

/-! ## Chunks of CPYQ and CPYA requests -/

/-- The check word of a CHECKEDGATHER, after the last data byte (13 R265). -/
def State.checkWord (s : State) (c : Nat) (x : Transfer) : State :=
  let a := w64 (x.req.dsc 8 8)
  let verify : Bool := x.req.dsc 0x10 1 = 1
  let bytes := (natBytes 8 x.crcValue.toNat).map (fun b => (b, false))
  let total := x.req.total
  let fail (e : Nat) : State := s.cpyFailed c (x.failChunk total e)
  match s.cpyPlace c a (if verify then .read else .write) with
  | .error e => fail e
  | .ok p =>
    if !verify then
      let y := s.segWrite c x p total bytes none
      y.1.setXfer c { y.2 with checked := true }
    else if p.external then
      match x.seg true total with
      | none => let y := s.segRead c x p total 8; y.1.setXfer c y.2
      | some g =>
        match g.answer with
        | none => s
        | some (.refused e) => fail e
        | some (.data d) =>
          if d.map Prod.fst = bytes.map Prod.fst then
            s.setXfer c { x with checked := true, segs := x.segs.filter (fun g => !g.read) }
          else fail 4
    else if (s.placeRead p 8).map Prod.fst = bytes.map Prod.fst then s.setXfer c { x with checked := true }
    else fail 4

/-- A chunk of at most 4 KiB of a transfer (13 R272). One that waits for what it has asked for goes on with the places that
its runs had when it began (11 R235). -/
def State.copyChunk (s : State) (c : Nat) (x : Transfer) : State :=
  let total := x.req.total
  let n := min 4096 (total - x.done)
  let lo := if x.descending then total - x.done - n else x.done
  match (if x.plan = [] then s.placeRuns c (x.req.runs n lo n) else .ok x.plan) with
  | .error e => s.cpyFail c x e
  | .ok l =>
    if l.any (fun r => match r.src with
        | some p => p.external && (x.seg true r.run.pos).isNone
        | none => false) then
      let y := s.askRuns c x l
      y.1.setXfer c { y.2 with plan := l }
    else
      match s.allData c x l with
      | none => s
      | some (.error e) => s.cpyFail c x e
      | some (.ok d) =>
        let bytes := (d.map (fun z => z.2.map Prod.fst)).flatten
        let y := s.writeRuns c { x with plan := [], segs := x.segs.filter (fun g => !g.read) } d
        let crc := if x.req.op = 5 then crcChunk x.descending x.done x.crc bytes else x.crc
        y.1.setXfer c { y.2 with done := x.done + n, crc := crc }

/-! ## Elements of GATH and SCAT (13 R278) -/

/-- The address of an element of an index; none where it lies outside the extent. -/
def CopyReq.element (r : CopyReq) (i : Nat) : Option Word :=
  if r.extent < (i + 1) * r.esize then none else some (r.base + w64 (i * r.esize))

/-- The places of the pieces of an element, or the status of the first refusal. -/
def State.elementPlaces (s : State) (c : Nat) (acc : Access) : List (Word × Nat) → Except Nat (List (CPlace × Nat))
  | [] => .ok []
  | (a, n) :: rest =>
    match s.cpyPlace c a acc, State.elementPlaces s c acc rest with
    | .error e, _ => .error e
    | _, .error e => .error e
    | .ok p, .ok l => .ok ((p, n) :: l)

/-- The index of element `t`, read from the list (13 R278). -/
def State.gathIndex (s : State) (c : Nat) (r : CopyReq) (t : Nat) : Nat := (s.cell c).spad.read (r.list + 4 * t) 4

/-- An element has failed: the lowest one's status is kept (13 R278). -/
def Transfer.failAt (x : Transfer) (t status : Nat) : Transfer :=
  { x with
    done := x.done + 1
    failed := match x.failed with
      | some f => if t < f.2 then some (status, t) else some f
      | none => some (status, t) }

/-- `n` undefined bytes. -/
def State.freeBytes (s : State) (n : Nat) : List (Byte × Bool) :=
  (upFrom n 0).map (fun i => (Config.freeByte (s.fresh * 2 ^ 60 + i), false))

/-- Place bytes in the buffer of a gather. -/
def State.gathPut (s : State) (c : Nat) (r : CopyReq) (t : Nat) (d : List (Byte × Bool)) : State :=
  s.placeWrite none (.spad c (r.buffer + t * r.esize)) d

/-- A gather asks for its next element: its index is read and the read goes to its home (13 R278). -/
def State.gathAsk (s : State) (c : Nat) (x : Transfer) : State :=
  let t := x.asked
  let i := s.gathIndex c x.req t
  let x1 (status : Nat) (l : List (CPlace × Nat)) : Transfer :=
    { x with asked := t + 1, pending := x.pending ++ [{ t := t, i := i, status := status, places := l }] }
  match x.req.element i with
  | none => s.setXfer c (x1 5 [])
  | some a =>
    match s.elementPlaces c .read (rowPieces 3 a x.req.esize) with
    | .error z => s.setXfer c (x1 z [])
    | .ok l =>
      let y := l.foldl (fun (z : (State × Transfer) × Nat) p =>
        (if p.1.external then z.1.1.segRead c z.1.2 p.1 (t * x.req.esize + z.2) p.2 else z.1, z.2 + p.2)) ((s, x1 0 l), 0)
      y.1.1.setXfer c y.1.2

/-- The data of an element's pieces: none while some is on its way. -/
def State.pieceData (s : State) (x : Transfer) (t : Nat) : Nat → List (CPlace × Nat) →
    Option (Except Nat (List (Byte × Bool)))
  | _, [] => some (.ok [])
  | o, (p, n) :: rest =>
    let here : Option (Except Nat (List (Byte × Bool))) :=
      if p.external then
        match (x.seg true (t * x.req.esize + o)).bind (·.answer) with
        | none => none
        | some (.refused e) => some (.error e)
        | some (.data d) => some (.ok d)
      else some (.ok (s.placeRead p n))
    match here, State.pieceData s x t (o + n) rest with
    | some (.error e), _ => some (.error e)
    | _, some (.error e) => some (.error e)
    | some (.ok a), some (.ok b) => some (.ok (a ++ b))
    | _, _ => none

/-- The reply of a gather's element: the bytes go to the element's own place in the buffer (13 R278). -/
def State.gathReply (s : State) (c : Nat) (x : Transfer) (g : GathEl) : State :=
  let e := x.req.esize
  let t := g.t
  let x1 : Transfer :=
    { x with
      pending := x.pending.erase g
      segs := x.segs.filter (fun g => !decide (t * e ≤ g.pos ∧ g.pos < t * e + e)) }
  let fail (status : Nat) : State := (s.gathPut c x.req t (s.freeBytes e)).setXfer c (x1.failAt t status)
  if g.status ≠ 0 then fail g.status
  else
    match s.pieceData x t 0 g.places with
    | none => s
    | some (.error z) => fail z
    | some (.ok d) => (s.gathPut c x.req t d).setXfer c { x1 with done := x.done + 1 }

/-- A scatter performs its next element (13 R278). -/
def State.scatNext (s : State) (c : Nat) (x : Transfer) : State :=
  let t := x.done
  let e := x.req.esize
  match x.req.element (s.gathIndex c x.req t) with
  | none => s.setXfer c (x.failAt t 5)
  | some a =>
    match s.elementPlaces c .write (rowPieces 3 a e) with
    | .error z =>
      let s1 := (rowPieces 3 a e).foldl (fun u p =>
        match s.cpyPlace c p.1 .write with
        | .ok pl => u.placeWrite (s.cell c).launch pl (s.freeBytes p.2)
        | .error _ => u) s
      s1.setXfer c (x.failAt t z)
    | .ok l =>
      let d := s.placeRead (.spad c (x.req.buffer + t * e)) e
      let y := l.foldl (fun (z : (State × Transfer) × Nat) p =>
        (z.1.1.segWrite c z.1.2 p.1 t ((d.drop z.2).take p.2) none, z.2 + p.2)) ((s, x), 0)
      y.1.1.setXfer c { y.1.2 with done := t + 1 }

/-- COPY_CHUNK_PERFORM (13 R272, R276, R278): the next chunk of a transfer; for a gather the read of its next element,
for a scatter its next element. -/
def execCopyChunkPerform (cell id : Nat) (s : State) : Host.Outcome State Fault Refusal :=
  match (s.cell cell).xfer id with
  | none => idle s
  | some x =>
    if !s.copyRuns cell then idle s
    else
      match x.req.scat with
      | some false => if x.asked < x.req.count then .next (s.gathAsk cell x) else idle s
      | some true => if x.done < x.req.count then .next (s.scatNext cell x) else idle s
      | none =>
        if x.settled.failed.isSome then .next (s.cpyFailed cell x.settled)
        else if x.done < x.req.total then .next (s.copyChunk cell x)
        else if x.req.op = 5 ∧ !x.checked ∧ x.answered then .next (s.checkWord cell x)
        else idle s

/-- GATH_ELEMENT_REPLY (13 R278). -/
def execGathElementReply (cell id t : Nat) (s : State) : Host.Outcome State Fault Refusal :=
  match (s.cell cell).xfer id with
  | none => idle s
  | some x =>
    match x.pending.find? (fun p => p.t = t) with
    | some p => .next (s.gathReply cell x p)
    | none => idle s

/-- Every byte or element of a transfer has been performed, or has failed where failures do not stop the rest. -/
def Transfer.over (x : Transfer) : Bool :=
  x.segs.all (fun g => g.answer.isSome) && x.pending.isEmpty &&
  ((x.req.scat == none && x.settled.failed.isSome) ||
    (x.done == x.req.total && (x.req.scat != none || x.req.op != 5 || x.checked)))

/-- The end of a transfer whose work is over (13 R275, R276, R278). -/
def State.cpyFinish (s : State) (c : Nat) (x : Transfer) : State :=
  match x.req.scat with
  | some _ =>
    match x.settled.failed with
    | some f => s.cpyEnd c x f.1 (f.2 * x.req.esize)
    | none => s.cpyEnd c x 0 (x.req.count * x.req.esize)
  | none => if x.settled.failed.isSome then s.cpyFailed c x else s.cpyEnd c x 0 x.req.total

/-- A GATH or SCAT of an Umbra launch completes at its deadline only (13 R280). -/
def State.umbraWaits (s : State) (c : Nat) (x : Transfer) : Bool := (s.launchOf c).umbra && x.req.scat != none

/-- TRANSFER_COMPLETE (13 R275); a cancel lets no completion be signalled (13 R281). -/
def execTransferComplete (cell id : Nat) (s : State) : Host.Outcome State Fault Refusal :=
  match (s.cell cell).xfer id with
  | none => idle s
  | some x =>
    if x.over && !s.umbraWaits cell x && !(s.launchOf cell).cancel then .next (s.cpyFinish cell x) else idle s

/-- The Umbra bound of a gather or scatter of a cell: by what its base names (13 R280, 11 R219). -/
def State.umbraBound (s : State) (c : Nat) (r : CopyReq) : Nat :=
  match s.resolve c none r.base 1 with
  | some (.spad _ _) => 256 + 4 * r.count
  | some (.global _) => 1024 + 4 * r.count
  | _ => 16384 + 4 * r.count

/-- UMBRA_GATH_DEADLINE (13 R280): completion at issue + m·B, the least that is not earlier than the end of the work. -/
def execUmbraGathDeadline (cell id : Nat) (s : State) : Host.Outcome State Fault Refusal :=
  match (s.cell cell).xfer id with
  | none => idle s
  | some x =>
    if x.over && s.umbraWaits cell x && !(s.launchOf cell).cancel then
      let b := s.umbraBound cell x.req
      let m := max 1 ((s.now - x.req.issued + b - 1) / b)
      let s1 : State := { s with now := max s.now (x.req.issued + m * b) }
      .next (s1.cpyFinish cell x)
    else idle s

/-- The GLOBAL addresses that addresses of a cell name, each with a number of bytes. -/
def State.globals (s : State) (c : Nat) (l : List (Word × Nat)) : List (Nat × Nat) :=
  l.filterMap (fun e => match s.resolve c none e.1 1 with
    | some (.global va) => some (va, e.2)
    | _ => none)

/-- The GLOBAL bytes that runs read and write: first address and number. -/
def State.runSpans (s : State) (c : Nat) (l : List Run) : List (Nat × Nat) :=
  s.globals c (l.flatMap (fun r => (r.dst, r.n) :: (match r.src with
    | .addr a => [(a, r.n)]
    | _ => [])))

/-- The GLOBAL bytes that a transfer of a cell reads and writes in all. -/
def State.spans (s : State) (c : Nat) (x : Transfer) : List (Nat × Nat) :=
  match x.req.scat with
  | none =>
    s.runSpans c (x.req.runs x.req.total 0 x.req.total) ++
      (if x.req.op = 5 then s.globals c [(w64 (x.req.dsc 8 8), 8)] else [])
  | some _ =>
    s.globals c ((upFrom x.req.count 0).filterMap (fun t =>
      (x.req.element (s.gathIndex c x.req t)).map (fun a => (a, x.req.esize))))

/-- The GLOBAL bytes of the chunk and the elements of a transfer that have begun: they count on pins (11 R235). -/
def State.begunSpans (s : State) (c : Nat) (x : Transfer) : List (Nat × Nat) :=
  s.runSpans c (x.plan.map (·.run)) ++
    s.globals c (x.pending.filterMap (fun g => (x.req.element g.i).map (fun a => (a, x.req.esize))))

/-- Give a segment of a cell's transfers its answer. -/
def State.segAnswer (s : State) (c seg : Nat) (ans : SegAns) : State :=
  s.updCell c (fun y =>
    { y with copy := { y.copy with xfers := y.copy.xfers.map (fun x =>
      { x with segs := x.segs.map (fun g =>
        if g.id = seg ∧ g.answer = none then { g with answer := some ans } else g) }) } })

end Sys2Proof.Machine
end

