-- ==== Sys2Proof/Machine/VControl.lean ====
section
/-!
DEFINITION. The words that the V and M streams share: tokens, scalar arithmetic, branches, stream control, special
registers (05 R88-R90, R96-R101).
-/

namespace Sys2Proof.Machine

open Sys2Proof

/-! ## Tokens (05 R88) -/

/-- TOK (05 R88): the consumes are done in one step, or the stream waits. That the prefixed word is legal has been
checked when the TOK came to issue. -/
def execTok (use : TokUse) (prod : Option (KReg × Fin 4)) (s : State) : Host.Outcome State Fault Refusal :=
  let t : TokSt := { addr := s.epc, use := use, prod := prod }
  .next (
    if s.here.tokReady use then
      (s.updHere (fun c => c.tokTake use.list)).updEng (fun e =>
        { (if use.list.isEmpty then e else e.relied).past 4 with tok := some t, wait := none, clk := e.clk + 1 })
    else s.estall (.tok t))

/-! ## Scalar arithmetic (05 R96-R98) -/

/-- A scalar register of a compact word: e0-e7 or q0-q7 (05 R94). -/
def lowSReg (r : Fin 8) : SReg := Fin.ofNat 16 r.val

/-- SADD (05 R97). -/
def execSadd (b d a : SReg) (s : State) : Host.Outcome State Fault Refusal :=
  .next (s.esWrite d (s.sr a + s.sr b) 4 2)

/-- SSUB (05 R97). -/
def execSsub (b d a : SReg) (s : State) : Host.Outcome State Fault Refusal :=
  .next (s.esWrite d (s.sr a - s.sr b) 4 2)

/-- SMUL (05 R97). -/
def execSmul (b d a : SReg) (s : State) : Host.Outcome State Fault Refusal :=
  .next (s.esWrite d (s.sr a * s.sr b) 4 4)

/-- SAND (05 R97). -/
def execSand (b d a : SReg) (s : State) : Host.Outcome State Fault Refusal :=
  .next (s.esWrite d (s.sr a &&& s.sr b) 4 2)

/-- SOR (05 R97). -/
def execSor (b d a : SReg) (s : State) : Host.Outcome State Fault Refusal :=
  .next (s.esWrite d (s.sr a ||| s.sr b) 4 2)

/-- SXOR (05 R97). -/
def execSxor (b d a : SReg) (s : State) : Host.Outcome State Fault Refusal :=
  .next (s.esWrite d (s.sr a ^^^ s.sr b) 4 2)

/-- SSHL (05 R97). -/
def execSshl (b d a : SReg) (s : State) : Host.Outcome State Fault Refusal :=
  .next (s.esWrite d (s.sr a <<< shAmt (s.sr b)) 4 2)

/-- SSHR (05 R97). -/
def execSshr (b d a : SReg) (s : State) : Host.Outcome State Fault Refusal :=
  .next (s.esWrite d (s.sr a >>> shAmt (s.sr b)) 4 2)

/-- SADDI (05 R98). -/
def execSaddi (i : BitVec 12) (d a : SReg) (s : State) : Host.Outcome State Fault Refusal :=
  .next (s.esWrite d (s.sr a + i.signExtend 64) 4 2)

/-- Compact SADDI (05 Table 5.13). -/
def execSaddiC16 (d a : Fin 8) (i : BitVec 5) (s : State) : Host.Outcome State Fault Refusal :=
  .next (s.esWrite (lowSReg d) (s.sr (lowSReg a) + i.signExtend 64) 2 2)

/-- SLI (05 R98): the other bits of D are read in the issue CCLK. -/
def execSli (i : BitVec 16) (d : SReg) (k : Fin 4) (s : State) : Host.Outcome State Fault Refusal :=
  .next (s.esWrite d (putHalf (s.sr d) i k) 4 2)

/-! ## Branches (05 R99) -/

/-- The condition of an SBR. -/
def sbrTaken (c : SbrCond) (a b : Word) : Bool :=
  match c with
  | .z => a == 0
  | .nz => a != 0
  | .eq => a == b
  | .ne => a != b
  | .lt => a.slt b
  | .ge => !a.slt b

/-- SBR (05 R99). -/
def execSbr (i : BitVec 12) (b : SReg) (c : SbrCond) (a : SReg) (s : State) : Host.Outcome State Fault Refusal :=
  let t := s.epc + i.signExtend 64 * 4
  .next (
    if sbrTaken c (s.sr a) (s.sr b) then (if fld t 1 0 ≠ 0 then s.etrap cBLOCK t else s.ejump t)
    else s.eissue 4 0 [])

/-! ## Stream control (05 R100) -/

/-- The produce of the TOK before the word in hand. -/
def State.tokProd (s : State) : Option Produce := s.eng.produce?

/-- SHALT (05 R100): it waits until the earlier words have completed; then the stream ends, its bound registers are unbound
(08 R179), and its produce is performed. -/
def execShalt (s : State) : Host.Outcome State Fault Refusal :=
  let c := s.cur.cell
  let st := s.cur.stream
  .next (
    if s.eng.drained then
      let s1 := s.updEng (fun e => { e with run := none, tok := none, wait := none, flights := [] })
      let s2 := match st with
        | .m => s1
        | _ => s1.updHere (fun x => { x with v := { x.v with binds := [] } })
      s2.produce c st s.tokProd
    else s.estall .drain)

/-- SNOP (05 R100). -/
def execSnop (s : State) : Host.Outcome State Fault Refusal := .next (s.eissue 4 0 [])

/-- Compact SNOP (05 Table 5.13). -/
def execSnopC16 (s : State) : Host.Outcome State Fault Refusal := .next (s.eissue 2 0 [])

/-- SKINC of `len` bytes: it joins the words in flight, and counts at once when none is before it (05 R100). -/
def State.skinc (s : State) (k : KReg) (n : W32) (len : Nat) : State :=
  let p := s.tokProd
  (s.updEng (fun e =>
    { e.past len with
      tok := none
      wait := none
      clk := e.clk + 1 + e.gap len
      flights := e.flights ++ [.skinc k n s.epc p] })).retireSkincs s.cur.cell s.cur.stream 64

/-- The immediate amount of SKINC and SKWAIT (05 R100): 1-256. -/
def skAmt (n : BitVec 8) : W32 := n.setWidth 32 + 1

/-- SKINC with an immediate (05 R100). -/
def execSkinc (k : KReg) (n : BitVec 8) (s : State) : Host.Outcome State Fault Refusal := .next (s.skinc k (skAmt n) 4)

/-- SKINC with a register (05 R100). -/
def execSkincReg (k : KReg) (a : SReg) (s : State) : Host.Outcome State Fault Refusal :=
  .next (s.skinc k ((s.sr a).setWidth 32) 4)

/-- Compact SKINC by 1 (05 Table 5.13). -/
def execSkincC16 (k : KReg) (s : State) : Host.Outcome State Fault Refusal := .next (s.skinc k 1 2)

/-- SKWAIT of `len` bytes (05 R100). -/
def State.skwait (s : State) (k : KReg) (n : W32) (len : Nat) : State :=
  if n ≤ s.here.k[k] then
    ((s.updHere (fun c => { c with k := c.k.set k (c.k[k] - n) })).updEng Engine.relied).eissue len 0 []
  else s.estall (.skwait k n len)

/-- SKWAIT with an immediate (05 R100). -/
def execSkwait (k : KReg) (n : BitVec 8) (s : State) : Host.Outcome State Fault Refusal :=
  .next (s.skwait k (skAmt n) 4)

/-- SKWAIT with a register (05 R100). -/
def execSkwaitReg (k : KReg) (a : SReg) (s : State) : Host.Outcome State Fault Refusal :=
  .next (s.skwait k ((s.sr a).setWidth 32) 4)

/-- Compact SKWAIT by 1 (05 Table 5.13). -/
def execSkwaitC16 (k : KReg) (s : State) : Host.Outcome State Fault Refusal := .next (s.skwait k 1 2)

/-! ## Special registers (05 R101) -/

/-- SMFS (05 R101, 06 Table 6.4). -/
def execSmfs (r : BitVec 8) (d : SReg) (s : State) : Host.Outcome State Fault Refusal :=
  .next (
    match s.sregShared s.cur.cell r.toNat with
    | some v => s.esWrite d v 4 4
    | none => s.etrap cPRIV (w64 r.toNat))

/-- SMTS (05 R101, 06 Table 6.4): SEED and QOVF may be written. -/
def execSmts (r : BitVec 8) (a : SReg) (s : State) : Host.Outcome State Fault Refusal :=
  let v := s.sr a
  .next (
    match r.toNat with
    | 0x04 =>
      (s.writeSreg 0x04 (s.here.seed.setWidth 64) (s.now + 4) (fun c => { c with seed := seedWritten v })).eissue 4 0 []
    | 0x05 => (s.writeSreg 0x05 (boolW s.here.qovf) (s.now + 4) (fun c => { c with qovf := v.getLsbD 0 })).eissue 4 0 []
    | n => s.etrap cPRIV (privWrite n))

end Sys2Proof.Machine
end

