-- ==== Sys2Proof/Machine/VOps.lean ====
section
/-!
DEFINITION. What V words share: elements and masks, operands and bound streams, segment poison, issue (08 R151-R154,
R178).
-/

namespace Sys2Proof

/-- The format of the elements that fmt3 names (05 Table 5.4). -/
def VFmt.fmt : VFmt → Fmt
  | .f32 => .f32 | .bf16 => .bf16 | .f16 => .f16 | .i32 => .i32 | .u32 => .u32 | .i16 => .i16 | .i8 => .i8 | .q64 => .q64

/-- Element width in bits. -/
def VFmt.width (f : VFmt) : Nat := f.fmt.width

/-- Element count (08 Table 8.1). -/
def VFmt.count (f : VFmt) : Nat := 4096 / f.width

/-- The elements are floats. -/
def VFmt.isFloat : VFmt → Bool
  | .f32 | .bf16 | .f16 => true
  | _ => false

end Sys2Proof

namespace Sys2Proof.Machine

open Sys2Proof

/-! ## Elements (07 R131) -/

/-- Element `e` of `w` bits. -/
def vel (x : Vec) (w e : Nat) : Nat := x.toNat / 2 ^ (w * e) % 2 ^ w

/-- A number from elements of `w` bits, element 0 lowest. -/
def packEls (w : Nat) : List Nat → Nat
  | [] => 0
  | x :: r => x % 2 ^ w + 2 ^ w * packEls w r

/-- A mask from its bits, bit 0 first. -/
def packMask (l : List Bool) : Mask := BitVec.ofNat 512 (packEls 1 (l.map b2n))

/-- What a word writes into a v register: the bits and which of them. -/
structure VOut where
  r : VReg
  val : Vec
  wr : Vec
  deriving DecidableEq, Repr

/-- Elements of `w` bits to be written into a register; none where an element is not written. -/
def vout (r : VReg) (w : Nat) (l : List (Option Nat)) : VOut where
  r := r
  val := BitVec.ofNat 4096 (packEls w (l.map (fun x => x.getD 0)))
  wr := BitVec.ofNat 4096 (packEls w (l.map (fun x => match x with | some _ => 2 ^ w - 1 | none => 0)))

/-- The elements of a word that acts on each active one: `f` gives the new element. -/
def activeEls (n : Nat) (m : Mask) (f : Nat → Nat) : List (Option Nat) :=
  (upFrom n 0).map (fun e => if m.getLsbD e then some (f e) else none)

/-! ## Segment poison (08 R154) -/

/-- The bits of segment `g` (64 bytes) of a register image. -/
def segBits (x : Vec) (g : Nat) : Nat := x.toNat / 2 ^ (512 * g) % 2 ^ 512

/-- A set of the eight segments. -/
def segSet (f : Nat → Bool) : BitVec 8 := BitVec.ofNat 8 (packEls 1 ((upFrom 8 0).map (fun g => b2n (f g))))

/-- The poison of a register after a write: a segment that is written takes its source term, and its old bit where it is
not written whole. -/
def newPoison (old src : BitVec 8) (wr : Vec) : BitVec 8 :=
  segSet (fun g =>
    let w := segBits wr g
    if w = 0 then old.getLsbD g else src.getLsbD g || (old.getLsbD g && w != 2 ^ 512 - 1))

/-- The source term of a word that is not lane-wise: every segment of every source. -/
def spreadPoison (p : BitVec 8) : BitVec 8 := if p = 0 then 0 else BitVec.allOnes 8

/-- The segments that hold an active element of `w` bits. -/
def activeSegs (w n : Nat) (m : Mask) : BitVec 8 :=
  segSet (fun g => (upFrom n 0).any (fun e => m.getLsbD e && w * e / 512 == g))

/-! ## Bytes of the scratchpad by lanes (08 R170) -/

/-- Bytes to be stored: offset, byte, and whether it comes from a poisoned segment. -/
abbrev VStore := List (Nat × Byte × Bool)

/-- The sectors that a store touches. -/
def storeSectors (l : VStore) : List Nat := l.foldl (fun q x => setAdd q (x.1 / 64)) []

/-- A store puts a byte of a poisoned segment into a sector. -/
def storeBad (l : VStore) (s : Nat) : Bool := l.any (fun x => x.1 / 64 == s && x.2.2)

/-- A store writes all of a sector, with no byte of a poisoned segment (11 R227). -/
def storeCleans (l : VStore) (s : Nat) : Bool :=
  !storeBad l s && ((l.filter (fun x => x.1 / 64 == s)).foldl (fun q x => setAdd q x.1) []).length = 64

/-- Store bytes, later ones over earlier ones, with the poison of each sector they touch. -/
def Spad.storeBytes (p : Spad) (l : VStore) : Spad :=
  { p with
    bytes := l.foldl (fun m x => Mem.write m x.1 x.2.1) p.bytes
    poison := (storeSectors l).foldl (fun q s =>
      if storeBad l s then setAdd q s else if storeCleans l s then setDel q s else q) p.poison }

/-- The written bytes of a register image as a store of 512 bytes from an offset. -/
def vecStore (off : Nat) (x : Vec) (poison : BitVec 8) (wr : Vec) : VStore :=
  (upFrom 512 0).filterMap (fun i =>
    if wr.toNat / 2 ^ (8 * i) % 256 = 0 then none
    else some (off + i, BitVec.ofNat 8 (x.toNat / 2 ^ (8 * i)), poison.getLsbD (i / 64)))

/-- 512 bytes of a scratchpad as a register image, and the poison of its segments: that of the sectors its lanes come
from. -/
def Spad.vector (p : Spad) (off : Nat) : Vec × BitVec 8 :=
  (BitVec.ofNat 4096 (p.read off 512), segSet (fun g => p.bad (off + 64 * g) 64))

/-! ## Operands -/

/-- A v register as an issuing word reads it: free between a word's issue and its bound (05 R87, log 5). -/
def State.vreg (s : State) (r : VReg) : Vec :=
  if s.eng.inFlight (.v r) then Config.freeVec (s.draw (128 + r.val)) else s.here.v.v[r]

/-- The segment poison of a v register as an issuing word reads it; an undefined value has none (R5). -/
def State.vpoison (s : State) (r : VReg) : BitVec 8 := if s.eng.inFlight (.v r) then 0 else s.here.v.vp[r]

/-- A mask register as an issuing word reads it: m0 reads as all ones (05 R85). -/
def State.vm (s : State) (r : MReg) : Mask :=
  if r = 0 then BitVec.allOnes 512
  else if s.eng.inFlight (.m r) then Config.freeMask (s.draw (192 + r.val))
  else s.here.v.m[r]

/-- Which stream a register is bound to. -/
def State.bind (s : State) (r : VReg) : Option Binding := s.here.v.binds.find r.val

/-- What a word finds when it comes to its bound registers (08 R178). -/
inductive BindCheck where
  | ok
  | trap
  | stall (r : VReg)
  deriving DecidableEq, Repr

/-- A register named as a source. -/
def State.checkSrc (s : State) (r : VReg) : BindCheck :=
  match s.bind r with
  | none => .ok
  | some b => if b.write ∨ b.count ≤ b.pos then .trap else if b.fetched = [] then .stall r else .ok

/-- A register named as a destination. -/
def State.checkDst (s : State) (r : VReg) : BindCheck :=
  match s.bind r with
  | none => .ok
  | some b => if !b.write ∨ b.count ≤ b.pos then .trap else .ok

/-- The checks of all registers of a word: a trap before a stall. -/
def State.checkBinds (s : State) (srcs dsts : List VReg) : BindCheck :=
  let l := srcs.map s.checkSrc ++ dsts.map s.checkDst
  if l.contains .trap then .trap
  else
    match l.find? (fun x => x != .ok) with
    | some x => x
    | none => .ok

/-- A read-bound register delivers its next vector: it stands in the register from then on (08 R178, R179). -/
def VUnit.deliver (v : VUnit) (r : VReg) : VUnit :=
  match v.binds.find r.val with
  | some b =>
    match b.fetched with
    | x :: rest =>
      { v with
        v := v.v.set r x.1
        vp := v.vp.set r x.2
        binds := v.binds.put r.val { b with pos := b.pos + 1, fetched := rest } }
    | [] => v
  | none => v

/-- The distinct registers of a list. -/
def distinct (l : List VReg) : List VReg := l.foldl (fun q r => if q.contains r then q else q ++ [r]) []

/-! ## Issue -/

/-- The result of a V word. -/
structure VRes where
  outs : List VOut
  /-- The source term of segment poison. -/
  poison : BitVec 8
  e : Option (EReg × Word)
  m : Option (MReg × Mask)
  /-- Latency bound; how long the unit is taken. -/
  bound : Nat
  interval : Nat
  deriving DecidableEq, Repr

/-- A result that is one v register. -/
def VRes.one (o : VOut) (poison : BitVec 8) (bound : Nat) : VRes :=
  { outs := [o], poison := poison, e := none, m := none, bound := bound, interval := 1 }

/-- A result that is one e register. -/
def VRes.scalar (d : EReg) (v : Word) (bound : Nat) : VRes :=
  { outs := [], poison := 0, e := some (d, v), m := none, bound := bound, interval := 1 }

/-- A result that is one mask. -/
def VRes.mask (d : MReg) (v : Mask) (bound : Nat) : VRes :=
  { outs := [], poison := 0, e := none, m := some (d, v), bound := bound, interval := 1 }

/-- A result with nothing written to registers. -/
def VRes.nothing (bound interval : Nat) : VRes :=
  { outs := [], poison := 0, e := none, m := none, bound := bound, interval := interval }

/-- Write one v register: its lanes, its poison, and the next vector of a write stream (08 R151, R154, R178). -/
def VUnit.put (v : VUnit) (o : VOut) (src : BitVec 8) : VUnit :=
  { v with
    v := v.v.set o.r ((v.v[o.r] &&& ~~~ o.wr) ||| (o.val &&& o.wr))
    vp := v.vp.set o.r (newPoison v.vp[o.r] src o.wr) }

/-- Where vector `i` of a stream lies. -/
def Binding.addr (b : Binding) (i : Nat) : Nat := ((b.base : Int) + i * b.stride).toNat

/-- A write-bound register stores what the word wrote to its next vector, and counts when it has been performed. -/
def State.streamStore (s : State) (o : VOut) (bound : Nat) : State :=
  match s.bind o.r with
  | some b =>
    let v := s.here.v
    s.updHere (fun c =>
      { c with
        spad := c.spad.storeBytes (vecStore (b.addr b.pos) v.v[o.r] v.vp[o.r] o.wr)
        v := { c.v with
          binds := c.v.binds.put o.r.val { b with pos := b.pos + 1 }
          eng := { c.v.eng with
            flights := match b.counter with
              | some k => c.v.eng.flights ++ [.word (c.v.eng.clk + bound) [] (some { k := k, n := 1, word := s.epc }) false]
              | none => c.v.eng.flights } } })
  | none => s

/-- The destinations of a result. -/
def VRes.dests (r : VRes) : List Dest :=
  r.outs.map (fun o => .v o.r) ++ (match r.e with | some x => [.g x.1] | none => []) ++
    (match r.m with | some x => [.m x.1] | none => [])

/-- Issue a V word of `len` bytes with its result. -/
def State.vput (s : State) (major len : Nat) (r : VRes) : State :=
  let s1 := s.updHere (fun c =>
    let v1 := r.outs.foldl (fun v o => v.put o r.poison) c.v
    { c with v := { v1 with
      m := match r.m with | some x => v1.m.set x.1 x.2 | none => v1.m
      busy := v1.busy.put major (v1.eng.clk + r.interval)
      eng := { v1.eng with g := match r.e with | some x => v1.eng.g.set x.1 x.2 | none => v1.eng.g } } })
  let s2 := r.outs.foldl (fun s o => s.streamStore o r.bound) s1
  s2.eissue len r.bound r.dests

/-- The V engine when the unit of a major can take a word (08 R152): a structural stall passes time and nothing else. -/
def State.vfree (s : State) (major : Nat) : State :=
  s.updHere (fun c =>
    { c with v := { c.v with eng := { c.v.eng with clk := max c.v.eng.clk ((c.v.busy.find major).getD 0) } } })

/-- A V word of a major that names sources and destinations (08 R151, R178): it traps on a bound register of the wrong
direction or at its end (the detail of that trap is unstated and free), waits for a vector that has not arrived, and
otherwise runs; what it consumes is consumed when it does not trap at issue. `f` gives the state with its other effects
and its result, or a trap: POISON is taken after issue (18 Table 18.2), the others at issue. -/
def State.vword (s : State) (major len : Nat) (srcs dsts : List VReg)
    (f : State → Except (Nat × Word) (State × VRes)) : Host.Outcome State Fault Refusal :=
  let s0 := s.vfree major
  .next (
    match s0.checkBinds srcs dsts with
    | .trap => s0.etrap cSTREAM (Config.freeWord (s.draw 201))
    | .stall r => s0.estall (.vector r)
    | .ok =>
      let s1 := s0.updHere (fun c => { c with v := (distinct srcs).foldl VUnit.deliver c.v })
      match f s1 with
      | .error t => if t.1 = cPOISON then s1.etrapVoid len t.1 t.2 else s0.etrap t.1 t.2
      | .ok (s2, r) => s2.vput major len r)

/-- A word that cannot trap by itself and has no effect beside its result. -/
def State.vpure (s : State) (major len : Nat) (srcs dsts : List VReg) (f : State → VRes) :
    Host.Outcome State Fault Refusal :=
  s.vword major len srcs dsts (fun s => .ok (s, f s))

/-- A lane-wise word on elements of a format: `f` maps the elements of va, vb and vd (08 R151). -/
def State.lanewise (s : State) (major len bound interval : Nat) (fm : VFmt) (m : MReg) (srcs : List VReg) (a b d : VReg)
    (f : Nat → Nat → Nat → Nat) : Host.Outcome State Fault Refusal :=
  s.vpure major len srcs [d] (fun s =>
    let w := fm.width
    let va := s.vreg a
    let vb := s.vreg b
    let vd := s.vreg d
    let p := srcs.foldl (fun q r => q ||| s.vpoison r) 0
    { VRes.one (vout d w (activeEls fm.count (s.vm m) (fun e => f (vel va w e) (vel vb w e) (vel vd w e)))) p bound with
      interval := interval })

/-- Set QOVF when a word overflows (07 R150). -/
def State.orQovf (s : State) (b : Bool) : State := s.updHere (fun c => c.orQovf b)

/-- The generator's states for elements that round under RSN: one step for each active element, in ascending order, the
state after the step (07 R136, R137); 0 for the others, and for every element under another mode. -/
def seedsFor (mode : RMode) : W32 → List Bool → List Nat × W32
  | s, [] => ([], s)
  | s, b :: r =>
    if b && mode == .rsn then
      let t := seedStep s
      let q := seedsFor mode t r
      (t.toNat :: q.1, q.2)
    else
      let q := seedsFor mode s r
      (0 :: q.1, q.2)

/-- The generator has stepped for the active elements of a word; the sequence from before a write of SEED steps too (07
R137). -/
def Cell.stepSeed (c : Cell) (mode : RMode) (act : List Bool) : Cell :=
  { c with
    seed := (seedsFor mode c.seed act).2
    late := if mode == .rsn && act.any id then
        c.late.map (fun e =>
          if e.reg = 0x04 then { e with old := ((seedsFor mode (e.old.setWidth 32) act).2).setWidth 64 } else e)
      else c.late }

/-- The states that the elements of a word round with: shortly after a write of SEED each comes from either sequence (07
R137, log 39). -/
def State.seeds (s : State) (mode : RMode) (act : List Bool) : List Nat :=
  let new := (seedsFor mode s.here.seed act).1
  let olds := (s.lateOlds s.cur.cell 0x04).map (fun o => (seedsFor mode (o.setWidth 32) act).1)
  ((upFrom act.length 0).zip new).map (fun x =>
    (x.2 :: olds.map (fun l => l.getD x.1 0)).getD (Config.pick s.fresh 17 x.1 % (olds.length + 1)) x.2)

end Sys2Proof.Machine
end

