-- ==== Sys2Proof/Machine/VArith.lean ====
section
/-!
DEFINITION. Arithmetic of the V stream: floats, integers, compares, conversions, fixed point, block scales, reductions and
scans (08 R155-R165).
-/

namespace Sys2Proof.Machine

open Sys2Proof

/-! ## Floats (08 R155-R157) -/

/-- The value of a float element as arithmetic takes it. -/
def fval (fm : VFmt) (x : Nat) : FVal := operand fm.fmt x

/-- A lane-wise float word of va and vb: `f` gives the value that is rounded (08 R155). -/
def State.vfa (s : State) (fm : VFmt) (m : MReg) (b a d : VReg) (bound interval len : Nat) (f : FVal → FVal → FVal) :
    Host.Outcome State Fault Refusal :=
  s.lanewise 0 len bound interval fm m [a, b] a b d (fun x y _ => roundArith fm.fmt (f (fval fm x) (fval fm y)))

/-- A lane-wise float word of va (08 R155). -/
def State.vfa1 (s : State) (fm : VFmt) (m : MReg) (a d : VReg) (bound interval : Nat) (f : FVal → FVal) :
    Host.Outcome State Fault Refusal :=
  s.lanewise 0 4 bound interval fm m [a] a a d (fun x _ _ => roundArith fm.fmt (f (fval fm x)))

/-- a − b. -/
def subE (a b : FVal) : FVal := addE a b.negate

/-- The sign bit of a float element. -/
def signBit (fm : VFmt) (x : Nat) : Bool := x / 2 ^ (fm.width - 1) % 2 = 1

/-- VFADD (08 Table 8.3). -/
def execVfadd (fm : VFmt) (m : MReg) (b a d : VReg) (s : State) : Host.Outcome State Fault Refusal :=
  s.vfa fm m b a d 4 1 4 addE

/-- VFSUB (08 Table 8.3). -/
def execVfsub (fm : VFmt) (m : MReg) (b a d : VReg) (s : State) : Host.Outcome State Fault Refusal :=
  s.vfa fm m b a d 4 1 4 subE

/-- VFMUL (08 Table 8.3). -/
def execVfmul (fm : VFmt) (m : MReg) (b a d : VReg) (s : State) : Host.Outcome State Fault Refusal :=
  s.vfa fm m b a d 4 1 4 mulE

/-- VFMIN (08 Table 8.3). -/
def execVfmin (fm : VFmt) (m : MReg) (b a d : VReg) (s : State) : Host.Outcome State Fault Refusal :=
  s.vfa fm m b a d 4 1 4 minE

/-- VFMAX (08 Table 8.3). -/
def execVfmax (fm : VFmt) (m : MReg) (b a d : VReg) (s : State) : Host.Outcome State Fault Refusal :=
  s.vfa fm m b a d 4 1 4 maxE

/-- VFDIV (08 Table 8.3). -/
def execVfdiv (fm : VFmt) (m : MReg) (b a d : VReg) (s : State) : Host.Outcome State Fault Refusal :=
  s.vfa fm m b a d 24 8 4 divE

/-- VFSQRT (08 Table 8.3). -/
def execVfsqrt (fm : VFmt) (m : MReg) (a d : VReg) (s : State) : Host.Outcome State Fault Refusal :=
  s.vfa1 fm m a d 24 8 sqrtE

/-- VFABS (08 Table 8.3). -/
def execVfabs (fm : VFmt) (m : MReg) (a d : VReg) (s : State) : Host.Outcome State Fault Refusal :=
  s.vfa1 fm m a d 4 1 (FVal.withSign false)

/-- VFNEG (08 Table 8.3). -/
def execVfneg (fm : VFmt) (m : MReg) (a d : VReg) (s : State) : Host.Outcome State Fault Refusal :=
  s.vfa1 fm m a d 4 1 FVal.negate

/-- VFCPYS (08 Table 8.3): the sign bit of vb's encoding, even of a NaN. -/
def execVfcpys (fm : VFmt) (m : MReg) (b a d : VReg) (s : State) : Host.Outcome State Fault Refusal :=
  s.lanewise 0 4 4 1 fm m [a, b] a b d (fun x y _ => roundArith fm.fmt ((fval fm x).withSign (signBit fm y)))

/-- Compact VFADD: F32, m0 (05 Table 5.13). -/
def execVfaddC16 (d a b : Fin 8) (s : State) : Host.Outcome State Fault Refusal :=
  s.vfa .f32 0 (Fin.ofNat 32 b.val) (Fin.ofNat 32 a.val) (Fin.ofNat 32 d.val) 4 1 2 addE

/-- Compact VFMUL: F32, m0 (05 Table 5.13). -/
def execVfmulC16 (d a b : Fin 8) (s : State) : Host.Outcome State Fault Refusal :=
  s.vfa .f32 0 (Fin.ofNat 32 b.val) (Fin.ofNat 32 a.val) (Fin.ofNat 32 d.val) 4 1 2 mulE

/-- A fused word (08 R156): `f` combines the exact product and vd. -/
def State.vfused (s : State) (fm : VFmt) (m : MReg) (b a d : VReg) (len : Nat) (f : FVal → FVal → FVal) :
    Host.Outcome State Fault Refusal :=
  s.lanewise 1 len 5 1 fm m [a, b, d] a b d (fun x y z =>
    roundArith fm.fmt (f (mulE (fval fm x) (fval fm y)) (fval fm z)))

/-- VFMA (08 Table 8.4). -/
def execVfma (fm : VFmt) (m : MReg) (b a d : VReg) (s : State) : Host.Outcome State Fault Refusal :=
  s.vfused fm m b a d 4 addE

/-- VFMS (08 Table 8.4). -/
def execVfms (fm : VFmt) (m : MReg) (b a d : VReg) (s : State) : Host.Outcome State Fault Refusal :=
  s.vfused fm m b a d 4 subE

/-- VFNMA (08 Table 8.4). -/
def execVfnma (fm : VFmt) (m : MReg) (b a d : VReg) (s : State) : Host.Outcome State Fault Refusal :=
  s.vfused fm m b a d 4 (fun p z => addE p.negate z)

/-- Compact VFMA: F32, m0 (05 Table 5.13). -/
def execVfmaC16 (d a b : Fin 8) (s : State) : Host.Outcome State Fault Refusal :=
  s.vfused .f32 0 (Fin.ofNat 32 b.val) (Fin.ofNat 32 a.val) (Fin.ofNat 32 d.val) 2 addE

/-- A special function (08 R157). -/
def State.vsfu (s : State) (m : MReg) (a d : VReg) (f : FVal → FVal) : Host.Outcome State Fault Refusal :=
  s.lanewise 2 4 12 2 .f32 m [a] a a d (fun x _ _ => (f32Special f (BitVec.ofNat 32 x)).toNat)

/-- VEXP2 (08 R157). -/
def execVexp2 (m : MReg) (a d : VReg) (s : State) : Host.Outcome State Fault Refusal := s.vsfu m a d exp2V

/-- VLOG2 (08 R157). -/
def execVlog2 (m : MReg) (a d : VReg) (s : State) : Host.Outcome State Fault Refusal := s.vsfu m a d log2V

/-- VRCP (08 R157). -/
def execVrcp (m : MReg) (a d : VReg) (s : State) : Host.Outcome State Fault Refusal := s.vsfu m a d rcpV

/-- VRSQRT (08 R157). -/
def execVrsqrt (m : MReg) (a d : VReg) (s : State) : Host.Outcome State Fault Refusal := s.vsfu m a d rsqrtV

/-- VSINPI (08 R157). -/
def execVsinpi (m : MReg) (a d : VReg) (s : State) : Host.Outcome State Fault Refusal := s.vsfu m a d sinpiV

/-- VCOSPI (08 R157). -/
def execVcospi (m : MReg) (a d : VReg) (s : State) : Host.Outcome State Fault Refusal := s.vsfu m a d cospiV

/-- VTANH (08 R157). -/
def execVtanh (m : MReg) (a d : VReg) (s : State) : Host.Outcome State Fault Refusal := s.vsfu m a d tanhV

/-- VSIGM (08 R157). -/
def execVsigm (m : MReg) (a d : VReg) (s : State) : Host.Outcome State Fault Refusal := s.vsfu m a d sigmV

/-! ## Integers (08 R158) -/

/-- An element of `w` bits as a signed number. -/
def sgn (w x : Nat) : Int := (BitVec.ofNat w x).toInt

/-- A number modulo 2^w. -/
def wrapN (w : Nat) (x : Int) : Nat := (x % (2 ^ w : Nat)).toNat

/-- The number that an integer element stands for: U32 unsigned, the others signed. -/
def ival (fm : VFmt) (x : Nat) : Int := if fm = .u32 then (x : Int) else sgn fm.width x

/-- The shift amount of an element. -/
def vshAmt (w b : Nat) : Nat := b % w

/-- A lane-wise integer word (08 R158). -/
def State.via (s : State) (fm : VFmt) (m : MReg) (b a d : VReg) (bound len : Nat) (f : Nat → Nat → Nat) :
    Host.Outcome State Fault Refusal :=
  s.lanewise 3 len bound 1 fm m [a, b] a b d (fun x y _ => f x y)

/-- VADD (08 Table 8.5). -/
def execVadd (fm : VFmt) (m : MReg) (b a d : VReg) (s : State) : Host.Outcome State Fault Refusal :=
  s.via fm m b a d 2 4 (fun x y => (x + y) % 2 ^ fm.width)

/-- VSUB (08 Table 8.5). -/
def execVsub (fm : VFmt) (m : MReg) (b a d : VReg) (s : State) : Host.Outcome State Fault Refusal :=
  s.via fm m b a d 2 4 (fun x y => wrapN fm.width ((x : Int) - y))

/-- VMUL (08 Table 8.5). -/
def execVmul (fm : VFmt) (m : MReg) (b a d : VReg) (s : State) : Host.Outcome State Fault Refusal :=
  s.via fm m b a d 4 4 (fun x y => x * y % 2 ^ fm.width)

/-- VMULH (08 Table 8.5). -/
def execVmulh (fm : VFmt) (m : MReg) (b a d : VReg) (s : State) : Host.Outcome State Fault Refusal :=
  s.via fm m b a d 4 4 (fun x y => wrapN fm.width (ival fm x * ival fm y / (2 ^ fm.width : Nat)))

/-- VAND (08 Table 8.5). -/
def execVand (fm : VFmt) (m : MReg) (b a d : VReg) (s : State) : Host.Outcome State Fault Refusal :=
  s.via fm m b a d 2 4 (fun x y => x &&& y)

/-- VOR (08 Table 8.5). -/
def execVor (fm : VFmt) (m : MReg) (b a d : VReg) (s : State) : Host.Outcome State Fault Refusal :=
  s.via fm m b a d 2 4 (fun x y => x ||| y)

/-- VXOR (08 Table 8.5). -/
def execVxor (fm : VFmt) (m : MReg) (b a d : VReg) (s : State) : Host.Outcome State Fault Refusal :=
  s.via fm m b a d 2 4 (fun x y => x ^^^ y)

/-- VSHL (08 Table 8.5). -/
def execVshl (fm : VFmt) (m : MReg) (b a d : VReg) (s : State) : Host.Outcome State Fault Refusal :=
  s.via fm m b a d 2 4 (fun x y => x * 2 ^ vshAmt fm.width y % 2 ^ fm.width)

/-- VSHR (08 Table 8.5). -/
def execVshr (fm : VFmt) (m : MReg) (b a d : VReg) (s : State) : Host.Outcome State Fault Refusal :=
  s.via fm m b a d 2 4 (fun x y => x / 2 ^ vshAmt fm.width y)

/-- VSRA (08 Table 8.5). -/
def execVsra (fm : VFmt) (m : MReg) (b a d : VReg) (s : State) : Host.Outcome State Fault Refusal :=
  s.via fm m b a d 2 4 (fun x y => wrapN fm.width (sgn fm.width x / (2 ^ vshAmt fm.width y : Nat)))

/-- VMIN (08 Table 8.5). -/
def execVmin (fm : VFmt) (m : MReg) (b a d : VReg) (s : State) : Host.Outcome State Fault Refusal :=
  s.via fm m b a d 2 4 (fun x y => if ival fm y < ival fm x then y else x)

/-- VMAX (08 Table 8.5). -/
def execVmax (fm : VFmt) (m : MReg) (b a d : VReg) (s : State) : Host.Outcome State Fault Refusal :=
  s.via fm m b a d 2 4 (fun x y => if ival fm x < ival fm y then y else x)

/-- VABS (08 Table 8.5): the most negative value gives itself. -/
def execVabs (fm : VFmt) (m : MReg) (a d : VReg) (s : State) : Host.Outcome State Fault Refusal :=
  s.lanewise 3 4 2 1 fm m [a] a a d (fun x _ _ => (sgn fm.width x).natAbs % 2 ^ fm.width)

/-- Compact VADD: I32, m0 (05 Table 5.13). -/
def execVaddC16 (d a b : Fin 8) (s : State) : Host.Outcome State Fault Refusal :=
  s.via .i32 0 (Fin.ofNat 32 b.val) (Fin.ofNat 32 a.val) (Fin.ofNat 32 d.val) 2 2 (fun x y => (x + y) % 2 ^ 32)

/-! ## Compares (08 R159) -/

/-- A condition on two values: floats by IEEE 754, −0 equal to +0. -/
def vcond (c : VCond) (a b : FVal) : Bool :=
  let un := a.isNan || b.isNan
  let zeros := a.isZero && b.isZero
  let lt := !un && !zeros && ltE a b
  let gt := !un && !zeros && ltE b a
  let eq := !un && !lt && !gt
  match c with
  | .eq => eq
  | .ne => !eq
  | .lt => lt
  | .le => lt || eq
  | .gt => gt
  | .ge => gt || eq
  | .un => un
  | .ord => !un

/-- The value of an element as VCMP takes it. -/
def cmpVal (fm : VFmt) (x : Nat) : FVal := if fm.isFloat then fval fm x else decodeFmt fm.fmt x

/-- A word that reads v data into an e register or a mask: POISON when a poisoned segment holds an active element (08
R154). -/
def State.vread (s : State) (major : Nat) (fm : VFmt) (m : MReg) (srcs : List VReg) (f : State → VRes) :
    Host.Outcome State Fault Refusal :=
  s.vword major 4 srcs [] (fun s =>
    let p := srcs.foldl (fun q r => q ||| s.vpoison r) 0
    if p &&& activeSegs fm.width fm.count (s.vm m) ≠ 0 then .error (cPOISON, p.setWidth 64) else .ok (s, f s))

/-- VCMP (08 R159). -/
def execVcmp (fm : VFmt) (m : MReg) (b a : VReg) (d : MReg) (c : VCond) (s : State) :
    Host.Outcome State Fault Refusal :=
  s.vread 4 fm m [a, b] (fun s =>
    let va := s.vreg a
    let vb := s.vreg b
    let mk := s.vm m
    VRes.mask d (packMask ((upFrom fm.count 0).map (fun e =>
      mk.getLsbD e && vcond c (cmpVal fm (vel va fm.width e)) (cmpVal fm (vel vb fm.width e))))) 3)

/-! ## Conversions (08 R160-R163) -/

/-- The active elements of a word, with the generator's states, as new elements. -/
def convEls (m : Mask) (n : Nat) (seeds : List Nat) (f : Nat → Nat → Nat) : List (Option Nat) :=
  ((upFrom n 0).zip seeds).map (fun x => if m.getLsbD x.1 then some (f x.1 x.2) else none)

/-- The union of the poison of some registers, over all segments. -/
def State.vpoisonAll (s : State) (l : List VReg) : BitVec 8 := spreadPoison (l.foldl (fun q r => q ||| s.vpoison r) 0)

/-- VCVT (08 R160): the rest of vd is zeroed. -/
def execVcvt (src dst : Fmt) (mode : RMode) (novf : Bool) (m : MReg) (a d : VReg) (s : State) :
    Host.Outcome State Fault Refusal :=
  s.vword 5 4 [a] [d] (fun s =>
    let n := min 512 (4096 / max src.width dst.width)
    let mk := s.vm m
    let va := s.vreg a
    let flush := isFlushing dst && dst.width ≤ src.width
    let act := (upFrom n 0).map (fun e => mk.getLsbD e)
    let l := convEls mk n (s.seeds mode act) (fun e seed => convert dst mode novf flush seed (decodeFmt src (vel va src.width e)))
    let o := vout d dst.width (l ++ (upFrom (4096 / dst.width - n) 0).map (fun _ => some 0))
    .ok (s.updHere (fun c => c.stepSeed mode act), VRes.one o (s.vpoisonAll [a]) 4))

/-- A value times 2^k. -/
def FVal.scale (v : FVal) (k : Int) : FVal :=
  match v with
  | .fin s m e => .fin s m (e + k)
  | x => x

/-- A value as a Q64 number and whether that overflows (07 R150). -/
def toQ64 (mode : RMode) (seed : Nat) (v : FVal) : Nat × Bool :=
  match roundInt mode seed v with
  | none => (0, true)
  | some (.inr neg) => (wrapN 64 (if neg then -9223372036854775808 else 9223372036854775807), true)
  | some (.inl x) => (wrapN 64 (satI64 x), !inI64 x)

/-- The active Q64 elements of a mask. -/
def qActive (m : Mask) : List Bool := (upFrom 64 0).map (fun j => m.getLsbD j)

/-- VQCVT (08 R161). -/
def execVqcvt (r : RMode) (m : MReg) (b a d : VReg) (s : State) : Host.Outcome State Fault Refusal :=
  s.vword 6 4 [a, b] [d] (fun s =>
    let mk := s.vm m
    let va := s.vreg a
    let vb := s.vreg b
    let q := s.seeds r (qActive mk)
    let conv (j seed : Nat) : Nat × Bool :=
      toQ64 r seed ((decodeFloat .f32 (vel va 32 j)).scale ((vel vb 32 j % 64 : Nat) : Int))
    let o := vout d 64 (convEls mk 64 q (fun j seed => (conv j seed).1))
    let ovf := ((upFrom 64 0).zip q).any (fun x => mk.getLsbD x.1 && (conv x.1 x.2).2)
    .ok ((s.updHere (fun c => c.stepSeed r (qActive mk))).orQovf ovf, VRes.one o (s.vpoisonAll [a, b]) 4))

/-- VQADD or VQSUB (08 R161): `f` gives the exact result. -/
def State.vqArith (s : State) (m : MReg) (b a d : VReg) (f : Int → Int → Int) : Host.Outcome State Fault Refusal :=
  s.vword 6 4 [a, b] [d] (fun s =>
    let mk := s.vm m
    let va := s.vreg a
    let vb := s.vreg b
    let exact (j : Nat) : Int := f (sgn 64 (vel va 64 j)) (sgn 64 (vel vb 64 j))
    let ovf := (upFrom 64 0).any (fun j => mk.getLsbD j && !inI64 (exact j))
    .ok (s.orQovf ovf,
      VRes.one (vout d 64 (activeEls 64 mk (fun j => wrapN 64 (exact j)))) (s.vpoison a ||| s.vpoison b) 4))

/-- VQADD (08 R161). -/
def execVqadd (m : MReg) (b a d : VReg) (s : State) : Host.Outcome State Fault Refusal :=
  s.vqArith m b a d (fun x y => x + y)

/-- VQSUB (08 R161). -/
def execVqsub (m : MReg) (b a d : VReg) (s : State) : Host.Outcome State Fault Refusal :=
  s.vqArith m b a d (fun x y => x - y)

/-- VQTOF (08 R161): lanes 64-127 are written +0. -/
def execVqtof (r : RMode) (m : MReg) (b a d : VReg) (s : State) : Host.Outcome State Fault Refusal :=
  s.vword 6 4 [a, b] [d] (fun s =>
    let mk := s.vm m
    let va := s.vreg a
    let vb := s.vreg b
    let l := convEls mk 64 (s.seeds r (qActive mk)) (fun j seed =>
      convFloat .f32 r true false seed ((FVal.ofInt (sgn 64 (vel va 64 j))).scale (-((vel vb 32 j % 64 : Nat) : Int))))
    let o := vout d 32 (l ++ (upFrom 64 0).map (fun _ => some 0))
    .ok (s.updHere (fun c => c.stepSeed r (qActive mk)), VRes.one o (s.vpoisonAll [a, b]) 4))

/-- The format of VSCLF's elements. -/
def mxEmax : MxFmt → Int
  | .e4m3 => 8 | .e5m2 => 15 | .e2m1 => 2

/-- The larger of two finite magnitudes, as (mantissa, exponent). -/
def FVal.magLt (a b : FVal) : Bool := ltE (a.withSign false) (b.withSign false)

/-- The block scale of a set of values (07 R144). -/
def blockScale (emax : Int) (l : List FVal) : Nat :=
  if l.any (fun v => match v with | .fin _ _ _ => false | _ => true) then 0xFF
  else
    match l.foldl (fun b v => if FVal.magLt b v then v else b) (.zero false) with
    | .fin _ m e => if m = 0 then 0x7F else (max 0 (min 254 (leadExp m e - emax + 127))).toNat
    | _ => 0xFF

/-- VSCLF (08 R162). -/
def execVsclf (m : MReg) (f : MxFmt) (a d : VReg) (s : State) : Host.Outcome State Fault Refusal :=
  s.vpure 7 4 [a] [d] (fun s =>
    let mk := s.vm m
    let va := s.vreg a
    let scale (b : Nat) : Nat :=
      blockScale (mxEmax f) (((upFrom 32 (32 * b)).filter (fun e => mk.getLsbD e)).map
        (fun e => decodeFloat .f32 (vel va 32 e)))
    VRes.one (vout d 8 ((upFrom 512 0).map (fun i => some (if i < 4 then scale i else 0)))) (s.vpoisonAll [a]) 6)

/-- VSCLA (08 R163). -/
def execVscla (m : MReg) (b a d : VReg) (s : State) : Host.Outcome State Fault Refusal :=
  s.vpure 7 4 [a, b] [d] (fun s =>
    let va := s.vreg a
    let vb := s.vreg b
    let f (e : Nat) : Nat :=
      let x := vel vb 8 (e / 32)
      if x = 0xFF then canonNan .f32
      else roundArith .f32 ((decodeFloat .f32 (vel va 32 e)).scale (127 - (x : Int)))
    VRes.one (vout d 32 (activeEls 128 (s.vm m) f)) (s.vpoisonAll [a, b]) 6)

/-! ## Reductions and scans (08 R164, R165, 07 R148) -/

/-- The active elements of a register with their indices. -/
def activeList (fm : VFmt) (m : Mask) (x : Vec) : List (Nat × Nat) :=
  ((upFrom fm.count 0).filter (fun e => m.getLsbD e)).map (fun e => (e, vel x fm.width e))

/-- An element widened exactly to F32; masked-off elements count as +0. -/
def widened (fm : VFmt) (m : Mask) (x : Vec) (e : Nat) : W32 :=
  if m.getLsbD e then BitVec.ofNat 32 (convFloat .f32 .rne true false 0 (decodeFloat fm.fmt (vel x fm.width e))) else 0

/-- The F32 sum of 07 R148. -/
def floatSum (fm : VFmt) (m : Mask) (x : Vec) : W32 :=
  if fm = .f32 then f32Tree ((upFrom 128 0).map (fun e => if m.getLsbD e then BitVec.ofNat 32 (vel x 32 e) else 0))
  else f32Tree ((upFrom 128 0).map (fun l => f32Add (widened fm m x (2 * l)) (widened fm m x (2 * l + 1))))

/-- VREDSUM (08 Table 8.8). -/
def execVredsum (fm : VFmt) (m : MReg) (a : VReg) (d : EReg) (s : State) : Host.Outcome State Fault Refusal :=
  s.vword 8 4 [a] [] (fun s =>
    let mk := s.vm m
    let x := s.vreg a
    let p := s.vpoison a
    let exact : Int := (activeList fm mk x).foldl (fun q y => q + ival fm y.2) 0
    let v : Word :=
      match fm with
      | .f32 | .bf16 | .f16 => (floatSum fm mk x).setWidth 64
      | .u32 => w64 (wrapN 32 exact)
      | .q64 => w64 (wrapN 64 exact)
      | _ => (BitVec.ofNat 32 (wrapN 32 exact)).signExtend 64
    if p &&& activeSegs fm.width fm.count mk ≠ 0 then .error (cPOISON, p.setWidth 64)
    else .ok (s.orQovf (fm == .q64 && !inI64 exact), VRes.scalar d v 12))

/-- The greatest (or least) of the active elements as a register value; `low` is the value of the format's end when
none is active (08 Table 8.8). -/
def redExt (fm : VFmt) (mk : Mask) (x : Vec) (wantMax : Bool) : Word :=
  let l := activeList fm mk x
  if fm.isFloat then
    let v := l.foldl (fun q y =>
      let z := decodeFloat fm.fmt y.2
      if wantMax then maxE q z else minE q z) .nan
    w64 (convFloat fm.fmt .rne true false 0 v)
  else
    let r := intRange (if fm = .q64 then .i64 else fm.fmt)
    let v := l.foldl (fun q y => if wantMax then max q (ival fm y.2) else min q (ival fm y.2))
      (if wantMax then r.1 else r.2)
    w64 (wrapN 64 v)

/-- VREDMAX (08 Table 8.8). -/
def execVredmax (fm : VFmt) (m : MReg) (a : VReg) (d : EReg) (s : State) : Host.Outcome State Fault Refusal :=
  s.vread 8 fm m [a] (fun s => VRes.scalar d (redExt fm (s.vm m) (s.vreg a) true) 12)

/-- VREDMIN (08 Table 8.8). -/
def execVredmin (fm : VFmt) (m : MReg) (a : VReg) (d : EReg) (s : State) : Host.Outcome State Fault Refusal :=
  s.vread 8 fm m [a] (fun s => VRes.scalar d (redExt fm (s.vm m) (s.vreg a) false) 12)

/-- The lowest index among the active elements that attain the maximum or minimum (08 Table 8.8). -/
def argExt (fm : VFmt) (mk : Mask) (x : Vec) (wantMax : Bool) : Word :=
  let best := (activeList fm mk x).foldl (fun (b : Option (Nat × FVal)) y =>
    let v := decodeFmt fm.fmt y.2
    if v.isNan then b
    else
      match b with
      | none => some (y.1, v)
      | some q => if (if wantMax then ltE q.2 v else ltE v q.2) then some (y.1, v) else b) none
  match best with
  | some q => w64 q.1
  | none => BitVec.allOnes 64

/-- VARGMAX (08 Table 8.8). -/
def execVargmax (fm : VFmt) (m : MReg) (a : VReg) (d : EReg) (s : State) : Host.Outcome State Fault Refusal :=
  s.vread 8 fm m [a] (fun s => VRes.scalar d (argExt fm (s.vm m) (s.vreg a) true) 12)

/-- VARGMIN (08 Table 8.8). -/
def execVargmin (fm : VFmt) (m : MReg) (a : VReg) (d : EReg) (s : State) : Host.Outcome State Fault Refusal :=
  s.vread 8 fm m [a] (fun s => VRes.scalar d (argExt fm (s.vm m) (s.vreg a) false) 12)

/-- The prefixes of a scan (08 R165), started from 0: each element's, before (exclusive) or with it, and whether an
exact Q64 prefix leaves the I64 range. On F32 the first prefix is the first element itself (07 R148: y0 = x0, a −0 or a
NaN's bits kept; log 23). -/
def scanFrom (fm : VFmt) (mk : Mask) (x : Vec) (excl : Bool) : List Nat → Nat → Int → List (Option Nat) × Bool
  | [], _, _ => ([], false)
  | e :: r, acc, exact =>
    let on := mk.getLsbD e
    let y := if on then vel x fm.width e else 0
    let acc1 :=
      if fm = .f32 then if e = 0 then y else (f32Add (BitVec.ofNat 32 acc) (BitVec.ofNat 32 y)).toNat
      else (acc + y) % 2 ^ fm.width
    let exact1 := exact + (if fm = .q64 then sgn 64 y else 0)
    let q := scanFrom fm mk x excl r acc1 exact1
    ((if on then some (if excl then acc else acc1) else none) :: q.1, q.2 || !inI64 exact1)

/-- A scan word (08 R165; for F32 in the order of 07 R148, log 23). -/
def State.vscanWord (s : State) (fm : VFmt) (m : MReg) (a d : VReg) (excl : Bool) : Host.Outcome State Fault Refusal :=
  s.vword 9 4 [a] [d] (fun s =>
    let q := scanFrom fm (s.vm m) (s.vreg a) excl (upFrom fm.count 0) 0 0
    .ok (s.orQovf (fm == .q64 && q.2), VRes.one (vout d fm.width q.1) (s.vpoisonAll [a]) 16))

/-- VSCAN (08 R165). -/
def execVscan (fm : VFmt) (m : MReg) (a d : VReg) (s : State) : Host.Outcome State Fault Refusal :=
  s.vscanWord fm m a d false

/-- VSCANX (08 R165). -/
def execVscanx (fm : VFmt) (m : MReg) (a d : VReg) (s : State) : Host.Outcome State Fault Refusal :=
  s.vscanWord fm m a d true

end Sys2Proof.Machine
end

