-- ==== Sys2Proof/Machine/VMove.lean ====
section
/-!
DEFINITION. Data movement of the V stream: permutes, masks, scratchpad and accumulator access, the merge unit, stream
binding (08 R166-R179).
-/

namespace Sys2Proof.Machine

open Sys2Proof

/-! ## Permutes (08 R166) -/

/-- VPERM (08 Table 8.9). -/
def execVperm (m : MReg) (b a d : VReg) (s : State) : Host.Outcome State Fault Refusal :=
  s.vpure 10 4 [a, b] [d] (fun s =>
    let x := s.vreg a
    let i := s.vreg b
    VRes.one (vout d 32 (activeEls 128 (s.vm m) (fun e => vel x 32 (vel i 32 e % 128)))) (s.vpoisonAll [a, b]) 6)

/-- VSLDU (08 Table 8.9). -/
def execVsldu (f : VFmt) (m : MReg) (b a d : VReg) (s : State) : Host.Outcome State Fault Refusal :=
  s.vpure 10 4 [a, b] [d] (fun s =>
    let x := s.vreg a
    let n0 := vel (s.vreg b) 16 0
    VRes.one (vout d f.width (activeEls f.count (s.vm m) (fun e => if n0 ≤ e then vel x f.width (e - n0) else 0)))
      (s.vpoisonAll [a, b]) 4)

/-- VSLDD (08 Table 8.9). -/
def execVsldd (f : VFmt) (m : MReg) (b a d : VReg) (s : State) : Host.Outcome State Fault Refusal :=
  s.vpure 10 4 [a, b] [d] (fun s =>
    let x := s.vreg a
    let n0 := vel (s.vreg b) 16 0
    VRes.one (vout d f.width (activeEls f.count (s.vm m)
      (fun e => if e + n0 < f.count then vel x f.width (e + n0) else 0))) (s.vpoisonAll [a, b]) 4)

/-- VBCST (08 Table 8.9). -/
def execVbcst (f : VFmt) (m : MReg) (a : EReg) (d : VReg) (s : State) : Host.Outcome State Fault Refusal :=
  s.vpure 10 4 [] [d] (fun s =>
    let x := (s.sr a).toNat % 2 ^ f.width
    VRes.one (vout d f.width (activeEls f.count (s.vm m) (fun _ => x))) 0 3)

/-- VSEL (08 Table 8.9): every element is written. -/
def execVsel (f : VFmt) (m : MReg) (b a d : VReg) (s : State) : Host.Outcome State Fault Refusal :=
  s.vpure 10 4 [a, b] [d] (fun s =>
    let x := s.vreg a
    let y := s.vreg b
    let mk := s.vm m
    let l := (upFrom f.count 0).map (fun e => some (if mk.getLsbD e then vel x f.width e else vel y f.width e))
    VRes.one (vout d f.width l) (s.vpoison a ||| s.vpoison b) 2)

/-- VCMPRS (08 Table 8.9): every element is written. -/
def execVcmprs (f : VFmt) (m : MReg) (a d : VReg) (s : State) : Host.Outcome State Fault Refusal :=
  s.vpure 10 4 [a] [d] (fun s =>
    let l := (activeList f (s.vm m) (s.vreg a)).map (fun x => some x.2)
    VRes.one (vout d f.width (l ++ (upFrom (f.count - l.length) 0).map (fun _ => some 0))) (s.vpoisonAll [a]) 6)

/-- The elements of VEXPND: the i-th active position takes element i. -/
def expandEls (f : VFmt) (mk : Mask) (x : Vec) : List Nat → Nat → List (Option Nat)
  | [], _ => []
  | e :: r, i =>
    if mk.getLsbD e then some (vel x f.width i) :: expandEls f mk x r (i + 1) else none :: expandEls f mk x r i

/-- VEXPND (08 Table 8.9). -/
def execVexpnd (f : VFmt) (m : MReg) (a d : VReg) (s : State) : Host.Outcome State Fault Refusal :=
  s.vpure 10 4 [a] [d] (fun s =>
    VRes.one (vout d f.width (expandEls f (s.vm m) (s.vreg a) (upFrom f.count 0) 0)) (s.vpoisonAll [a]) 6)

/-- VMOV of `len` bytes. -/
def State.vmovWord (s : State) (f : VFmt) (m : MReg) (a d : VReg) (len : Nat) : Host.Outcome State Fault Refusal :=
  s.lanewise 10 len 2 1 f m [a] a a d (fun x _ _ => x)

/-- VMOV (08 Table 8.9). -/
def execVmov (f : VFmt) (m : MReg) (a d : VReg) (s : State) : Host.Outcome State Fault Refusal := s.vmovWord f m a d 4

/-- Compact VMOV: F32, m0 (05 Table 5.13). -/
def execVmovC16 (d a : Fin 8) (s : State) : Host.Outcome State Fault Refusal :=
  s.vmovWord .f32 0 (Fin.ofNat 32 a.val) (Fin.ofNat 32 d.val) 2

/-! ## Masks (08 R167) -/

/-- The low bits of a mask that a format's elements use. -/
def lowBits (f : VFmt) (x : Mask) : Mask := x &&& BitVec.ofNat 512 (2 ^ f.count - 1)

/-- MAND (08 R167). -/
def execMand (f : VFmt) (b a d : MReg) (s : State) : Host.Outcome State Fault Refusal :=
  s.vpure 11 4 [] [] (fun s => VRes.mask d (lowBits f (s.vm a &&& s.vm b)) 2)

/-- MOR (08 R167). -/
def execMor (f : VFmt) (b a d : MReg) (s : State) : Host.Outcome State Fault Refusal :=
  s.vpure 11 4 [] [] (fun s => VRes.mask d (lowBits f (s.vm a ||| s.vm b)) 2)

/-- MXOR (08 R167). -/
def execMxor (f : VFmt) (b a d : MReg) (s : State) : Host.Outcome State Fault Refusal :=
  s.vpure 11 4 [] [] (fun s => VRes.mask d (lowBits f (s.vm a ^^^ s.vm b)) 2)

/-- MNOT (08 R167). -/
def execMnot (f : VFmt) (a d : MReg) (s : State) : Host.Outcome State Fault Refusal :=
  s.vpure 11 4 [] [] (fun s => VRes.mask d (lowBits f (~~~ (s.vm a))) 2)

/-- MPOP (08 R167). -/
def execMpop (f : VFmt) (a : MReg) (d : EReg) (s : State) : Host.Outcome State Fault Refusal :=
  s.vpure 11 4 [] [] (fun s =>
    let x := s.vm a
    VRes.scalar d (w64 ((upFrom f.count 0).filter (fun e => x.getLsbD e)).length) 3)

/-- MSET (08 R167). -/
def execMset (f : VFmt) (a : EReg) (d : MReg) (s : State) : Host.Outcome State Fault Refusal :=
  s.vpure 11 4 [] [] (fun s => VRes.mask d (BitVec.ofNat 512 (2 ^ min (s.sr a).toNat f.count - 1)) 2)

/-- MFIRST (08 R167). -/
def execMfirst (f : VFmt) (a : MReg) (d : EReg) (s : State) : Host.Outcome State Fault Refusal :=
  s.vpure 11 4 [] [] (fun s =>
    let x := s.vm a
    VRes.scalar d
      (match (upFrom f.count 0).find? (fun e => x.getLsbD e) with
        | some e => w64 e
        | none => BitVec.allOnes 64) 3)

/-! ## Scratchpad vector memory (08 R168-R171) -/

/-- The first failing active lane of a VMEM word, with its trap (08 R169). -/
def laneFault (lanes : List (Nat × Word)) : Option (Nat × Word) :=
  (lanes.find? (fun x => fld x.2 1 0 != 0 || Config.hwArea < x.2.toNat + 4)).map
    (fun x => (if fld x.2 1 0 ≠ 0 then cALIGN else cAPERTURE, x.2))

/-- The active lanes with their addresses. -/
def activeLanes (m : Mask) (addr : Nat → Word) : List (Nat × Word) :=
  ((upFrom 128 0).filter (fun i => m.getLsbD i)).map (fun i => (i, addr i))

/-- A load of the active lanes (08 R168, R170). -/
def State.vload (s : State) (m : MReg) (addr : Nat → Word) (d : VReg) (bound interval : Nat) :
    Except (Nat × Word) (State × VRes) :=
  let mk := s.vm m
  let lanes := activeLanes mk addr
  match laneFault lanes with
  | some t => .error t
  | none =>
    let p := s.here.spad
    let o := vout d 32 (activeEls 128 mk (fun i => p.read (addr i).toNat 4))
    let bad := segSet (fun g => lanes.any (fun x => x.1 / 16 == g && p.bad x.2.toNat 4))
    .ok (s, { VRes.one o bad bound with interval := interval })

/-- A store of the active lanes (08 R168, R170): later lanes over earlier ones. -/
def State.vstore (s : State) (m : MReg) (addr : Nat → Word) (v : VReg) (bound interval : Nat) :
    Except (Nat × Word) (State × VRes) :=
  let mk := s.vm m
  let lanes := activeLanes mk addr
  match laneFault lanes with
  | some t => .error t
  | none =>
    let x := s.vreg v
    let p := s.vpoison v
    let l : VStore := lanes.flatMap (fun y =>
      (upFrom 4 0).map (fun i => (y.2.toNat + i, BitVec.ofNat 8 (vel x 8 (4 * y.1 + i)), p.getLsbD (y.1 / 16))))
    .ok (s.updHere (fun c => { c with spad := c.spad.storeBytes l }), VRes.nothing bound interval)

/-- A VLD or VST address that is no multiple of 16 traps when a lane is active (08 R169; the detail is the shared
address a, log 24). -/
def State.vaddrOk (s : State) (m : MReg) (a : Word) : Bool := fld a 3 0 == 0 || s.vm m &&& BitVec.ofNat 512 (2 ^ 128 - 1) == 0

/-- VLD of `len` bytes. -/
def State.vldWord (s : State) (a : Word) (m : MReg) (v : VReg) (len : Nat) : Host.Outcome State Fault Refusal :=
  s.vword 12 len [] [v] (fun s =>
    if s.vaddrOk m a then s.vload m (fun i => a + w64 (4 * i)) v 8 1 else .error (cALIGN, a))

/-- VST of `len` bytes. -/
def State.vstWord (s : State) (a : Word) (m : MReg) (v : VReg) (len : Nat) : Host.Outcome State Fault Refusal :=
  s.vword 12 len [v] [] (fun s =>
    if s.vaddrOk m a then s.vstore m (fun i => a + w64 (4 * i)) v 8 1 else .error (cALIGN, a))

/-- VLD (08 R168). -/
def execVld (i : BitVec 9) (m : MReg) (e : EReg) (v : VReg) (s : State) : Host.Outcome State Fault Refusal :=
  let t := s.vfree 12
  t.vldWord (t.sr e + i.signExtend 64 * 16) m v 4

/-- VST (08 R168). -/
def execVst (i : BitVec 9) (m : MReg) (e : EReg) (v : VReg) (s : State) : Host.Outcome State Fault Refusal :=
  let t := s.vfree 12
  t.vstWord (t.sr e + i.signExtend 64 * 16) m v 4

/-- Compact VLD (05 Table 5.13). -/
def execVldC16 (d a : Fin 8) (i : BitVec 5) (s : State) : Host.Outcome State Fault Refusal :=
  let t := s.vfree 12
  t.vldWord (t.sr (lowSReg a) + i.setWidth 64 * 16) 0 (Fin.ofNat 32 d.val) 2

/-- Compact VST (05 Table 5.13). -/
def execVstC16 (d a : Fin 8) (i : BitVec 5) (s : State) : Host.Outcome State Fault Refusal :=
  let t := s.vfree 12
  t.vstWord (t.sr (lowSReg a) + i.setWidth 64 * 16) 0 (Fin.ofNat 32 d.val) 2

/-- VLDS (08 R168). -/
def execVlds (es : EReg) (m : MReg) (e : EReg) (v : VReg) (s : State) : Host.Outcome State Fault Refusal :=
  s.vword 12 4 [] [v] (fun s => s.vload m (fun i => s.sr e + w64 i * s.sr es) v 40 32)

/-- VSTS (08 R168). -/
def execVsts (es : EReg) (m : MReg) (e : EReg) (v : VReg) (s : State) : Host.Outcome State Fault Refusal :=
  s.vword 12 4 [v] [] (fun s => s.vstore m (fun i => s.sr e + w64 i * s.sr es) v 40 32)

/-- The index register of VLDX and VSTX: v0-v15. -/
def idxReg (x : Fin 16) : VReg := Fin.ofNat 32 x.val

/-- VLDX (08 R168). -/
def execVldx (x : Fin 16) (m : MReg) (e : EReg) (v : VReg) (s : State) : Host.Outcome State Fault Refusal :=
  s.vword 12 4 [idxReg x] [v] (fun s => s.vload m (fun i => s.sr e + w64 (vel (s.vreg (idxReg x)) 32 i)) v 40 32)

/-- VSTX (08 R168). -/
def execVstx (x : Fin 16) (m : MReg) (e : EReg) (v : VReg) (s : State) : Host.Outcome State Fault Refusal :=
  s.vword 12 4 [v, idxReg x] [] (fun s => s.vstore m (fun i => s.sr e + w64 (vel (s.vreg (idxReg x)) 32 i)) v 40 32)

/-! ## Accumulator access (08 R172) -/

/-- A row of a tile. -/
def Tile.row (t : Tile) (i : Nat) : BitVec 2048 := t.rows[Fin.ofNat 64 i]

/-! ## The merge unit (08 R174-R176) -/

/-- How a merge stands: consumed elements of A and B, steps, and the pairs put out, newest first. -/
structure Merge where
  i : Nat
  j : Nat
  steps : Nat
  out : List (Nat × Nat)
  deriving DecidableEq, Repr

/-- The index that ends a list. -/
abbrev mrgEnd : Nat := 0xFFFFFFFF

/-- One step after another of the sorted union (08 R174). -/
def mergeRun (f32 dz : Bool) (ia xa ib xb : Vec) : Nat → Merge → Merge
  | 0, q => q
  | fuel + 1, q =>
    if 128 ≤ q.out.length then q
    else
      let x := if q.i < 128 then vel ia 32 q.i else mrgEnd
      let y := if q.j < 128 then vel ib 32 q.j else mrgEnd
      if x = mrgEnd ∧ y = mrgEnd then q
      else
        let a := BitVec.ofNat 32 (vel xa 32 q.i)
        let b := BitVec.ofNat 32 (vel xb 32 q.j)
        let idx := min x y
        let val : W32 :=
          if x = y then (if f32 then f32Add a b else a + b) else if x < y then a else b
        let isZero := if f32 then val.toNat % 2 ^ 31 = 0 else val = 0
        let q1 : Merge :=
          { i := if x ≤ y then q.i + 1 else q.i
            j := if y ≤ x then q.j + 1 else q.j
            steps := q.steps + 1
            out := if dz ∧ isZero then q.out else (idx, val.toNat) :: q.out }
        mergeRun f32 dz ia xa ib xb fuel q1

/-- The register after a register of a pair. -/
def pairOf (r : VReg) : VReg := r + 1

/-- The merge of two register pairs. -/
def State.merge (s : State) (f : VFmt) (dz : Bool) (b a : VReg) : Merge :=
  mergeRun (f == .f32) dz (s.vreg a) (s.vreg (pairOf a)) (s.vreg b) (s.vreg (pairOf b)) 257
    { i := 0, j := 0, steps := 0, out := [] }

/-- CCLK that a merge takes (08 R176): 6 + steps, or 262 under Umbra. -/
def State.mergeTime (s : State) (q : Merge) : Nat := if s.myLaunch.umbra then 262 else min (6 + q.steps) 262

/-- The registers of two pairs. -/
def mergeSrcs (b a : VReg) : List VReg := [a, pairOf a, b, pairOf b]

/-- VMRG.KZ or VMRG.DZ (08 R174). -/
def State.vmrg (s : State) (f : VFmt) (dz : Bool) (b a d : VReg) : Host.Outcome State Fault Refusal :=
  s.vpure 14 4 (mergeSrcs b a) [d, pairOf d] (fun s =>
    let q := s.merge f dz b a
    let l := q.out.reverse
    let pad := upFrom (128 - l.length) 0
    { outs :=
        [vout d 32 (l.map (fun x => some x.1) ++ pad.map (fun _ => some mrgEnd)),
         vout (pairOf d) 32 (l.map (fun x => some x.2) ++ pad.map (fun _ => some 0))]
      poison := s.vpoisonAll (mergeSrcs b a)
      e := none
      m := none
      bound := s.mergeTime q
      interval := s.mergeTime q })

/-- VMRG.KZ (08 R174). -/
def execVmrgKz (f : VFmt) (b a d : VReg) (s : State) : Host.Outcome State Fault Refusal := s.vmrg f false b a d

/-- VMRG.DZ (08 R174). -/
def execVmrgDz (f : VFmt) (b a d : VReg) (s : State) : Host.Outcome State Fault Refusal := s.vmrg f true b a d

/-- VMRGC (08 R175): POISON when any segment of its sources is poisoned (08 R154). -/
def execVmrgc (f : VFmt) (b a : VReg) (z : Bool) (d : EReg) (s : State) : Host.Outcome State Fault Refusal :=
  s.vword 14 4 (mergeSrcs b a) [] (fun s =>
    let p := (mergeSrcs b a).foldl (fun q r => q ||| s.vpoison r) 0
    let q := s.merge f z b a
    if p ≠ 0 then .error (cPOISON, p.setWidth 64)
    else
      .ok (s, { VRes.scalar d (w64 (q.i + 2 ^ 16 * q.j + 2 ^ 32 * q.out.length)) (s.mergeTime q) with
        interval := s.mergeTime q }))

/-! ## Stream binding (08 R177-R179) -/

/-- The fields of a stream descriptor (08 Table 8.10). -/
structure StreamDesc where
  base : Nat
  stride : Int
  count : Nat
  flags : Nat
  counter : Nat
  reserved : Nat
  deriving DecidableEq, Repr

/-- The descriptor at an offset. -/
def Spad.streamDesc (p : Spad) (off : Nat) : StreamDesc where
  base := p.read off 8
  stride := sgn 64 (p.read (off + 8) 8)
  count := p.read (off + 16) 4
  flags := p.read (off + 20) 2
  counter := p.read (off + 22) 1
  reserved := p.read (off + 23) 9

/-- A vector at an offset lies in the program's area. -/
def vectorIn (a : Int) : Bool := 0 ≤ a && a + 512 ≤ (Config.hwArea : Int)

/-- The byte offset of the first field that fails (08 R177); the last vector's address belongs to no single field. -/
def StreamDesc.bad (d : StreamDesc) : Option Nat :=
  if 2 ^ 20 ≤ d.base ∨ d.base % 16 ≠ 0 ∨ !vectorIn d.base then some 0
  else if d.stride % 16 ≠ 0 then some 8
  else if d.count = 0 ∨ 1048576 < d.count then some 16
  else if 4 ≤ d.flags ∨ d.flags = 2 then some 20
  else if 32 ≤ d.counter then some 22
  else if d.reserved ≠ 0 then some 23
  else none

/-- VSTRM (08 R177). A descriptor outside the program's area traps with APERTURE (log 25); where R177 states no detail,
the detail is free. -/
def execVstrm (a : EReg) (d : VReg) (s : State) : Host.Outcome State Fault Refusal :=
  s.vword 15 4 [] [] (fun s =>
    let x := s.sr a
    let q := s.here.spad.streamDesc x.toNat
    if fld x 3 0 ≠ 0 then .error (cSTREAM, Config.freeWord (s.draw 202))
    else if Config.hwArea < x.toNat + 32 then .error (cAPERTURE, x)
    else
      match q.bad with
      | some f => .error (cSTREAM, w64 f)
      | none =>
        if !vectorIn (q.base + (q.count - 1 : Nat) * q.stride) then .error (cSTREAM, Config.freeWord (s.draw 203))
        else if (s.bind d).isSome then .error (cSTREAM, 0x20)
        else
          let b : Binding :=
            { base := q.base
              stride := q.stride
              count := q.count
              write := q.flags % 2 = 1
              counter := if q.flags / 2 % 2 = 1 then some (Fin.ofNat 32 q.counter) else none
              pos := 0
              fetched := [] }
          .ok (s.updHere (fun c => { c with v := { c.v with binds := c.v.binds.put d.val b } }), VRes.nothing 4 1))

/-- VSTRMX (08 R179): for a write stream it waits until the words that issued have completed. -/
def execVstrmx (d : VReg) (s : State) : Host.Outcome State Fault Refusal :=
  match s.bind d with
  | none => .next (s.etrap cSTREAM (Config.freeWord (s.draw 204)))
  | some b =>
    if b.write && !s.eng.drained then .next (s.estall .strm)
    else
      .next ((s.updHere (fun c => { c with v := { c.v with binds := c.v.binds.del d.val } })).eissue 4 0 [])

end Sys2Proof.Machine
end

