-- ==== Sys2Proof/Machine/MOps.lean ====
section
/-!
DEFINITION. What M words share: MCONF, operand tiles and their checks, exact accumulation, tiles, the array's order (07
R145-R147, 09 R181-R187).
-/

namespace Sys2Proof.Machine

open Sys2Proof

/-! ## MCONF (09 R182) -/

/-- A format's code read from a field. -/
def fmtAt (n : Nat) : Fmt := (Fmt.ofCode? n).getD .f32

/-- The A format. -/
def confA (c : Word) : Fmt := fmtAt (fld c 3 0)
/-- The B format. -/
def confB (c : Word) : Fmt := fmtAt (fld c 7 4)
/-- Block scales are in use. -/
def confMx (c : Word) : Bool := c.getLsbD 8
/-- The accumulator is I32. -/
def confI32 (c : Word) : Bool := fld c 3 0 == 10

/-- A format code of the FP8 formats. -/
def isF8 (n : Nat) : Bool := n == 3 || n == 4

/-- A value that MCFG accepts (09 Table 9.2). -/
def confOk (c : Word) : Bool :=
  let a := fld c 3 0
  let b := fld c 7 4
  fld c 63 22 == 0 && fld c 15 9 == 0 &&
  ((a == b && (a == 0 || a == 1 || a == 2 || a == 5 || a == 10)) || (isF8 a && isF8 b)) &&
  (!confMx c || ((isF8 a || a == 5) && (isF8 b || b == 5)))

/-- Elements of a k-group (09 R181). -/
def groupSize (f : Fmt) : Nat :=
  match f with
  | .e2m1 => 8
  | .e4m3 | .e5m2 | .i8 => 4
  | .bf16 | .f16 => 2
  | _ => 1

/-! ## Operand tiles (09 R183) -/

/-- Bytes of `rows` rows of `k` elements, with their scales. -/
def tileBytes (f : Fmt) (mx : Bool) (rows k : Nat) : Nat := rows * k * f.width / 8 + (if mx then rows * k / 32 else 0)

/-- An element as a matrix operand: its sign and its value, flushed (07 R134, R145). -/
def matVal (f : Fmt) (x : Nat) : Bool × FVal :=
  if f = .i8 then (false, decodeFmt f x) else (decide (x / 2 ^ (f.width - 1) % 2 = 1), operand f x)

/-- The elements of one row of a tile at an offset. -/
def Spad.matRow (p : Spad) (f : Fmt) (off k : Nat) : List (Bool × FVal) :=
  let x := p.read off (k * f.width / 8)
  (upFrom k 0).map (fun e => matVal f (x / 2 ^ (f.width * e) % 2 ^ f.width))

/-- A row of an operand with its block scales. -/
abbrev MatRow := List (Bool × FVal) × List Nat

/-- Rows of a tile at an offset: row i, with its scales when they are in use. -/
def Spad.tileRows (p : Spad) (f : Fmt) (mx : Bool) (off rows k : Nat) : List MatRow :=
  let rb := k * f.width / 8
  (upFrom rows 0).map (fun i =>
    (p.matRow f (off + i * rb) k,
      if mx then (upFrom (k / 32) 0).map (fun q => p.read (off + rows * rb + i * (k / 32) + q) 1) else []))

/-- The poison of each row of an A tile (09 R187). -/
def Spad.tilePoison (p : Spad) (f : Fmt) (mx : Bool) (off rows k : Nat) : List Bool :=
  let rb := k * f.width / 8
  (upFrom rows 0).map (fun i =>
    p.bad (off + i * rb) rb || (mx && p.bad (off + rows * rb + i * (k / 32)) (k / 32)))

/-! ## Accumulation (07 R145, R146) -/

/-- A product: a zero factor gives the zero of the exclusive OR of the signs. -/
def prodE (a b : Bool × FVal) : FVal := if a.2.isZero || b.2.isZero then .zero (a.1 != b.1) else mulE a.2 b.2

/-- The exact sum of a group. -/
def sumE : List FVal → FVal
  | [] => .zero false
  | x :: r => r.foldl addE x

/-- The integer that an exact value stands for. -/
def FVal.int : FVal → Int
  | .fin s m e => if s then -((m * 2 ^ e.toNat : Nat) : Int) else (m * 2 ^ e.toNat : Nat)
  | _ => 0

/-- Add a group's sum to an accumulator element. -/
def accStep (i32 : Bool) (z : Nat) (s : FVal) : Nat :=
  if i32 then wrapN 32 ((z : Int) + s.int) else roundArith .f32 (addE (decodeFloat .f32 z) s)

/-- The power of two of the scales at a k, none for a NaN scale. -/
def scaleAt (mx : Bool) (a b : List Nat) (k : Nat) : Option Int :=
  if mx then
    let x := a.getD (k / 32) 0
    let y := b.getD (k / 32) 0
    if x = 255 ∨ y = 255 then none else some ((x : Int) + y - 254)
  else some 0

/-- Accumulate products group by group, `n` groups from `k` on. -/
def accRun (i32 : Bool) (g : Nat) (sc : Nat → Option Int) : Nat → Nat → List FVal → Nat → Nat
  | 0, _, _, z => z
  | n + 1, k, l, z =>
    let s := match sc k with
      | some x => (sumE (l.take g)).scale x
      | none => .nan
    accRun i32 g sc n (k + g) (l.drop g) (accStep i32 z s)

/-- One output element (07 R146). -/
def accumulate (conf : Word) (k z : Nat) (a b : MatRow) : Nat :=
  let g := groupSize (confA conf)
  accRun (confI32 conf) g (scaleAt (confMx conf) a.2 b.2) (k / g) 0 (List.zipWith prodE a.1 b.1) z

/-! ## Tiles -/

/-- Element [i][j] of a tile. -/
def Tile.el (t : Tile) (i j : Nat) : Nat := (t.row i).toNat / 2 ^ (32 * j) % 2 ^ 32

/-- Set a row of a tile from its 64 elements, with its poison bit. -/
def Tile.setRow (t : Tile) (i : Nat) (l : List Nat) (bad : Bool) : Tile where
  rows := t.rows.set (Fin.ofNat 64 i) (BitVec.ofNat 2048 (packEls 32 l))
  poison := if bad then t.poison ||| BitVec.ofNat 64 (2 ^ i) else t.poison &&& ~~~ (BitVec.ofNat 64 (2 ^ i))

/-- Rows of a tile from `row0` on accumulate the products of rows of A with all rows of B (09 R189, R194), element [i][j]
those of the first `depth i j` elements along k. -/
def Tile.productTo (t : Tile) (conf : Word) (depth : Nat → Nat → Nat) (row0 : Nat) (clear : Bool) (a : List MatRow)
    (abad : List Bool) (b : List MatRow) (bbad : Bool) : Tile :=
  ((upFrom a.length 0).zip (a.zip abad)).foldl (fun (q : Tile) x =>
    let i := row0 + x.1
    let l := (upFrom 64 0).zipWith (fun j r => accumulate conf (depth i j) (if clear then 0 else t.el i j) x.2.1 r) b
    q.setRow i l (bbad || x.2.2 || (!clear && t.poison.getLsbD i))) t

/-- As `productTo`, with all of K. -/
def Tile.product (t : Tile) (conf : Word) (k row0 : Nat) (clear : Bool) (a : List MatRow) (abad : List Bool)
    (b : List MatRow) (bbad : Bool) : Tile := t.productTo conf (fun _ _ => k) row0 clear a abad b bbad

/-! ## Checks (09 R184) -/

/-- The quarter of a scratchpad byte (11 R224). -/
def quarter (a : Nat) : Nat := a / 0x40000

/-- The BANKGRP detail (09 Table 9.3); without an A region its fields are 0. -/
def bankDetail (a : Option (Nat × Nat)) (b : Nat × Nat) : Word :=
  let qs := fun (r : Nat × Nat) => quarter r.1 + 4 * quarter (r.1 + r.2 - 1)
  w64 ((match a with | some r => qs r | none => 0) + 16 * qs b)

/-- Regions are (offset, bytes). Both in one quarter each, and not the same one. -/
def banksOk (a : Option (Nat × Nat)) (b : Nat × Nat) : Bool :=
  let one := fun (r : Nat × Nat) => quarter r.1 == quarter (r.1 + r.2 - 1)
  one b && match a with
    | some r => one r && quarter r.1 != quarter b.1
    | none => true

/-- Checks 3 to 5 of R184 for an A region, which may be empty or absent, and a B region. -/
def checkRegions (a : Option (Nat × Nat)) (b : Nat × Nat) : Option (Nat × Word) :=
  let full := a.filter (fun r => r.2 != 0)
  let out := fun (r : Nat × Nat) => Config.hwArea < r.1 + r.2
  if a.any (fun r => r.1 % 16 != 0) then some (cALIGN, w64 ((a.getD (0, 0)).1))
  else if b.1 % 16 ≠ 0 then some (cALIGN, w64 b.1)
  else if full.any out then some (cAPERTURE, w64 ((full.getD (0, 0)).1))
  else if out b then some (cAPERTURE, w64 b.1)
  else if !banksOk full b then some (cBANKGRP, bankDetail full b)
  else none

/-- Check 2 of R184. -/
def depthOk (k : Word) : Bool := k.toNat % 32 == 0 && 32 ≤ k.toNat && k.toNat ≤ 4096

/-- Checks 1 and 2 of R184. -/
def checkDepth (permitted : Bool) (conf k : Word) : Option (Nat × Word) :=
  if !permitted then some (cILLEGAL, conf) else if !depthOk k then some (cILLEGAL, k) else none

/-- The checks of R184. -/
def checkOperands (permitted : Bool) (conf k : Word) (a : Option (Nat × Nat)) (b : Nat × Nat) : Option (Nat × Word) :=
  match checkDepth permitted conf k with
  | some t => some t
  | none => checkRegions a b

/-! ## The array (09 R185, R186) -/

/-- An array word runs in parts (09 R193, 10 R208). -/
def ArrWord.inParts : ArrWord → Bool
  | .mmg _ _ _ _ _ _ _ => true
  | .mmas _ _ _ _ _ _ _ _ _ _ => true
  | _ => false

/-- The tile that an array word writes. -/
def ArrWord.target : ArrWord → Option ZReg
  | .mma z _ _ _ _ _ => some z
  | .mmac z _ _ _ _ _ _ _ _ _ => some z
  | .mma24 z _ _ _ _ _ _ => some z
  | .mzero z => some z
  | .mzld z _ => some z
  | .mxpMov z _ => some z
  | .mxpTrn z _ => some z
  | .mxpAdd z _ _ => some z
  | .mzpoiWr z _ => some z
  | .mzpoiOr z _ => some z
  | .mmg z _ _ _ _ _ _ => some z
  | .mmas z _ _ _ _ _ _ _ _ _ => some z
  | .mzst _ _ => none
  | .failed _ => none

/-- The array word in execution. -/
def MUnit.word? (m : MUnit) : Option ArrWord := m.arr.map (fun x => x.word)

/-- An array word that runs in parts is in the array. -/
def MUnit.running (m : MUnit) : Bool := m.arr.any (fun x => x.word.inParts)

/-- A scratchpad as an array word reads it: every aligned unit of 4 bytes, and the poison of every sector, as it was at
some moment since the word began (09 R186). -/
def Spad.mixed (p : Spad) (past : List Spad) (draw : Nat) : Spad :=
  match past.filter (fun q => q != p) with
  | [] => p
  | q :: l =>
    let at_ (i : Nat) : Spad := (p :: q :: l).getD (Config.pick draw 5 i % (l.length + 2)) p
    let units := ((p :: q :: l).flatMap (fun x => x.bytes.map (fun c => c.1 / 4))).eraseDups
    let sectors := ((p :: q :: l).flatMap (·.poison)).eraseDups
    { p with
      bytes := units.foldl (fun m u => Mem.writeBytes m (4 * u) (Mem.readBytes (at_ u).bytes 4 (4 * u))) p.bytes
      poison := sectors.foldl (fun m i => setTo m i ((at_ (2 ^ 20 + i)).poison.contains i)) p.poison }

/-- The scratchpad of a cell as its array word reads it. -/
def State.arrSpad (s : State) (c : Nat) (x : ArrExec) : Spad := (s.cell c).spad.mixed x.past s.fresh

/-- An array word of `len` bytes that is performed at issue: its array time, its bound, the q register it writes. -/
def State.arrIssue (s : State) (len time bound : Nat) (dests : List Dest) : State :=
  (s.updHere (fun c =>
    { c with m := { c.m with arrFree := c.m.eng.clk + time, issued := c.m.issued + 1, arr := none } })).eissue len bound
    dests

/-- An array word of `len` bytes begins: it is in execution, for its array time, and completes within its bound. -/
def State.arrBegin (s : State) (w : ArrWord) (len time bound : Nat) : State :=
  (s.updHere (fun c =>
    { c with m := { c.m with
      arrFree := c.m.eng.clk + time
      issued := c.m.issued + 1
      arr := some
        { word := w, seq := c.m.issued + 1, began := c.m.eng.clk, past := [], base := none, raced := 0 } } })).eissue len
    bound [if w.inParts then .part else .arr (s.here.m.issued + 1)]

/-- The flight of the array word that runs in parts. -/
def Engine.partFlight (e : Engine) : Option Nat :=
  e.flights.findIdx? (fun f => match f with | .word _ ds _ _ => ds.contains .part | .skinc _ _ _ _ => false)

/-- The array word of a cell leaves the array: one that has completed with its produce; the array is free from a CCLK on. -/
def State.arrEnd (s : State) (c : Nat) (left : Option ArrWord) (completed : Bool) (free : Nat) : State :=
  let e := (s.cell c).m.eng
  match e.partFlight with
  | some i =>
    let prod := match e.flights[i]? with
      | some (.word _ _ p _) => if completed then p else none
      | _ => none
    let s1 := s.updCell c (fun x =>
      { x with m := { x.m with
        arr := left.bind (fun w => x.m.arr.map (fun y => { y with word := w }))
        arrFree := max x.m.arrFree free
        eng := { x.m.eng with flights := x.m.eng.flights.eraseIdx i } } })
    (s1.produce c .m prod).retireSkincs c .m 64
  | none => s

/-- A tile that holds, in the elements that VSTZ has written since an array word began, either what VSTZ wrote or the
word's result (08 R173). -/
def Tile.raceWith (cur r : Tile) (mask : BitVec 4096) (draw : Nat) : Tile :=
  if mask = 0 then r
  else
    let mine (i j : Nat) : Bool := mask.getLsbD (64 * i + j) && Config.pick draw 6 (64 * i + j) % 2 = 0
    (upFrom 64 0).foldl (fun (q : Tile) i =>
      if (upFrom 64 0).all (fun j => !mask.getLsbD (64 * i + j)) then q
      else q.setRow i ((upFrom 64 0).map (fun j => if mine i j then cur.el i j else r.el i j))
        (if Config.pick draw 6 (4096 + i) % 2 = 0 then cur.poison.getLsbD i else r.poison.getLsbD i)) r

/-- A word in the array has the tile `r`: the tile takes it, and a VLDZ of the V stream that runs may still see the old one
(08 R173). -/
def Cell.putTile (c : Cell) (x : ArrExec) (z : ZReg) (r : Tile) (draw : Nat) : Cell :=
  let old := c.m.z[z]
  { c with
    m := { c.m with
      z := c.m.z.set z (old.raceWith r x.raced draw)
      arr := some { x with base := if x.raced = 0 then none else some r } }
    v := if c.v.eng.run.isNone then c.v else { c.v with eng := { c.v.eng with stale := c.v.eng.stale ++ [(z, old)] } } }

/-- A tile as the array word that works on it has it: without what VSTZ has written since the word began. -/
def Cell.arrTile (c : Cell) (x : ArrExec) (z : ZReg) : Tile := x.base.getD c.m.z[z]

/-- The scratchpad at the end of a step is one that the array word in execution may read (09 R186). -/
def Cell.watch (c : Cell) : Cell :=
  match c.m.arr with
  | some x =>
    if x.past.head? = some c.spad then c else { c with m := { c.m with arr := some { x with past := c.spad :: x.past } } }
  | none => c

/-- Do something as the M stream of a cell. -/
def State.asM (s : State) (c : Nat) (f : State → State) : State :=
  { f { s with cur := { cell := c, slot := 0, stream := .m } } with cur := s.cur }

end Sys2Proof.Machine
end

