-- ==== Sys2Proof/Machine/MArray.lean ====
section
/-!
DEFINITION. Dense and structured products, tile moves, configuration and progress of the M stream (09 R189-R201).
-/

namespace Sys2Proof.Machine

open Sys2Proof

/-! ## Operands (09 R189-R192, R196) -/

/-- A tile to which the product of two operand tiles has been added (09 R189). -/
def Tile.mma (t : Tile) (clear : Bool) (k conf : Word) (pa pb : Spad) (a b : Nat) (depth : Nat → Nat → Nat) : Tile :=
  let n := k.toNat
  let mx := confMx conf
  t.productTo conf depth 0 clear (pa.tileRows (confA conf) mx a 64 n) (pa.tilePoison (confA conf) mx a 64 n)
    (pb.tileRows (confB conf) mx b 64 n) (pb.bad b (tileBytes (confB conf) mx 64 n))

/-- The first group of the metadata with i0 ≥ i1, by row and group. -/
def metaFault (p : Spad) (off k : Nat) : Option (Nat × Nat) :=
  ((upFrom 64 0).findSome? (fun i =>
    let x := p.read (off + i * (k / 8)) (k / 8)
    (upFrom (k / 4) 0).findSome? (fun q =>
      let n := x / 16 ^ q % 16
      if n / 4 ≤ n % 4 then some (i, q) else none)))

/-- A row of a 2:4-compressed tile, expanded: absent elements are +0. -/
def Spad.row24 (p : Spad) (f : Fmt) (voff moff k : Nat) : List (Bool × FVal) :=
  let v := p.read voff (k / 2)
  let m := p.read moff (k / 8)
  (upFrom (k / 4) 0).flatMap (fun q =>
    let n := m / 16 ^ q % 16
    (upFrom 4 0).map (fun e =>
      if e = n % 4 then matVal f (v / 256 ^ (2 * q) % 256)
      else if e = n / 4 then matVal f (v / 256 ^ (2 * q + 1) % 256)
      else (false, .zero false)))

/-- As `Tile.mma`, with a 2:4-compressed A tile (09 R191, R192). -/
def Tile.mma24 (t : Tile) (clear : Bool) (k conf : Word) (p : Spad) (a b : Nat) (depth : Nat → Nat → Nat) : Tile :=
  let n := k.toNat
  let moff := a + 32 * n
  let rows := (upFrom 64 0).map (fun i => (p.row24 (confA conf) (a + i * (n / 2)) (moff + i * (n / 8)) n, ([] : List Nat)))
  let bad := (upFrom 64 0).map (fun i => p.bad (a + i * (n / 2)) (n / 2) || p.bad (moff + i * (n / 8)) (n / 8))
  t.productTo conf depth 0 clear rows bad (p.tileRows (confB conf) false b 64 n) (p.bad b (tileBytes (confB conf) false 64 n))

/-- A tile read as raw bits (09 R196). -/
def Spad.tileAt (p : Spad) (off : Nat) : Tile :=
  (upFrom 64 0).foldl (fun (q : Tile) i =>
    let y := p.read (off + 256 * i) 256
    q.setRow i ((upFrom 64 0).map (fun j => y / 2 ^ (32 * j) % 2 ^ 32)) (p.bad (off + 256 * i) 256)) Tile.zero

/-- The transpose of a tile; a poisoned row poisons every row (09 R199). -/
def Tile.trn (t : Tile) : Tile :=
  (upFrom 64 0).foldl (fun (q : Tile) i => q.setRow i ((upFrom 64 0).map (fun j => t.el j i)) (t.poison != 0)) t

/-- The sum of two tiles under a configuration (09 R199). -/
def Tile.add (d t : Tile) (conf : Word) : Tile :=
  (upFrom 64 0).foldl (fun (q : Tile) i =>
    q.setRow i ((upFrom 64 0).map (fun j =>
      if confI32 conf then (d.el i j + t.el i j) % 2 ^ 32
      else (f32Add (BitVec.ofNat 32 (d.el i j)) (BitVec.ofNat 32 (t.el i j))).toNat))
      (d.poison.getLsbD i || t.poison.getLsbD i)) d

/-! ## Performing an array word (09 R185, R186) -/

/-- The tile of an array word that does not run in parts, once it has been performed on tiles `z`, whose target is `t`;
`depth i j` elements along k of a product. -/
def ArrWord.result (w : ArrWord) (pa pb : Spad) (z : Vector Tile 8) (t : Tile) (depth : Nat → Nat → Nat) : Tile :=
  let src (zd zs : ZReg) : Tile := if zs = zd then t else z[zs]
  match w with
  | .mma _ clear k conf a b => t.mma clear k conf pa pb a b depth
  | .mmac _ clear k conf a b _ _ _ _ => t.mma clear k conf pa pb a b depth
  | .mma24 _ clear k conf a b _ => t.mma24 clear k conf pb a b depth
  | .mzero _ => .zero
  | .mzld _ off => pb.tileAt off
  | .mxpMov zd zs => src zd zs
  | .mxpTrn zd zs => (src zd zs).trn
  | .mxpAdd zd zs conf => t.add (src zd zs) conf
  | .mzpoiWr _ v => { t with poison := v }
  | .mzpoiOr _ v => { t with poison := t.poison ||| v }
  | _ => t

/-- Elements along k of a whole product. -/
def ArrWord.depth : ArrWord → Nat
  | .mma _ _ k _ _ _ => k.toNat
  | .mmac _ _ k _ _ _ _ _ _ _ => k.toNat
  | .mma24 _ _ k _ _ _ _ => k.toNat
  | _ => 0

/-- The scratchpad from which an array word of a cell takes A: in a chain the head's, as the first of its cells has read
it (09 R190). -/
def State.aSpad (s : State) (c : Nat) (x : ArrExec) : Spad :=
  match x.word with
  | .mmac _ _ _ _ _ _ _ _ _ (some p) => p
  | .mmac _ _ _ _ _ _ _ head _ none =>
    match (s.cell head).m.arr with
    | some y => s.arrSpad head y
    | none => (s.cell head).spad
  | _ => s.arrSpad c x

/-- A has been read for a chain: its other cells take it as it was read. -/
def State.shareA (s : State) (w : ArrWord) (p : Spad) : State :=
  match w with
  | .mmac _ _ _ _ _ _ chain head n none =>
    (upFrom n head).foldl (fun s d =>
      match (s.cell d).m.arr with
      | some y =>
        match y.word with
        | .mmac z l k conf a b ch h m none =>
          if ch = chain then
            s.updCell d (fun c => { c with m := { c.m with arr := some { y with word := .mmac z l k conf a b ch h m (some p) } } })
          else s
        | _ => s
      | none => s) s
  | _ => s

/-- The array of a cell is empty. -/
def Cell.arrClear (c : Cell) : Cell := { c with m := { c.m with arr := none } }

/-- The array word in execution of a cell, unless it runs in parts, performs its effects. MMA24 checks its metadata first
(09 R192). -/
def State.arrPerform (s : State) (c : Nat) : State :=
  match (s.cell c).m.arr with
  | none => s
  | some x =>
    let trap : Option (Word × Word) := match x.word with
      | .mma24 _ _ k _ a _ word =>
        (metaFault (s.arrSpad c x) (a + 32 * k.toNat) k.toNat).map (fun f => (w64 (f.2 * 65536 + f.1), word))
      | _ => none
    match trap, x.word, x.word.target with
    | some (d, word), _, _ =>
      (s.updCell c (fun y => { y.arrClear with m := { y.arrClear.m with
        eng := { y.m.eng with flights := y.m.eng.flights.filter (fun f => match f with
          | .word _ ds _ _ => !ds.contains (.arr x.seq)
          | .skinc _ _ _ _ => true) } } })).etrapAfter c .m cSPMETA d word
    | none, .mzst bytes cleans, _ =>
      s.updCell c (fun y =>
        let p := y.spad.storeBytes bytes
        { y.arrClear with spad := { p with poison := cleans.foldl setDel p.poison } })
    | none, w, some z =>
      if w.inParts then s
      else
        let pa := s.aSpad c x
        let t := w.result pa (s.arrSpad c x) (s.cell c).m.z ((s.cell c).arrTile x z) (fun _ _ => w.depth)
        ((s.shareA w pa).updCell c (fun y => (y.putTile x z t s.fresh).arrClear))
    | none, _, none => s

/-- Issue an array word: the one before it is performed; it stalls while one that runs in parts is in the array; otherwise
the time that the array is taken passes first. -/
def State.array (s : State) (f : State → State) : Host.Outcome State Fault Refusal :=
  let s1 := s.arrPerform s.cur.cell
  .next (
    if s1.eng.stopped then s1
    else if s1.here.m.running then s1.estall .array
    else f (s1.updHere (fun c =>
      { c with m := { c.m with eng := { c.m.eng with clk := max c.m.eng.clk c.m.arrFree } } })))

/-! ## Words complete (05 R87) -/

/-- The number of the array word that a flight is. -/
def Flight.arr? : Flight → Option Nat
  | .word _ ds _ _ => ds.findSome? (fun d => match d with | .arr n => some n | _ => none)
  | .skinc _ _ _ _ => none

/-- A flight is the word that runs in parts. -/
def Flight.isPart : Flight → Bool
  | .word _ ds _ _ => ds.contains .part
  | .skinc _ _ _ _ => false

/-- The word in flight at a place completes (05 R87); an array word performs its effects; one that runs in parts completes
with its last part. -/
def State.retireAt (s : State) (c : Nat) (st : Stream) (i : Nat) : State :=
  match ((s.cell c).engOf st).flights[i]? with
  | some f =>
    if f.isPart then s
    else
      let mine := st = .m ∧ f.arr?.isSome ∧ ((s.cell c).m.arr.map (·.seq)) = f.arr?
      if mine then
        let s1 := s.arrPerform c
        if (s1.cell c).m.eng.stopped && !(s.cell c).m.eng.stopped then s1 else s1.completeAt c st i
      else s.completeAt c st i
  | none => s

/-- The oldest word that has not completed completes. -/
def State.retireOldest (s : State) (c : Nat) (st : Stream) : State :=
  match ((s.cell c).engOf st).flights.findIdx? (fun f =>
      match f with | .word _ _ _ d => !d && !f.isPart | .skinc _ _ _ _ => false) with
  | some i => s.retireAt c st i
  | none => s

/-- Words whose bound has passed complete (05 R87), oldest first. -/
def State.retireDue (s : State) (c : Nat) (st : Stream) : Nat → State
  | 0 => s
  | fuel + 1 =>
    let e := (s.cell c).engOf st
    match e.flights.findIdx? (fun f =>
        match f with | .word dl _ _ d => dl ≤ e.clk && !d && !f.isPart | .skinc _ _ _ _ => false) with
    | some i => State.retireDue (s.retireAt c st i) c st fuel
    | none =>
      (s.retireSkincs c st 64).updCell c (fun x => x.updEngOf st (fun e =>
        { e with flights := e.flights.filter (fun f => match f with | .word dl _ _ d => !(d && dl ≤ e.clk) | _ => true) }))

/-! ## Dense products (09 R189) -/

/-- MMA of `len` bytes (09 R189). -/
def State.mma (s : State) (clear : Bool) (k bq aq : QReg) (z : ZReg) (len : Nat) : Host.Outcome State Fault Refusal :=
  s.array (fun s =>
    let conf := s.here.m.mconf
    let kv := s.sr k
    let a := (s.sr aq).toNat
    let b := (s.sr bq).toNat
    let mx := confMx conf
    let n := kv.toNat
    match checkOperands true conf kv (some (a, tileBytes (confA conf) mx 64 n)) (b, tileBytes (confB conf) mx 64 n) with
    | some t => s.etrap t.1 t.2
    | none =>
      let time := n / groupSize (confA conf)
      s.arrBegin (.mma z clear kv conf a b) len time (time + 32))

/-- MMA (09 R189). -/
def execMma (l : Bool) (c b : QReg) (z : ZReg) (a : QReg) (s : State) : Host.Outcome State Fault Refusal :=
  s.mma l c b a z 4

/-- Compact MMA: K from q0 (05 Table 5.13, 09 R188). -/
def execMmaC16 (z : ZReg) (a b : QReg) (s : State) : Host.Outcome State Fault Refusal := s.mma false 0 b a z 2

/-- Compact MMA with the clear flag (05 Table 5.13). -/
def execMmaClrC16 (z : ZReg) (a b : QReg) (s : State) : Host.Outcome State Fault Refusal := s.mma true 0 b a z 2

/-! ## Chains (09 R190) -/

/-- MMAC (09 R190): the checks, and the rendezvous; MMAC_CHAIN_START performs it. `n` is the field, one less than the
length of the chain. -/
def execMmac (p n : Fin 4) (l : Bool) (c b : QReg) (z : ZReg) (a : QReg) (s : State) :
    Host.Outcome State Fault Refusal :=
  s.array (fun s =>
    let conf := s.here.m.mconf
    let kv := s.sr c
    let av := (s.sr a).toNat
    let bv := (s.sr b).toNat
    let mx := confMx conf
    let k := kv.toNat
    let ra := if p = 0 then some (av, tileBytes (confA conf) mx 64 k) else none
    let first : Int := (s.here.x : Int) - p.val
    match checkOperands true conf kv ra (bv, tileBytes (confB conf) mx 64 k) with
    | some t => s.etrap t.1 t.2
    | none =>
      if first < 0 ∨ (s.myLaunch.w : Int) ≤ first + n.val then s.etrap cAPERTURE (BitVec.ofInt 64 first)
      else s.estall (.chain (n.val + 1) p.val kv conf l z av bv))

/-- What a cell that waits at a rendezvous sends: (n, p, K, MCONF). -/
def Cell.chainVals (c : Cell) : Option (Nat × Nat × Word × Word) :=
  match c.m.eng.wait with
  | some (.chain n p k conf _ _ _ _) => some (n, p, k, conf)
  | _ => none

/-- What the neighbour of a waiting cell to one side sends it, when the neighbour waits too and its chain reaches the cell:
east of the cell or west of it. -/
def State.chainFrom (s : State) (cell : Nat) (east : Bool) : Option (Nat × Nat × Word × Word) :=
  let d := if east then cell + 1 else cell - 1
  let same := (s.cell d).launch == (s.cell cell).launch && (if east then (s.cell cell).x + 1 == (s.cell d).x else (s.cell d).x + 1 == (s.cell cell).x)
  if same then
    (s.cell d).chainVals.filter (fun o => if east then decide (0 < o.2.1) else decide (o.2.1 + 1 < o.1))
  else none

/-- What a waiting cell has received from a neighbour of its chain that does not match its own values (09 R190). -/
def State.chainClash (s : State) (cell : Nat) (v : Nat × Nat × Word × Word) : Option (Nat × Nat × Word × Word) :=
  let east := if v.2.1 + 1 < v.1 then
      (s.chainFrom cell true).filter (fun o => o != (v.1, v.2.1 + 1, v.2.2.1, v.2.2.2)) else none
  let west := if 0 < v.2.1 then
      (s.chainFrom cell false).filter (fun o => o != (v.1, v.2.1 - 1, v.2.2.1, v.2.2.2)) else none
  east.or west

/-- The word of a waiting cell of a chain begins: the cell at position p starts p CCLK after the chain. -/
def State.chainBegin (s : State) (c chain head start : Nat) : State :=
  match (s.cell c).m.eng.wait with
  | some (.chain n p k conf clear z a b) =>
    let time := (start - (s.cell c).m.eng.clk) + k.toNat / groupSize (confA conf) + p
    let w : ArrWord := .mmac z clear k conf (match (s.cell head).m.eng.wait with
      | some (.chain _ _ _ _ _ _ a0 _) => a0
      | _ => a) b chain head n none
    s.asM c (fun s => s.arrBegin w 4 time (time + 32))
  | _ => s

/-- MMAC_CHAIN_START (09 R190): when every cell of the chain waits at the rendezvous with matching values, the chain
starts, 2 * (n - 1) CCLK after the last has issued; a cell that has received values that do not match its own traps with
STREAM, whose detail holds them in a layout that the spec does not state, and its neighbours go on waiting. -/
def execMmacChainStart (cell : Nat) (s : State) : Host.Outcome State Fault Refusal :=
  match (if s.active cell then (s.cell cell).chainVals else none) with
  | none => .next s
  | some v =>
    match s.chainClash cell v with
    | some o => .next (s.asM cell (fun s => s.etrap cSTREAM (Config.chainDetail o.1 o.2.1 o.2.2.1 o.2.2.2)))
    | none =>
      let head := cell - v.2.1
      let cells := upFrom v.1 head
      let ready := cells.all (fun c =>
        (s.cell c).launch == (s.cell cell).launch &&
        (s.cell c).chainVals == some (v.1, c - head, v.2.2.1, v.2.2.2))
      let start := cells.foldl (fun n c => max n (s.cell c).m.eng.clk) s.now + 2 * (v.1 - 1)
      .next (if ready then (cells.reverse).foldl (fun s c => s.chainBegin c s.nextId head start) s |>.newId else s)

/-! ## Structured products (09 R191, R192) -/

/-- MMA24 (09 R191, R192). -/
def execMma24 (l : Bool) (c b : QReg) (z : ZReg) (a : QReg) (s : State) : Host.Outcome State Fault Refusal :=
  s.array (fun s =>
    let conf := s.here.m.mconf
    let kv := s.sr c
    let av := (s.sr a).toNat
    let bv := (s.sr b).toNat
    let k := kv.toNat
    let permitted := fld conf 3 0 == 3 && isF8 (fld conf 7 4) && !confMx conf
    match checkOperands permitted conf kv (some (av, 40 * k)) (bv, tileBytes (confB conf) false 64 k) with
    | some t => s.etrap t.1 t.2
    | none =>
      let time := k / 8 + max 2 (k / 128)
      s.arrBegin (.mma24 z l kv conf av bv s.epc) 4 time (time + 32))

/-! ## Tile moves (09 R195-R199) -/

/-- MZERO of `len` bytes (09 R195). -/
def State.mzero (s : State) (z : ZReg) (len : Nat) : Host.Outcome State Fault Refusal :=
  s.array (fun s => s.arrBegin (.mzero z) len 2 20)

/-- MZERO (09 R195). -/
def execMzero (z : ZReg) (s : State) : Host.Outcome State Fault Refusal := s.mzero z 4

/-- Compact MZERO (05 Table 5.13). -/
def execMzeroC16 (z : ZReg) (s : State) : Host.Outcome State Fault Refusal := s.mzero z 2

/-- MZLD (09 R196). -/
def execMzld (z : ZReg) (a : QReg) (s : State) : Host.Outcome State Fault Refusal :=
  s.array (fun s =>
    let x := s.sr a
    if fld x 3 0 ≠ 0 then s.etrap cALIGN x
    else if Config.hwArea < x.toNat + 16384 then s.etrap cAPERTURE x
    else s.arrBegin (.mzld z x.toNat) 4 32 56)

/-- The lowest byte of a column map that keeps it from being a permutation of 0-63. -/
def mapFault : List Nat → List Nat → Nat → Option Nat
  | [], _, _ => none
  | b :: r, seen, i => if 64 ≤ b ∨ seen.contains b then some i else mapFault r (b :: seen) (i + 1)

/-- The check of a column map (09 R198). -/
def Spad.checkMap (p : Spad) (x : Word) : Except (Nat × Word) (List Nat) :=
  if fld x 3 0 ≠ 0 then .error (cALIGN, x)
  else if Config.hwArea < x.toNat + 64 then .error (cAPERTURE, x)
  else
    let l := (upFrom 64 0).map (fun j => p.read (x.toNat + j) 1)
    match mapFault l [] 0 with
    | some j => .error (cSPMETA, w64 j)
    | none => .ok l

/-- An accumulator element as the element that MZST stores, and whether it overflows a Q64 (09 R197). -/
def storeEl (i32 : Bool) (binary : Nat) (f : Fmt) (mode : RMode) (novf : Bool) (seed x : Nat) : Nat × Bool :=
  if i32 then (convert f mode novf (isFlushing f) seed (decodeFmt .i32 x), false)
  else if f = .q64 then toQ64 mode seed ((decodeFloat .f32 x).scale (binary : Int))
  else (convert f mode novf (isFlushing f) seed (decodeFloat .f32 x), false)

/-- MZST with the columns that elements go to (09 R197, R198): some of its units of 4 bytes are stored at issue, the others
when it completes (R186). -/
def State.mzst (s : State) (novf : Bool) (mode : RMode) (f : Fmt) (c : QReg) (z : ZReg) (a : QReg) (map : List Nat) : State :=
  let conf := s.here.m.mconf
  let x := s.sr a
  let rb := 64 * f.width / 8
  let stride := if s.sr c = 0 then rb else (s.sr c).toNat
  if confI32 conf ∧ f = .q64 then s.etrap cILLEGAL s.epc
  else if stride < rb then s.etrap cILLEGAL s.epc
  else if fld x 3 0 ≠ 0 then s.etrap cALIGN x
  else if stride % 16 ≠ 0 then s.etrap cALIGN (w64 stride)
  else if Config.hwArea < x.toNat + 63 * stride + rb then s.etrap cAPERTURE x
  else
    let t := s.here.m.z[z]
    let idx := (upFrom 4096 0)
    let act := idx.map (fun _ => true)
    let els := (idx.zip (s.seeds mode act)).map (fun y =>
      storeEl (confI32 conf) (fld conf 21 16) f mode novf y.2 (t.el (y.1 / 64) (y.1 % 64)))
    let rowOf (i : Nat) : Nat :=
      let row := (els.drop (64 * i)).take 64
      (map.zip row).foldl (fun (w : Nat) y => w + y.2.1 * 2 ^ (f.width * y.1)) 0
    let bytes : VStore := (upFrom 64 0).flatMap (fun i =>
      let w := rowOf i
      let bad := t.poison.getLsbD i
      (upFrom rb 0).map (fun e => (x.toNat + i * stride + e, BitVec.ofNat 8 (w / 256 ^ e), bad)))
    let early (e : Nat × Byte × Bool) : Bool := Config.pick s.fresh 4 (e.1 / 4) % 2 = 0
    let s1 := s.updHere (fun c => { c.stepSeed mode act with spad := c.spad.storeBytes (bytes.filter early) })
    (s1.orQovf (els.any (fun y => y.2))).arrBegin
      (.mzst (bytes.filter (fun e => !early e)) ((storeSectors bytes).filter (storeCleans bytes))) 4 64 88

/-- MZST (09 R197). -/
def execMzst (n : Bool) (o : RMode) (f : Fmt) (c : QReg) (z : ZReg) (a : QReg) (s : State) :
    Host.Outcome State Fault Refusal :=
  s.array (fun s => s.mzst n o f c z a (upFrom 64 0))

/-- MZST with a column map (09 R198): the map is read and checked first. -/
def execMzstCmap (n : Bool) (o : RMode) (f : Fmt) (c b : QReg) (z : ZReg) (a : QReg) (s : State) :
    Host.Outcome State Fault Refusal :=
  s.array (fun s =>
    match s.here.spad.checkMap (s.sr b) with
    | .error t => s.etrap t.1 t.2
    | .ok map => s.mzst n o f c z a map)

/-- MXP.MOV (09 R199). -/
def execMxpMov (src z : ZReg) (s : State) : Host.Outcome State Fault Refusal :=
  s.array (fun s => s.arrBegin (.mxpMov z src) 4 64 88)

/-- MXP.TRN (09 R199). -/
def execMxpTrn (src z : ZReg) (s : State) : Host.Outcome State Fault Refusal :=
  s.array (fun s => s.arrBegin (.mxpTrn z src) 4 64 88)

/-- MXP.ADD (09 R199). -/
def execMxpAdd (src z : ZReg) (s : State) : Host.Outcome State Fault Refusal :=
  s.array (fun s => s.arrBegin (.mxpAdd z src s.here.m.mconf) 4 64 88)

/-! ## Row poison, configuration, progress (09 R200, R201) -/

/-- Write a q register. -/
def State.putQ (s : State) (d : QReg) (v : Word) : State := s.updEng (fun e => { e with g := e.g.set d v })

/-- MZPOI.RD (09 R200). -/
def execMzpoiRd (z : ZReg) (a : QReg) (s : State) : Host.Outcome State Fault Refusal :=
  s.array (fun s => (s.putQ a s.here.m.z[z].poison).arrIssue 4 1 20 [.g a])

/-- MZPOI.WR (09 R200). -/
def execMzpoiWr (z : ZReg) (a : QReg) (s : State) : Host.Outcome State Fault Refusal :=
  s.array (fun s => s.arrBegin (.mzpoiWr z (s.sr a)) 4 1 20)

/-- MZPOI.OR (09 R200). -/
def execMzpoiOr (z : ZReg) (a : QReg) (s : State) : Host.Outcome State Fault Refusal :=
  s.array (fun s => s.arrBegin (.mzpoiOr z (s.sr a)) 4 1 20)

/-- MCFG (09 R182, R200). -/
def execMcfg (a : QReg) (s : State) : Host.Outcome State Fault Refusal :=
  s.array (fun s =>
    let v := s.sr a
    if confOk v then (s.updHere (fun c => { c with m := { c.m with mconf := v } })).arrIssue 4 1 2 []
    else s.etrap cILLEGAL v)

/-- MCFG.RD (09 R200). -/
def execMcfgRd (a : QReg) (s : State) : Host.Outcome State Fault Refusal :=
  s.array (fun s => (s.putQ a s.here.m.mconf).arrIssue 4 1 2 [.g a])

/-- The progress register (09 R201, 10 R211). -/
def MUnit.progress (m : MUnit) : Word :=
  let part := match m.word? with
    | some (.mmg _ _ _ _ _ e _) => e * 16
    | some (.failed e) => e * 16
    | some (.mmas _ _ _ _ _ c _ _ _ _) => c
    | _ => 0
  w64 (m.issued % 4096 * 2 ^ 20 + part)

/-- MPROG (09 R201). -/
def execMprog (a : QReg) (s : State) : Host.Outcome State Fault Refusal :=
  .next (s.esWrite a s.here.m.progress 4 2)

end Sys2Proof.Machine
end

