-- ==== Sys2Proof/Machine/MSparse.lean ====
section
/-!
DEFINITION. Array words that run in parts: MMG entry by entry (09 R193, R194) and MMAS chunk by chunk (10 R203-R213).
-/

namespace Sys2Proof.Machine

open Sys2Proof

/-! ## MMG (09 R193, R194) -/

/-- MMG (09 R193): the checks at issue; its entries are performed by MMG_ENTRY_BOUNDARY. -/
def execMmg (c b : QReg) (z : ZReg) (a : QReg) (s : State) : Host.Outcome State Fault Refusal :=
  s.array (fun s =>
    let conf := s.here.m.mconf
    let kv := s.sr c
    let list := s.sr a
    let n := (s.sr b).toNat
    if 65535 < n then s.etrap cILLEGAL (s.sr b)
    else
      match checkDepth true conf kv with
      | some t => s.etrap t.1 t.2
      | none =>
        if fld list 3 0 ≠ 0 then s.etrap cALIGN list
        else if n ≠ 0 ∧ Config.hwArea < list.toNat + 16 * n then s.etrap cAPERTURE list
        else if n = 0 then s.arrIssue 4 1 33 []
        else s.arrBegin (.mmg z list.toNat n kv conf 0 s.epc) 4 (n * (kv.toNat / groupSize (confA conf) + 2)) 0)

/-- An MMG entry (09 Table 9.6). -/
structure MmgEntry where
  a : Nat
  b : Nat
  rows : Nat
  zrow : Nat
  tag : Nat
  flags : Nat
  reserved : Nat
  deriving DecidableEq, Repr

/-- The entry at an offset. -/
def Spad.mmgEntry (p : Spad) (off : Nat) : MmgEntry where
  a := p.read off 4
  b := p.read (off + 4) 4
  rows := p.read (off + 8) 1
  zrow := p.read (off + 9) 1
  tag := p.read (off + 10) 2
  flags := p.read (off + 12) 1
  reserved := p.read (off + 13) 3

/-- The offset of the first field of an entry that breaks Table 9.6. -/
def MmgEntry.bad (e : MmgEntry) : Option Nat :=
  if 2 ^ 20 ≤ e.a then some 0
  else if 2 ^ 20 ≤ e.b then some 4
  else if 64 < e.rows ∨ 64 < e.zrow + e.rows then some 8
  else if 63 < e.zrow then some 9
  else if 1 < e.flags then some 12
  else if e.reserved ≠ 0 then some 13
  else none

/-- The word in the array of a cell stands at another part. -/
def State.setArr (s : State) (c : Nat) (w : ArrWord) : State :=
  s.updCell c (fun x => { x with m := { x.m with arr := x.m.arr.map (fun y => { y with word := w }) } })

/-- The array word of a cell that runs in parts has trapped after issue. -/
def State.arrTrap (s : State) (c : Nat) (left : Option ArrWord) (cls : Nat) (detail word : Word) : State :=
  (s.arrEnd c left false 0).etrapAfter c .m cls detail word

/-- A tile after an entry, element [i][j] with `depth i j` elements along k (09 R194). -/
def Tile.mmg (t : Tile) (p : Spad) (k : Nat) (conf : Word) (e : MmgEntry) (depth : Nat → Nat → Nat) : Tile :=
  let mx := confMx conf
  if e.rows = 0 then t
  else t.productTo conf depth e.zrow (e.flags % 2 = 1) (p.tileRows (confA conf) mx e.a e.rows k)
    (p.tilePoison (confA conf) mx e.a e.rows k) (p.tileRows (confB conf) mx e.b 64 k)
    (p.bad e.b (tileBytes (confB conf) mx 64 k))

/-- Perform an entry as the word `x` in the array, with a scratchpad as it has read it. -/
def State.mmgPerform (s : State) (c : Nat) (x : ArrExec) (p : Spad) (z : ZReg) (kv conf : Word) (i : Nat) (e : MmgEntry) :
    State :=
  let k := kv.toNat
  let bbad := p.bad e.b (tileBytes (confB conf) (confMx conf) 64 k)
  if e.rows = 0 then s
  else
    let t := ((s.cell c).arrTile x z).mmg p k conf e (fun _ _ => k)
    let s1 := s.updCell c (fun y => y.putTile x z t s.fresh)
    let l := s.launchOf c
    if bbad then
      s1.poisonAppend l.job (s.cell c).launch (poisonEntry 2 s.device ((s.cell c).idx l) l.kernelId.toNat 0 0 (i * 65536 + e.tag) 0)
    else s1

/-- MMG_ENTRY_BOUNDARY (09 R193, R194): the next entry of the MMG in the array is read, checked and performed. -/
def execMmgEntryBoundary (cell : Nat) (s : State) : Host.Outcome State Fault Refusal :=
  match (s.cell cell).m.arr, (s.cell cell).m.word? with
  | some x, some (.mmg z list n kv conf i word) =>
    let p := s.arrSpad cell x
    let e := p.mmgEntry (list + 16 * i)
    let k := kv.toNat
    let mx := confMx conf
    let mark := i * 2 ^ 32
    if !s.active cell then .next s
    else .next (
      match e.bad with
      | some f => s.arrTrap cell (some (.failed i)) cILLEGAL (w64 (mark + 16 * i + f)) word
      | none =>
        match checkRegions (some (e.a, tileBytes (confA conf) mx e.rows k)) (e.b, tileBytes (confB conf) mx 64 k) with
        | some t => s.arrTrap cell (some (.failed i)) t.1 (w64 (mark + t.2.toNat % 2 ^ 32)) word
        | none =>
          let s1 := (s.mmgPerform cell x p z kv conf i e).count cell 6 1
          if i + 1 = n then s1.arrEnd cell none true 0
          else s1.setArr cell (.mmg z list n kv conf (i + 1) word))
  | _, _ => .next s

/-! ## MMAS (10 R203-R213) -/

/-- Maximum extent of a bitmap tile (10 R204). -/
def spExtent (f : Fmt) : Nat := 0x2D0 + 4096 * f.width / 8

/-- MMAS (10 R205, R206): the checks at issue; its chunks are performed by MMAS_CHUNK_BOUNDARY. -/
def execMmas (l : Bool) (b : QReg) (z : ZReg) (a : QReg) (s : State) : Host.Outcome State Fault Refusal :=
  s.array (fun s =>
    let conf := s.here.m.mconf
    let av := (s.sr a).toNat
    let bv := (s.sr b).toNat
    if confMx conf then s.etrap cILLEGAL conf
    else
      match checkRegions (some (av, spExtent (confA conf))) (bv, spExtent (confB conf)) with
      | some t => s.etrap t.1 t.2
      | none => s.arrBegin (.mmas z l av bv conf 0 none 0 false s.epc) 4 0 0)

/-- Bits of a number below a place. -/
def popBelow (x k : Nat) : Nat := ((upFrom k 0).filter (fun i => x.testBit i)).length

/-- The bitmap rows of a tile. -/
def Spad.spBitmap (p : Spad) (off : Nat) : List Nat := (upFrom 64 0).map (fun r => p.read (off + 16 + 8 * r) 8)

/-- The row offsets of a tile. -/
def Spad.spOffsets (p : Spad) (off : Nat) : List Nat := (upFrom 64 0).map (fun r => p.read (off + 0x210 + 2 * r) 2)

/-- The lowest row whose offset is not the number of set bits before it. -/
def offsetFault : List Nat → List Nat → Nat → Nat → Option Nat
  | b :: bs, o :: os, r, n => if o ≠ n then some r else offsetFault bs os (r + 1) (n + popBelow b 64)
  | _, _, _, _ => none

/-- The first check of Table 10.4 that a tile fails: its code and row. -/
def Spad.spFault (p : Spad) (off fmt orient : Nat) : Option (Nat × Nat) :=
  let bm := p.spBitmap off
  let nnz := p.read (off + 2) 2
  let flags := p.read (off + 4) 2
  let bits := bm.foldl (fun n b => n + popBelow b 64) 0
  if p.read off 1 ≠ fmt then some (1, 0)
  else if p.read (off + 1) 1 ≠ orient then some (2, 0)
  else if p.read (off + 6) 10 ≠ 0 ∨ 1 < flags ∨ (orient = 0 ∧ flags ≠ 0) then some (3, 0)
  else if 4096 < nnz ∨ nnz ≠ bits then some (4, 0)
  else (offsetFault bm (p.spOffsets off) 0 0).map (fun r => (5, r))

/-- A sector of the header, bitmap or row-offset table is poisoned (10 R210). -/
def Spad.spStructBad (p : Spad) (off : Nat) : Bool := p.bad off 0x290

/-- Where a tile's values start. -/
def Spad.spValues (p : Spad) (off : Nat) : Nat := off + (if p.read (off + 4) 1 % 2 = 1 then 0x2D0 else 0x290)

/-- The setup of MMAS (10 R207): the detail of a failure, or what it has read. -/
def Spad.spSetup (p : Spad) (conf : Word) (a b : Nat) : Except Word SpMeta :=
  let bad := p.spStructBad a || p.spStructBad b
  let m : SpMeta :=
    { a := p.spBitmap a, b := p.spBitmap b, aoff := p.spOffsets a, boff := p.spOffsets b, abase := p.spValues a,
      bbase := p.spValues b, skip := bad }
  if bad then .ok m
  else
    match p.spFault a (fld conf 3 0) 0 with
    | some f => .error (w64 (f.2 * 65536 + f.1))
    | none =>
      match p.spFault b (fld conf 7 4) 1 with
      | some f => .error (w64 (f.2 * 65536 + 256 + f.1))
      | none => .ok m

/-- The stored value of a tile at (row bits, row offset, k) (10 R204). -/
def Spad.spVal (p : Spad) (f : Fmt) (base bits off k : Nat) : Bool × FVal :=
  let e := off + popBelow bits k
  let w := f.width
  matVal f (p.read (base + e * w / 8) ((w + 7) / 8) / 2 ^ (e * w % 8) % 2 ^ w)

/-- A row has a value in a poisoned sector. -/
def Spad.spRowBad (p : Spad) (f : Fmt) (base bits off : Nat) : Bool :=
  let n := popBelow bits 64
  let lo := off * f.width / 8
  n ≠ 0 && p.bad (base + lo) (((off + n) * f.width + 7) / 8 - lo)

/-- Groups of a chunk that the busiest element processes: those with a bit set in both its rows (10 R208); none where the
structure is poisoned (10 R210). -/
def SpMeta.busiest (m : SpMeta) (g chunk : Nat) : Nat :=
  if m.skip then 0
  else
    m.a.foldl (fun n a => m.b.foldl (fun n b =>
      max n (((upFrom (16 / g) 0).filter (fun i => (a &&& b) / 2 ^ (16 * chunk + g * i) % 2 ^ g != 0)).length)) n) 0

/-- CCLK of a chunk (10 R208, R215). -/
def SpMeta.chunkTime (m : SpMeta) (umbra : Bool) (g chunk : Nat) : Nat := (if umbra then 16 / g else m.busiest g chunk) + 2

/-- One element of a chunk: groups of `g` from `k` on, `n` of them, with the products of the bits set in both rows. -/
def spRun (i32 : Bool) (g : Nat) (mask : Nat) (prod : Nat → FVal) : Nat → Nat → Nat → Nat
  | 0, _, z => z
  | n + 1, k, z =>
    let l := (upFrom g k).filter (fun i => mask.testBit i)
    spRun i32 g mask prod n (k + g) (if l.isEmpty then z else accStep i32 z (sumE (l.map prod)))

/-- A tile after a chunk of MMAS (10 R208, R210), element [i][j] after `depth i j` groups of it. -/
def Spad.spChunk (p : Spad) (t : Tile) (conf : Word) (m : SpMeta) (chunk : Nat) (depth : Nat → Nat → Nat) : Tile :=
  let fa := confA conf
  let fb := confB conf
  let abase := m.abase
  let bbase := m.bbase
  let g := groupSize fa
  let rowsB := m.b.zip m.boff
  let bbad := rowsB.any (fun r => p.spRowBad fb bbase r.1 r.2)
  ((upFrom 64 0).zip (m.a.zip m.aoff)).foldl (fun (q : Tile) x =>
    let i := x.1
    let l := ((upFrom 64 0).zip rowsB).map (fun y =>
      spRun (confI32 conf) g (x.2.1 &&& y.2.1)
        (fun k => prodE (p.spVal fa abase x.2.1 x.2.2 k) (p.spVal fb bbase y.2.1 y.2.2 k)) (depth i y.1) (16 * chunk)
        (t.el i y.1))
    q.setRow i l (t.poison.getLsbD i || bbad || p.spRowBad fa abase x.2.1 x.2.2)) t

/-- A chunk of MMAS on a tile: with a poisoned structure nothing is accumulated and every row is poisoned (10 R210). -/
def Spad.spStep (p : Spad) (t : Tile) (conf : Word) (m : SpMeta) (chunk : Nat) (depth : Nat → Nat → Nat) : Tile :=
  if m.skip then { t with poison := BitVec.allOnes 64 } else p.spChunk t conf m chunk depth

/-- MMAS_CHUNK_BOUNDARY (10 R207-R213): the setup, when it has not been made, and the next chunk of the MMAS in the array.
A pre-empt request or cancel lets the chunk in which it is seen complete, and the word halts there (R212). -/
def execMmasChunkBoundary (cell : Nat) (s : State) : Host.Outcome State Fault Refusal :=
  match (s.cell cell).m.arr, (s.cell cell).m.word? with
  | some x, some (.mmas z clear a b conf chunk md spent halted word) =>
    let p := s.arrSpad cell x
    let setup : Except Word SpMeta := match md with
      | some m => .ok m
      | none => p.spSetup conf a b
    if halted then .next s
    else .next (
      match setup with
      | .error d => s.arrTrap cell none cSPMETA d word
      | .ok m =>
        let g := groupSize (confA conf)
        let t0 := if clear ∧ chunk = 0 then Tile.zero else (s.cell cell).arrTile x z
        let s1 := s.updCell cell (fun y => y.putTile x z (p.spStep t0 conf m chunk (fun _ _ => 16 / g)) s.fresh)
        let n := spent + m.chunkTime (s.launchOf cell).umbra g chunk
        if chunk + 1 = 4 then s1.arrEnd cell none true (x.began + 4 + n)
        else s1.setArr cell (.mmas z clear a b conf (chunk + 1) (some m) n (!s.active cell) word))
  | _, _ => .next s

/-! ## What VLDZ may see (08 R173) -/

/-- The tile of the array word in execution of a cell with a part of its sums, free for each element. -/
def State.arrPartial (s : State) (c : Nat) (x : ArrExec) (z : ZReg) : Tile :=
  let p := s.arrSpad c x
  let t := (s.cell c).arrTile x z
  let some_ (n : Nat) (i j : Nat) : Nat := Config.pick s.fresh 7 (64 * i + j) % (n + 1)
  match x.word with
  | .mmg _ list _ kv conf i _ =>
    let g := groupSize (confA conf)
    t.mmg p kv.toNat conf (p.mmgEntry (list + 16 * i)) (fun a b => g * some_ (kv.toNat / g) a b)
  | .mmas _ clear a b conf chunk md _ _ _ =>
    let t0 := if clear ∧ chunk = 0 then Tile.zero else t
    match (match md with | some m => Except.ok m | none => p.spSetup conf a b) with
    | .ok m => p.spStep t0 conf m chunk (some_ (16 / groupSize (confA conf)))
    | .error _ => t
  | w =>
    let g := match w with
      | .mma _ _ _ conf _ _ => groupSize (confA conf)
      | .mmac _ _ _ conf _ _ _ _ _ _ => groupSize (confA conf)
      | .mma24 _ _ _ conf _ _ _ => groupSize (confA conf)
      | _ => 1
    w.result (s.aSpad c x) p (s.cell c).m.z t (fun i j => g * some_ (w.depth / g) i j)

/-- The tiles whose elements a VLDZ may read beside the current one: what the tile was before words that no counter has
ordered, and what the word in the array makes of it. -/
def State.racing (s : State) (t : ZReg) : List Tile :=
  (s.here.v.eng.stale.filter (fun e => e.1 = t)).map Prod.snd ++
  (match s.here.m.arr with
    | some x => if x.word.target = some t then [s.arrPartial s.cur.cell x t] else []
    | none => [])

/-- A tile as a VLDZ reads it: each element holds a value that it has held since the last counter-ordered point. -/
def State.zSeen (s : State) (t : ZReg) (rows : List Nat) : Tile :=
  let z := s.here.m.z[t]
  match s.racing t with
  | [] => z
  | l =>
    let which (n : Nat) : Tile := (z :: l).getD (Config.pick s.fresh 8 n % (l.length + 1)) z
    rows.foldl (fun (q : Tile) i =>
      q.setRow i ((upFrom 64 0).map (fun j => (which (64 * i + j)).el i j)) ((which (4096 + i)).poison.getLsbD i)) z

end Sys2Proof.Machine
end

