-- ==== Sys2Proof/Machine/VAcc.lean ====
section
/-!
DEFINITION. VACC: the V stream's moves between v registers and accumulator tiles (08 R172, R173).
-/

namespace Sys2Proof.Machine

open Sys2Proof

/-- VLDZ (08 R172, R173). -/
def execVldz (m : MReg) (p : Fin 32) (t : ZReg) (d : VReg) (s : State) : Host.Outcome State Fault Refusal :=
  s.vpure 13 4 [] [d] (fun s =>
    let z := s.zSeen t [2 * p.val, 2 * p.val + 1]
    let x : Vec := BitVec.ofNat 4096 ((z.row (2 * p.val)).toNat + 2 ^ 2048 * (z.row (2 * p.val + 1)).toNat)
    let bad := segSet (fun g => z.poison.getLsbD (2 * p.val + g / 4))
    VRes.one (vout d 32 (activeEls 128 (s.vm m) (fun l => vel x 32 l))) bad 10)

/-- A row of a tile after a VSTZ: `wr` names the bits written, `src` the poison of the half that feeds it. -/
def Tile.store (t : Tile) (i : Nat) (x wr : BitVec 2048) (src : Bool) : Tile :=
  if wr = 0 then t
  else
    { rows := t.rows.set (Fin.ofNat 64 i) ((t.row i &&& ~~~ wr) ||| (x &&& wr))
      poison :=
        let b := src || (t.poison.getLsbD i && wr != BitVec.allOnes 2048)
        if b then t.poison ||| BitVec.ofNat 64 (2 ^ i) else t.poison &&& ~~~ (BitVec.ofNat 64 (2 ^ i)) }

/-- Elements of a tile whose bits a VSTZ writes into the rows of a pair. -/
def rowMask (p : Nat) (a b : BitVec 2048) : BitVec 4096 :=
  (upFrom 64 0).foldl (fun (m : BitVec 4096) j =>
    let bit (r : Nat) (w : BitVec 2048) : BitVec 4096 := if w.getLsbD (32 * j) then BitVec.ofNat 4096 (2 ^ (64 * r + j)) else 0
    m ||| bit (2 * p) a ||| bit (2 * p + 1) b) 0

/-- A VSTZ has written elements of a tile `old`: the array word that works on the tile keeps what it had (08 R173). -/
def MUnit.vstz (m : MUnit) (t : ZReg) (old : Tile) (mask : BitVec 4096) : MUnit :=
  { m with arr := m.arr.map (fun x =>
      if x.word.target = some t ∧ mask ≠ 0 then { x with base := some (x.base.getD old), raced := x.raced ||| mask } else x) }

/-- VSTZ (08 R172, R173). -/
def execVstz (m : MReg) (p : Fin 32) (t : ZReg) (v : VReg) (s : State) : Host.Outcome State Fault Refusal :=
  s.vword 13 4 [v] [] (fun s =>
    let x := s.vreg v
    let q := s.vpoison v
    let o := vout v 32 (activeEls 128 (s.vm m) (fun l => vel x 32 l))
    let half (y : Vec) (h : Nat) : BitVec 2048 := BitVec.ofNat 2048 (y.toNat / 2 ^ (2048 * h))
    let z := s.here.m.z[t]
    let put (y : Tile) : Tile :=
      (y.store (2 * p.val) (half x 0) (half o.wr 0) (q.toNat % 16 != 0)).store (2 * p.val + 1) (half x 1) (half o.wr 1)
        (q.toNat / 16 != 0)
    .ok (s.updHere (fun c =>
      { c with
        m := ({ c.m with z := c.m.z.set t (put z) } : MUnit).vstz t z (rowMask p.val (half o.wr 0) (half o.wr 1))
        v := { c.v with eng := { c.v.eng with
          stale := c.v.eng.stale.map (fun e => if e.1 = t then (e.1, put e.2) else e) } } }), VRes.nothing 10 1))

end Sys2Proof.Machine
end

