-- ==== Sys2Proof/Machine/EStream.lean ====
section
/-!
DEFINITION. Steps of the V and M engines without an encoding: a stream starts, a word completes, a read stream fetches
(05 R73, R86, R87; 08 R178).
-/

namespace Sys2Proof.Machine

open Sys2Proof

/-- The registers of a stream at its start (05 R86). -/
def ForkReq.regs (r : ForkReq) : Vector Word 16 :=
  ((((Vector.replicate 16 0).set 0 r.a0).set 1 r.a1).set 2 r.a2).set 3 r.a3

/-- An engine may start its next stream: none runs, none waits for a trap handler, and earlier words have completed. -/
def Engine.canStart (e : Engine) : Bool := e.run.isNone && !e.stopped && e.drained

/-- STREAM_START (05 R73, R86): the first request of the fork queue starts. -/
def execStreamStart (cell : Nat) (st : Stream) (s : State) : Host.Outcome State Fault Refusal :=
  let c := s.cell cell
  let e := c.engOf st
  let busy := match st with | .m => c.m.running | _ => false
  match e.forks with
  | r :: rest =>
    if st ≠ .s ∧ e.canStart ∧ !busy ∧ s.active cell then
      let e1 : Engine :=
        { e with
          run := some { pc := r.pc, blk := none, branch := none }
          tok := none
          wait := none
          flights := []
          stale := []
          loop := none
          forks := rest
          g := r.regs }
      .next (s.updCell cell (fun x => x.updEngOf st (fun _ => e1)))
    else .next s
  | [] => .next s

/-- STREAM_WORD_COMPLETE (05 R87, R88): a word in flight completes before its bound. -/
def execStreamWordComplete (cell : Nat) (st : Stream) (i : Nat) (s : State) : Host.Outcome State Fault Refusal :=
  match st with
  | .s => .next s
  | _ => .next (s.retireAt cell st i)

/-- VSTRM_VECTOR_FETCH (08 R178): a read stream fetches its next vector. -/
def execVstrmVectorFetch (cell : Nat) (r : VReg) (s : State) : Host.Outcome State Fault Refusal :=
  match (s.cell cell).v.binds.find r.val with
  | some b =>
    let i := b.pos + b.fetched.length
    if !b.write ∧ i < b.count then
      let x := (s.cell cell).spad.vector (b.addr i)
      let b1 : Binding := { b with fetched := b.fetched ++ [x] }
      .next (s.updCell cell (fun c => { c with v := { c.v with binds := c.v.binds.put r.val b1 } }))
    else .next s
  | none => .next s

end Sys2Proof.Machine
end

