-- ==== Sys2Proof/Machine/SLease.lean ====
section
/-!
DEFINITION. Wavelength leases: LEASE, LREL, LQRY and the Lease Controller (15 R310-R319).
-/

namespace Sys2Proof.Machine

open Sys2Proof

/-! ## Pairs and counters -/

/-- The pairs in grant order for a source and a destination (15 R311): wavelengths ascending, planes from
(source + destination) mod 16, wrapping. A pair is 16 × wavelength + plane. -/
def grantOrder (src dst : Nat) : List Nat :=
  (upFrom 192 0).map (fun i => 16 * (i / 16) + (src + dst + i % 16) % 16)

/-- Pairs of planes that are fenced for this device (18 Table 18.9). -/
def State.fencedPairs (s : State) : List Nat :=
  (upFrom 192 0).filter (fun p => s.fencedFns.any (fun f => f.1 == 3 && f.2 == p % 16))

/-- The egress pairs of this device that are in use or offered, or cannot be used. -/
def State.egressBusy (s : State) : List Nat :=
  s.fencedPairs ++ (s.leases.flatMap (fun e => e.2.pairs ++ e.2.notice.map Prod.fst ++ e.2.arrived.getD [])) ++
    s.asks.flatMap (·.offers) ++ s.draining.map Prod.fst

/-- The pairs that a request offers (15 R311): every free egress pair that no request in flight offers. -/
def State.offers (s : State) : List Nat :=
  let busy := s.egressBusy
  (upFrom 192 0).filter (fun p => !busy.contains p)

/-- A lease is live. -/
def Lease.live (l : Lease) : Bool := l.st != .ended

/-- An increment from an engine or a controller at a cell's counter, counted where it saturates (16 R322). -/
def Cell.engineAdd (c : Cell) (k : KReg) (n : Nat) : Cell := (if c.satK k n then c.count 13 1 else c).incK k n none

/-- Increment the counter of a lease (15 R312, R319): at its cell, in the saved counters of a saved launch, nowhere when
the launch has ended. -/
def State.leaseCount (s : State) (l : Lease) : State :=
  match s.launches.find l.launch with
  | none => s
  | some x =>
    match x.saved with
    | none => s.engineBump (x.physIdx l.idx) l.k 1
    | some m =>
      match m.cells.find l.idx with
      | some c => s.updLaunch l.launch (fun y => { y with saved := some { m with cells := m.cells.put l.idx (c.engineAdd l.k 1) } })
      | none => s

/-- Put a lease back in its slot. -/
def State.setLease (s : State) (l : Lease) : State := { s with leases := s.leases.put (l.id % 4096) l }

/-- A live lease of a job by its id. -/
def State.liveLease (s : State) (job id : Nat) : Option Lease :=
  match s.leases.find (id % 4096) with
  | some l => if l.id = id ∧ l.job = job ∧ l.live then some l else none
  | none => none

/-- A request of a lease is in flight. -/
def State.asking (s : State) (l : Lease) : Bool := s.asks.any (fun a => a.id == l.id)

/-- Ask for `n` pairs for a lease, with every free pair as an offer; a request that is in flight asks for so many from
now on (15 R311, R312). -/
def State.leaseAsk (s : State) (l : Lease) (n : Nat) : State :=
  if s.asking l then (s.setLease l).sendFabric l.dest .control (.leaseUpdate l.id n)
  else
    let a : LeaseAsk := { id := l.id, dest := l.dest, offers := s.offers }
    ({ s.setLease l with asks := s.asks ++ [a] } : State).sendFabric l.dest .control (.leaseReq l.id n a.offers)

/-- The pairs named start to drain (15 R314). -/
def State.drain (s : State) (dest : Nat) (pairs : List Nat) : State :=
  { s with draining := s.draining ++ pairs.map (fun p => (p, dest)) }

/-- A lease ends: every pair drains and is freed (15 R312). The offers of a request in flight return once the destination
has answered it. -/
def State.leaseEnd (s : State) (l : Lease) : State :=
  let e : Lease := { l with st := .ended, pairs := [], notice := [], arrived := none }
  let s1 := (s.setLease e).drain l.dest (l.pairs ++ l.notice.map Prod.fst ++ l.arrived.getD [])
  if s.asking l then s1.sendFabric l.dest .control (.leaseCancel l.id) else s1

/-- A lease whose term is over ends and its counter rises (15 R312). -/
def State.leaseExpire (s : State) (l : Lease) : State := (s.leaseEnd l).leaseCount l

/-- Cancelling a job ends its leases (15 R319). -/
def State.endLeases (s : State) (job : Nat) : State :=
  (s.leases.filter (fun e => e.2.job == job && e.2.live)).foldl (fun s e => s.leaseEnd e.2) s

/-! ## LEASE, LREL, LQRY -/

/-- The detail of a LEASE trap (15 Table 15.5). -/
def leaseDetail (code value : Nat) : Word := w64 (value % 65536 * 65536 + code)

/-- The demand of a job on the device, without one lease (15 R310). -/
def State.demand (s : State) (job : Nat) (but : Option Nat) : Nat :=
  s.leases.foldl (fun n e => if e.2.job = job ∧ e.2.live ∧ some e.2.id ≠ but then n + e.2.want else n) 0

/-- The slots that a new lease may take: never used, or of an ended lease. -/
def State.freeLeases (s : State) : List Nat :=
  (upFrom 4096 0).filter (fun i => match s.leases.find i with
    | some l => !l.live
    | none => true)

/-- The id of a new lease in a slot (15 R316). -/
def State.newLeaseId (s : State) (slot : Nat) : Nat :=
  match s.leases.find slot with
  | some l => (if l.id / 4096 = 15 then 1 else l.id / 4096 + 1) * 4096 + slot
  | none => 4096 + slot

/-- Pairs in the grant order of a lease (15 R311). -/
def State.inGrantOrder (s : State) (l : Lease) (pairs : List Nat) : List Nat :=
  (grantOrder s.device l.dest).filter pairs.contains

/-- The renewal of a live lease (15 R312): a lease that needs no more pairs settles at once and releases those last in
grant order; a request that was in flight for more is given up. -/
def State.leaseRenew (s : State) (l : Lease) (k : KReg) (count endsAt : Nat) : State :=
  let n : Lease := { l with k := k, want := count, endsAt := endsAt, launch := s.here.launch.getD 0,
                            idx := s.here.idx s.myLaunch }
  let g := l.pairs.length
  match l.st with
  | .granted =>
    if count ≤ g then
      let m : Lease := { n with pairs := n.pairs.take count }
      let s1 := ((s.setLease m).drain l.dest (l.pairs.drop count)).leaseCount m
      if s.asking l then s1.sendFabric l.dest .control (.leaseUpdate l.id 0) else s1
    else s.leaseAsk n (count - g)
  | _ => s.leaseAsk n count

/-- CCLK until the Lease Controller has recorded a LEASE or answered an LQRY, at most 1 µs (15 R315, R318). -/
def State.leaseLat (s : State) : Nat := 1 + Config.pick s.fresh 14 0 % (if s.half then 350 else 700)

/-- The term of a lease is over when a LEASE that renews it is recorded: the old lease ends (15 R315, Table 15.9). -/
def State.leaseLate (s : State) (job renew : Nat) : State :=
  match s.liveLease job renew with
  | some l => if l.endsAt ≤ ({ s with now := s.now + s.leaseLat } : State).ns then s.leaseExpire l else s
  | none => s

/-- LEASE (15 R315, R316): recorded within 1 µs; the fibre waits until then. -/
def execLease (d a b : GReg) (s : State) : Host.Outcome State Fault Refusal :=
  let x := s.g a
  let y := s.g b
  let dest := fld x 11 0
  let count := fld y 7 0
  let term := fld y 31 8
  let k : KReg := Fin.ofNat 32 (fld y 36 32)
  let renew := fld y 63 48
  let job := s.myLaunch.job
  let bad (code value : Nat) : State := s.trap cLEASE (leaseDetail code value)
  let t := if renew = 0 then s else s.leaseLate job renew
  let old := if renew = 0 then none else t.liveLease job renew
  let demand := t.demand job (old.map (·.id)) + count
  let endsAt := s.ns + 1000 * term
  .next (
    if fld x 63 12 ≠ 0 ∨ fld y 47 37 ≠ 0 ∨ count = 0 ∨ 48 < count ∨ term < 10 ∨ 10000 < term then bad 1 0
    else if dest = s.device ∨ !(s.job job).devSet.contains dest then bad 2 0
    else
      match old with
      | some l =>
        if l.dest ≠ dest then bad 3 l.dest
        else if (s.job job).quota < demand then bad 4 demand
        else (t.leaseRenew l k count endsAt).writeRd d (w64 l.id) 4 s.leaseLat
      | none =>
        if (s.job job).quota < demand then bad 4 demand
        else
          match t.freeLeases with
          | [] => bad 5 0
          | f :: fs =>
            let slot := (f :: fs).getD (Config.pick s.fresh 15 0 % (fs.length + 1)) f
            let l : Lease :=
              { id := t.newLeaseId slot
                job := job
                launch := s.here.launch.getD 0
                idx := s.here.idx s.myLaunch
                k := k
                dest := dest
                want := count
                endsAt := endsAt
                st := .pending
                pairs := []
                notice := []
                arrived := none }
            (t.leaseAsk l count).writeRd d (w64 l.id) 4 s.leaseLat)

/-- LREL (15 R317). -/
def execLrel (a : GReg) (s : State) : Host.Outcome State Fault Refusal :=
  let x := s.g a
  .next (
    if fld x 63 16 ≠ 0 then s.trap cLEASE (leaseDetail 1 0)
    else
      match s.liveLease s.myLaunch.job x.toNat with
      | some l => (s.leaseEnd l).finish 4 1
      | none => s.finish 4 1)

/-- The number of a lease's state (15 Table 15.6). -/
def LeaseState.code : LeaseState → Nat
  | .pending => 1 | .granted => 2 | .ended => 3

/-- The LQRY word of a lease (15 Table 15.6). -/
def Lease.word (l : Lease) (ns : Nat) : Word :=
  w64 ((if l.live then (l.endsAt - ns) / 1000 % 2 ^ 24 else 0) * 2 ^ 40 + l.st.code * 2 ^ 32 +
    (l.pairs.foldl (fun a p => a ||| 2 ^ (p % 16)) 0) * 2 ^ 16 + l.want * 2 ^ 8 + l.pairs.length)

/-- LQRY (15 R318). -/
def execLqry (d a : GReg) (s : State) : Host.Outcome State Fault Refusal :=
  let x := s.g a
  .next (
    if fld x 63 16 ≠ 0 then s.trap cLEASE (leaseDetail 1 0)
    else
      let v : Word := match s.leases.find (x.toNat % 4096) with
        | some l => if l.id = x.toNat ∧ l.job = s.myLaunch.job then l.word s.ns else 0
        | none => 0
      s.writeRd d v 4 s.leaseLat)

/-! ## The source's side -/

/-- The answer to a request in flight (15 R311): its offers return, and what it grants is set up; a lease that needs no
more gives the pairs back. -/
def State.leaseGranted (s : State) (src id : Nat) (pairs : List Nat) : State :=
  let s1 : State := { s with asks := s.asks.filter (fun a => a.id != id) }
  match s.leases.find (id % 4096) with
  | some l =>
    if l.id = id ∧ l.live ∧ pairs ≠ [] ∧ (l.st = .pending ∨ l.pairs.length < l.want) then
      s1.setLease { l with arrived := some (l.arrived.getD [] ++ pairs) }
    else s1.drain src pairs
  | none => s1.drain src pairs

/-- A pair is revoked (15 R312, R313): the counter rises and the pair carries traffic for 2 µs more, or, lost to a fence,
drains at once (18 Table 18.9); a lease without pairs falls to PENDING and asks for its count again. -/
def State.leaseNoticed (s : State) (id pair : Nat) (now : Bool) : State :=
  match s.leases.find (id % 4096) with
  | some l =>
    if l.id = id ∧ l.live ∧ l.pairs.contains pair then
      let m : Lease := { l with pairs := l.pairs.erase pair, notice := if now then l.notice else l.notice ++ [(pair, s.ns + 2000)] }
      let s1 := (s.setLease m).leaseCount m
      let s2 := if now then s1.drain l.dest [pair] else s1
      if m.pairs = [] then s2.leaseAsk { m with st := .pending } m.want else s2
    else s
  | none => s

/-- The pairs of a lease on fenced planes end as by revocation without notice (18 Table 18.9). -/
def State.leaseFenced (s : State) (slot : Nat) : State :=
  match s.leases.find slot with
  | some l =>
    (l.pairs.filter (fun p => s.fencedPairs.contains p)).foldl (fun s p => s.leaseNoticed l.id p true) s
  | none => s

/-- LEASE_GRANT_SETTLE (15 R312, R314): the pairs are set up and the counter rises once; pairs beyond the count are
freed. -/
def execLeaseGrantSettle (slot : Nat) (s : State) : Host.Outcome State Fault Refusal :=
  match s.leases.find slot with
  | none => idle s
  | some l =>
    match l.arrived with
    | none => idle s
    | some new =>
      let all := s.inGrantOrder l (l.pairs ++ new)
      let m : Lease := { l with st := .granted, pairs := all.take l.want, arrived := none }
      .next ((((s.setLease m).drain l.dest (all.drop l.want)).leaseCount m).leaseFenced slot)

/-- LEASE_NOTICE_EXPIRE (15 R313): the pair whose 2 µs are over starts to drain. -/
def execLeaseNoticeExpire (slot pair : Nat) (s : State) : Host.Outcome State Fault Refusal :=
  match s.leases.find slot with
  | some l =>
    match l.notice.find? (fun n => n.1 = pair) with
    | some n =>
      if n.2 ≤ s.ns then .next ((s.setLease { l with notice := l.notice.erase n }).drain l.dest [pair]) else idle s
    | none => idle s
  | none => idle s

/-- LEASE_TERM_EXPIRE (15 R312): the lease ends and its counter rises. -/
def execLeaseTermExpire (slot : Nat) (s : State) : Host.Outcome State Fault Refusal :=
  match s.leases.find slot with
  | some l => if l.live && decide (l.endsAt ≤ s.ns) then .next (s.leaseExpire l) else idle s
  | none => idle s

/-- LEASE_PAIR_DRAINED (15 R314): once every frame on the pair has been acknowledged it is free at both ends. -/
def execLeasePairDrained (pair : Nat) (s : State) : Host.Outcome State Fault Refusal :=
  match s.draining.find? (fun p => p.1 = pair) with
  | some p =>
    if s.fabricKept.any (fun k => k.frame.dev == p.2 && k.frame.pair == some pair) then idle s
    else .next (({ s with draining := s.draining.erase p } : State).sendFabric p.2 .control (.leaseFree pair))
  | none => idle s

/-! ## The destination's side (15 R311, R313) -/

/-- Ingress pairs that a lease holds or that are under notice, or that cannot be used. -/
def State.ingressBusy (s : State) : List Nat :=
  s.fencedPairs ++ s.inLeases.flatMap (·.pairs) ++ s.noticed.map Prod.snd

/-- Give pairs to a request: a lease that had none enters GRANTED now (15 R312). -/
def State.ingressGrant (s : State) (q : InReq) (pairs : List Nat) : State :=
  let old := s.inLeases.find? (fun l => l.src = q.src ∧ l.id = q.id ∧ l.pairs ≠ [])
  let new : InLease :=
    { src := q.src, id := q.id, since := (old.map (·.since)).getD s.ns, pairs := (old.map (·.pairs)).getD [] ++ pairs }
  ({ s with
    inLeases := s.inLeases.filter (fun l => !(l.src = q.src && l.id = q.id)) ++ [new]
    inReqs := s.inReqs.filter (fun r => !(r.src = q.src && r.id = q.id)) } : State).sendFabric q.src .control
      (.leaseGrant q.id pairs)

/-- Ingress pairs that a source holds here. -/
def State.heldBy (s : State) (src : Nat) : Nat :=
  s.inLeases.foldl (fun n l => if l.src = src then n + l.pairs.length else n) 0

/-- The better victim of two (15 R313). -/
def State.victimOf (s : State) (a b : InLease) : InLease :=
  let x := s.heldBy a.src
  let y := s.heldBy b.src
  if x < y then b else if y < x then a
  else if b.src < a.src then b else if a.src < b.src then a else if b.id < a.id then b else a

/-- Reclaim for a request that can take no pair (15 R313). -/
def State.reclaim (s : State) (q : InReq) : State :=
  let ok := s.inLeases.filter (fun l =>
    !(l.src = q.src && l.id = q.id) && decide (20000 < s.ns - l.since) && l.pairs.any (fun p => q.offers.contains p))
  match ok with
  | [] => s
  | v :: r =>
    let w := r.foldl s.victimOf v
    match (grantOrder q.src s.device).find? (fun p => w.pairs.contains p && q.offers.contains p) with
    | none => s
    | some p =>
      ({ s with
        inLeases := s.inLeases.map (fun l => if l = w then { l with pairs := l.pairs.erase p } else l)
        inReqs := s.inReqs.map (fun r => if r.src = q.src ∧ r.id = q.id then { r with revoking := some p } else r)
        noticed := s.noticed ++ [(w.src, p)] } : State).sendFabric w.src .control (.leaseNotice w.id p false)

/-- Serve a request that waits here (15 R311): pairs both offered and free, in grant order, or reclaim. -/
def State.serveReq (s : State) (q : InReq) : State :=
  let busy := s.ingressBusy
  let take := ((grantOrder q.src s.device).filter (fun p => q.offers.contains p && !busy.contains p)).take q.count
  if take = [] then s.reclaim q else s.ingressGrant q take

/-- Take message `i` out of the inbox. -/
def State.dropInbox (s : State) (i : Nat) : State := { s with inbox := s.inbox.eraseIdx i }

/-- Serve every request that waits here without a pair under notice, in arrival order (15 R311, R313). -/
def State.serveReqs (s : State) : State :=
  s.inReqs.foldl (fun s q => if q.revoking.isNone then s.serveReq q else s) s

/-- LEASE_REQUEST_ARRIVE (15 R311): a request of another device arrives and is served after those that came before it. -/
def execLeaseRequestArrive (i : Nat) (s : State) : Host.Outcome State Fault Refusal :=
  match s.inbox[i]? with
  | some ⟨src, .leaseReq id count offers, _⟩ =>
    let q : InReq := { src := src, id := id, count := count, offers := offers, revoking := none }
    .next ({ s.dropInbox i with inReqs := s.inReqs ++ [q] } : State).serveReqs
  | _ => idle s

/-- LEASE_RECLAIM_RETRY (15 R313): the requests that wait for a pair or a victim try again, in arrival order. -/
def execLeaseReclaimRetry (s : State) : Host.Outcome State Fault Refusal :=
  if s.inReqs.any (fun r => r.revoking.isNone) then .next s.serveReqs else idle s

/-- A pair of a source has been freed: it goes to the request that reclaimed it (15 R313). -/
def State.ingressFreed (s : State) (src pair : Nat) : State :=
  let s1 : State :=
    { s with
      inLeases := s.inLeases.map (fun l => if l.src = src then { l with pairs := l.pairs.erase pair } else l)
      noticed := s.noticed.filter (fun p => p != (src, pair)) }
  match s1.inReqs.find? (fun r => r.revoking = some pair) with
  | some q => s1.ingressGrant q [pair]
  | none => s1

/-- A request that waits here is taken out, and its offers return to its source. -/
def State.ingressCancel (s : State) (src id : Nat) : State :=
  if s.inReqs.any (fun r => r.src == src && r.id == id) then
    ({ s with inReqs := s.inReqs.filter (fun r => !(r.src == src && r.id == id)) } : State).sendFabric src .control
      (.leaseGrant id [])
  else s

/-- A renewal changes the count of a request that waits here; a count of 0 gives the request up (15 R312). -/
def State.ingressUpdate (s : State) (src id count : Nat) : State :=
  if count = 0 then s.ingressCancel src id
  else
    { s with inReqs := s.inReqs.map (fun r => if r.src = src ∧ r.id = id then { r with count := count } else r) }

end Sys2Proof.Machine
end

