-- ==== Sys2Proof/Machine/ETask.lean ====
section
/-!
DEFINITION. Tasks at a cell: starting them, stealing, and SPAWN records that arrive (04 R60-R72, 11 R222).
-/

namespace Sys2Proof.Machine

open Sys2Proof

/-! ## Private regions (11 R222) -/

/-- What a launch commits from its job's private pool. -/
def Launch.commits (l : Launch) : Nat := max l.reserve (l.regions.length * l.privSize)

/-- The launches of a job. -/
def State.jobLaunches (s : State) (job : Nat) : List Launch :=
  (s.launches.filter (fun e => e.2.job = job)).map Prod.snd

/-- The free room of a job's private pool. -/
def State.poolFree (s : State) (job : Nat) : Nat :=
  (s.job job).poolSize - (s.jobLaunches job).foldl (fun n l => n + l.commits) 0

/-- The regions in use of a job: base and size. -/
def State.regionsOf (s : State) (job : Nat) : List (Nat × Nat) :=
  (s.jobLaunches job).flatMap (fun l => l.regions.map (fun b => (b, l.privSize)))

/-- The least number of a list. -/
def leastOf : List Nat → Option Nat
  | [] => none
  | n :: r => match leastOf r with
    | some m => some (min n m)
    | none => some n

/-- The lowest place of the pool at which a region of a size fits between the regions in use (log 11). -/
def State.regionPlace (s : State) (job size : Nat) : Option Nat :=
  let j := s.job job
  let used := s.regionsOf job
  let fits (b : Nat) : Bool :=
    j.poolBase ≤ b && b + size ≤ j.poolBase + j.poolSize &&
    used.all (fun u => decide (b + size ≤ u.1 ∨ u.1 + u.2 ≤ b))
  leastOf ((j.poolBase :: used.map (fun u => u.1 + u.2)).filter fits)

/-- The region that a task of a launch takes: from the launch's reservation first, then from the pool's free room. -/
def State.newRegion (s : State) (l : Nat) : Option Nat :=
  let x := s.launch l
  if (x.regions.length + 1) * x.privSize ≤ x.reserve ∨ x.privSize ≤ s.poolFree x.job then s.regionPlace x.job x.privSize
  else none

/-! ## Starting tasks (04 R60-R62) -/

/-- CCLK after which the cold-end entry is taken next (04 R62). -/
def coldAge : Nat := 1048576

/-- The lowest FREE task slot. -/
def Cell.freeTask (c : Cell) : Option Nat := c.fibres.lowestFree 239 17

/-- The cold-end entry is due (04 R62). -/
def Cell.coldDue (c : Cell) (now : Nat) : Bool :=
  match c.deque with
  | e :: _ => e.entered + coldAge ≤ now
  | [] => false

/-- The record that the next local pop takes, and the deque after it: the hot end, or the cold end once it is due. -/
def Cell.popRec (c : Cell) (now : Nat) : Option (TaskRec × List DequeEntry) :=
  match c.deque with
  | [] => none
  | e :: r =>
    if c.coldDue now then some (e.task, r)
    else
      match c.deque.getLast? with
      | some x => some (x.task, c.deque.dropLast)
      | none => none

/-- The registers at the start of a task (04 Table 4.1). -/
def TaskRec.regs (t : TaskRec) (privSize : Nat) : Vector Word 8 :=
  ((((((Vector.replicate 8 0).set 0 t.a0).set 1 t.a1).set 2 t.a2).set 3 t.a3).set 6
    (if privSize = 0 then 0 else w64 (0xB000000000000000 + privSize)))

/-- A task starts in a slot of a cell, with its region if it has one; its start acquires at DEVICE scope (04 R67). -/
def State.startTask (s : State) (c slot : Nat) (t : TaskRec) (rest : List DequeEntry) (priv : Option Nat) : State :=
  let l := s.launchOf c
  let x := s.cell c
  let b : FBody :=
    { FBody.zero with
      fid := s.nextId
      g := t.regs l.privSize
      pc := t.pc
      startNo := x.started
      since := some s.now
      priv := priv }
  let f : Fibre := { Fibre.zero with body := b }
  ((s.updCell c (fun x => { x.setFibre slot f with deque := rest, started := x.started + 1 })).newId).acqL1 c .device

/-- One local pop of a cell that can start a task. -/
def State.popTask (s : State) (c : Nat) : State :=
  match (s.cell c).freeTask, (s.cell c).popRec s.now, (s.cell c).launch with
  | some slot, some (t, rest), some l =>
    if (s.launch l).privSize = 0 then s.startTask c slot t rest none
    else
      match s.newRegion l with
      | some b =>
        (s.updLaunch l (fun x => { x with regions := x.regions ++ [b] })).startTask c slot t rest (some b)
      | none => s
  | _, _, _ => s

/-- A local pop can start a task on a cell: it comes before the other operations of the deque's CCLK (04 R66). -/
def State.canPop (s : State) (c : Nat) : Bool :=
  s.active c && (s.cell c).freeTask.isSome && !(s.cell c).deque.isEmpty &&
  match (s.cell c).launch with
  | some l => (s.launch l).privSize == 0 || (s.newRegion l).isSome
  | none => false

/-- A SPAWN record has landed at a cell and waits for its deque. -/
def State.spawnWaits (s : State) (c : Nat) : Bool :=
  s.net.any (fun m => m.landed && m.dst == .cell c && match m.body with | .spawn _ _ => true | _ => false)

/-- TASK_POP (04 R62). -/
def execTaskPop (cell : Nat) (s : State) : Host.Outcome State Fault Refusal :=
  if s.active cell then .next (s.popTask cell) else idle s

/-- COLD_END_PROMOTE (04 R62): the local pop that takes the cold-end entry because it is due. -/
def execColdEndPromote (cell : Nat) (s : State) : Host.Outcome State Fault Refusal :=
  if s.active cell && (s.cell cell).coldDue s.now then .next (s.popTask cell) else idle s

/-! ## Stealing (04 R70, R71) -/

/-- No task fibre of the cell is READY or ISSUED. -/
def Cell.tasksIdle (c : Cell) : Bool :=
  c.fibres.all (fun e => e.1 < 17 ||
    match e.2.status with
    | .ready => false
    | .issued _ => false
    | _ => true)

/-- The cell is idle (04 R70). -/
def Cell.isIdle (c : Cell) : Bool := c.deque.isEmpty && c.tasksIdle

/-- The role of a cell neither sends nor serves steal requests (02 Table 2.4). -/
def State.noSteal (s : State) (c : Nat) : Bool := (s.launchOf c).nosteal.getD (s.cell c).role false

/-- The logical indices of the other cells of a cell's role, ascending. -/
def State.victims (s : State) (c : Nat) : List Nat :=
  let l := s.launchOf c
  let i := (s.cell c).idx l
  (upFrom (l.w * l.h) 0).filter (fun j => j != i && l.roles.getD j 0 == (s.cell c).role)

/-- The next victim: the first index after the last one asked, wrapping around. -/
def nextVictim (last : Option Nat) (l : List Nat) : Option Nat :=
  match last with
  | none => l.head?
  | some k =>
    match l.find? (fun j => k < j) with
    | some j => some j
    | none => l.head?

/-- Change how a cell stands as a thief. -/
def State.setSteal (s : State) (c : Nat) (x : Steal) : State := s.updCell c (fun y => { y with steal := x })

/-- STEAL_SEND (04 R70): an idle thief asks its next victim. -/
def execStealSend (cell : Nat) (s : State) : Host.Outcome State Fault Refusal :=
  let c := s.cell cell
  if s.active cell && c.isIdle && !s.noSteal cell && c.steal.phase == .idle then
    match nextVictim c.steal.last (s.victims cell) with
    | some j =>
      .next (s.setSteal cell { c.steal with last := some j, phase := .asked ((s.launchOf cell).physIdx j) })
    | none => idle s
  else idle s

/-- What a victim answers, and its deque after it (04 R71). -/
def Cell.stealAnswer (c : Cell) : Option TaskRec × List DequeEntry :=
  match c.deque with
  | [] => (none, [])
  | [e] => if c.freeTask.isNone then (some e.task, []) else (none, [e])
  | e :: r => (some e.task, r)

/-- STEAL_SERVE (04 R71): the victim that the thief `cell` has asked answers, after its own pop and the records that have
arrived for it (04 R66). -/
def execStealServe (cell : Nat) (s : State) : Host.Outcome State Fault Refusal :=
  match (s.cell cell).steal.phase with
  | .asked v =>
    if s.canPop v || s.spawnWaits v then idle s else
    let a := (s.cell v).stealAnswer
    let s1 := (s.updCell v (fun x => { x with deque := a.2 })).count v (if a.1.isSome then 16 else 17) 1
    .next (s1.setSteal cell { (s.cell cell).steal with phase := .answered a.1 })
  | _ => idle s

/-- STEAL_ANSWER_ARRIVE (04 R70): a record goes into the thief's deque; after a round of EMPTY answers the thief waits.
Two points are left open and chosen (DESIGN CHOICE, log 77): a stolen record waits while the thief's deque is full, and
EMPTY answers count on when the thief has been busy in between, until a record or the back-off. -/
def execStealAnswerArrive (cell : Nat) (s : State) : Host.Outcome State Fault Refusal :=
  let c := s.cell cell
  match c.steal.phase with
  | .answered (some t) =>
    if c.deque.length < 64 then
      .next ((s.updCell cell (fun x => x.pushTask t s.now)).setSteal cell { c.steal with empties := 0, phase := .idle })
    else idle s
  | .answered none =>
    let n := c.steal.empties + 1
    if (s.victims cell).length ≤ n then .next (s.setSteal cell { c.steal with empties := 0, phase := .backoff s.now })
    else .next (s.setSteal cell { c.steal with empties := n, phase := .idle })
  | _ => idle s

/-- STEAL_BACKOFF_EXPIRE (04 R70): 1,024 CCLK after a round of EMPTY answers. -/
def execStealBackoffExpire (cell : Nat) (s : State) : Host.Outcome State Fault Refusal :=
  match (s.cell cell).steal.phase with
  | .backoff t =>
    if t + 1024 ≤ s.now then .next (s.setSteal cell { (s.cell cell).steal with phase := .idle }) else idle s
  | _ => idle s

/-! ## SPAWN (04 R69) -/

/-- SPAWN_RECORD_ARRIVE: the record is pushed at the hot end, or refused by a full deque. -/
def execSpawnRecordArrive (msg : Nat) (s : State) : Host.Outcome State Fault Refusal :=
  match s.landed msg with
  | some m =>
    match m.body, m.dst with
    | .spawn who t, .cell c =>
      if s.canPop c then idle s else
      let s1 := s.dropMsg msg
      if (s.cell c).deque.length < 64 then
        .next ((s1.updCell c (fun x => x.pushTask t s.now)).respond (.cell c) who (.spawnAns who true))
      else .next ((s1.count c 18 1).respond (.cell c) who (.spawnAns who false))
    | _, _ => idle s
  | none => idle s

/-- SPAWN_ANSWER_ARRIVE: the fibre goes on, or runs the child inline. -/
def execSpawnAnswerArrive (msg : Nat) (s : State) : Host.Outcome State Fault Refusal :=
  match s.landed msg with
  | some m =>
    match m.body with
    | .spawnAns who ok =>
      let s1 := s.dropMsg msg
      let f := (s.cell who.cell).fibre who.slot
      match f.status with
      | .parked (.spawn id _ t len) _ =>
        if id = who.id ∧ f.has who.fid then
          if ok then .next (s1.updCell who.cell (fun c => c.setFibre who.slot (f.wake len)))
          else .next ((s1.count who.cell 19 1).updCell who.cell (fun c =>
            c.setFibre who.slot (f.enterInline t (s.now + 3))))
        else .next s1
      | _ => .next s1
    | _ => idle s
  | none => idle s

end Sys2Proof.Machine
end

