-- ==== Sys2Proof/Machine/EMsg.lean ====
section
/-!
DEFINITION. Active messages, delegations and handler fibres as they arrive and start (12 R247-R252, 13 R275, 18 R359,
R364).
-/

namespace Sys2Proof.Machine

open Sys2Proof

/-! ## Messages -/

/-- AM_RESERVE_ARRIVE (12 R248): the reservation is granted, or waits; a fenced cell refuses it (18 R375). -/
def execAmReserveArrive (msg : Nat) (s : State) : Host.Outcome State Fault Refusal :=
  match s.landed msg with
  | some m =>
    match m.body, m.dst with
    | .amReserve a, .cell c =>
      let s1 := s.dropMsg msg
      if s.excluded.contains c then .next (if a.buffered then s1 else s1.respond (.cell c) a.who (.amRefused a.who))
      else .next (s1.amGrantOr c a)
    | _, _ => idle s
  | none => idle s

/-- Send the message of a grant to the entry it has (12 R248). -/
def State.amDeliver (s : State) (m : AmMsg) (entry : Nat) : State :=
  if m.toDev = s.device then s.send (.cell m.who.cell) (.cell m.toCell) .request (.am m entry)
  else s.sendFabric m.toDev .request (.am m entry)

/-- AM_GRANT_ARRIVE (12 R248): the sender's NI sends the message. -/
def execAmGrantArrive (msg : Nat) (s : State) : Host.Outcome State Fault Refusal :=
  match s.landed msg with
  | some m =>
    match m.body with
    | .amGrant a entry => .next ((s.dropMsg msg).amDeliver a entry)
    | _ => idle s
  | none => idle s

/-- The entry of a message that has arrived (12 Table 12.4). -/
def AmEntry.arrived (e : AmEntry) (m : AmMsg) : AmEntry :=
  { e with
    valid := true
    running := false
    held := false
    deleg := m.deleg
    reply := m.reply
    id := m.id
    sender := m.sender
    target := m.target
    a0 := m.a0
    a1 := m.a1
    a2 := m.a2
    a3 := m.a3
    pc := m.pc
    scope := m.scope
    from_ := m.who }

/-- A message is written into the entry that it has been granted. -/
def Cell.putMessage (c : Cell) (m : AmMsg) (entry : Nat) : Cell :=
  match c.am.find entry with
  | some e => { c with am := c.am.put entry (e.arrived m) }
  | none => c

/-- AM_MESSAGE_ARRIVE (12 R248): the entry is written and the sender learns that its message has been taken. -/
def execAmMessageArrive (msg : Nat) (s : State) : Host.Outcome State Fault Refusal :=
  match s.landed msg with
  | some m =>
    match m.body, m.dst with
    | .am a entry, .cell c =>
      let s1 := (s.dropMsg msg).updCell c (fun x => x.putMessage a entry)
      .next (if a.buffered then s1 else s1.respond (.cell c) a.who (.amTaken a.who))
    | _, _ => idle s
  | none => idle s

/-- The message of a parked fibre has been taken: an AMSEND without reply ends; an AMSEND.R or DELEG waits on. -/
def State.amAccepted (s : State) (w : Asker) : State :=
  let f := (s.cell w.cell).fibre w.slot
  match f.status with
  | .parked (.amAccept id _ len) _ =>
    if id = w.id ∧ f.has w.fid then s.updCell w.cell (fun c => c.setFibre w.slot (f.wake len)) else s
  | .parked (.amReply id a rd acq deleg _ len) since =>
    if id = w.id ∧ f.has w.fid then
      s.updCell w.cell (fun c => c.setFibre w.slot { f with status := .parked (.amReply id a rd acq deleg true len) since })
    else s
  | _ => s

/-- The message of a parked fibre has been refused: an exact XLATE (18 R375). -/
def State.amRefused (s : State) (w : Asker) : State :=
  let f := (s.cell w.cell).fibre w.slot
  match f.status with
  | .parked (.amAccept id a _) _ => if id = w.id ∧ f.has w.fid then s.trapAt w.cell w.slot cXLATE 0 a else s
  | .parked (.amReply id a _ _ _ _ _) _ => if id = w.id ∧ f.has w.fid then s.trapAt w.cell w.slot cXLATE 0 a else s
  | _ => s

/-- AM_REPLY_ARRIVE (12 R247, R251, R252, 18 R375): what the parked sender waits for: the acceptance of its message, its
refusal, or the reply, which writes rd and acquires at the message's scope. -/
def execAmReplyArrive (msg : Nat) (s : State) : Host.Outcome State Fault Refusal :=
  match s.landed msg with
  | some m =>
    let s1 := s.dropMsg msg
    match m.body with
    | .amTaken w => .next (s1.amAccepted w)
    | .amRefused w => .next (s1.amRefused w)
    | .amReply w v =>
      let f := (s.cell w.cell).fibre w.slot
      match f.status with
      | .parked (.amReply id _ rd acq _ _ len) _ =>
        if id = w.id ∧ f.has w.fid then .next (s1.wakeWith w (some rd) v (some acq) len) else .next s1
      | _ => .next s1
    | _ => idle s
  | none => idle s

/-! ## Handler fibres (12 R249, 13 R275) -/

/-- What starts a handler next. -/
inductive HandlerNext where
  | msg (entry : Nat) (e : AmEntry)
  | completion (c : CompReq)
  deriving DecidableEq, Repr

/-- Place in queue order: returned to the head, and otherwise the order of grants. -/
def HandlerNext.key : HandlerNext → Nat × Nat
  | .msg _ e => (e.front, e.order)
  | .completion c => (c.front, c.order)

/-- One comes before another: the latest return to the head first, then the oldest. -/
def HandlerNext.before (a b : HandlerNext) : Bool :=
  if a.key.1 = b.key.1 then a.key.2 < b.key.2 else b.key.1 < a.key.1

/-- The first in queue order. -/
def firstNext : List HandlerNext → Option HandlerNext
  | [] => none
  | a :: r => match firstNext r with
    | some b => some (if a.before b then a else b)
    | none => some a

/-- A valid entry that no fibre serves and that is not held. -/
def AmEntry.waits (e : AmEntry) : Bool := e.valid && !e.free && !e.running && !e.held

/-- The message or completion whose handler starts next (12 R249, 13 R275). -/
def Cell.nextHandler (c : Cell) : Option HandlerNext :=
  firstNext ((c.am.filterMap (fun e => if e.2.waits && !e.2.deleg then some (.msg e.1 e.2) else none)) ++
    c.copy.comps.map .completion)

/-- The registers at the start of a handler or routine (12 R249). -/
def AmEntry.regs (e : AmEntry) : Vector Word 8 :=
  ((((((Vector.replicate 8 0).set 0 e.a0).set 1 e.a1).set 2 e.a2).set 3 e.a3).set 4 e.target).set 5 e.sender

/-- The registers at the start of a completion handler (13 R275). -/
def CompReq.regs (c : CompReq) : Vector Word 8 :=
  (((((Vector.replicate 8 0).set 0 c.id).set 1 c.status).set 2 c.done).set 4 c.word0).set 5 (c.seq.setWidth 64)

/-- Put a new fibre into a slot; its start acquires at a scope. -/
def State.startFibre (s : State) (c slot : Nat) (k : FKind) (g : Vector Word 8) (pc : Word) (sc : Scope) : State :=
  let b : FBody :=
    { FBody.zero with
      fid := s.nextId
      kind := k
      g := g
      pc := pc
      order := (s.cell c).nextOrder }
  ((s.updCell c (fun x =>
    { x.setFibre slot { Fibre.zero with body := b } with nextOrder := x.nextOrder + 1 })).newId).acqL1 c sc

/-- Mark an entry as running. -/
def Cell.runEntry (c : Cell) (i : Nat) (e : AmEntry) : Cell :=
  { c with am := c.am.put i { e with running := true, front := 0 } }

/-- HANDLER_START (12 R249, 13 R275): behind the handlers of unit traps that are due (18 Table 18.5). -/
def execHandlerStart (cell : Nat) (s : State) : Host.Outcome State Fault Refusal :=
  let c := s.cell cell
  if s.active cell && !c.traps.any (s.trapDue cell) then
    match c.freeHandler, c.nextHandler with
    | some slot, some (.msg i e) =>
      .next (((s.count cell 14 1).updCell cell (fun x => x.runEntry i e)).startFibre cell slot (.handler i) e.regs e.pc
        e.scope)
    | some slot, some (.completion q) =>
      .next (((s.count cell 14 1).updCell cell (fun x =>
        { x with copy := { x.copy with comps := x.copy.comps.erase q } })).startFibre cell slot (.completion q) q.regs
        q.pc q.scope)
    | _, _ => idle s
  else idle s

/-- The delegation entry that is served next, in queue order (12 R252). -/
def Cell.nextDeleg (c : Cell) : Option HandlerNext :=
  firstNext (c.am.filterMap (fun e => if e.2.waits && e.2.deleg then some (.msg e.1 e.2) else none))

/-- DELEG_ROUTINE_START (12 R252): one routine at a time, in slot 16. -/
def execDelegRoutineStart (cell : Nat) (s : State) : Host.Outcome State Fault Refusal :=
  let c := s.cell cell
  if s.active cell && (c.fibres.find 16).isNone then
    match c.nextDeleg with
    | some (.msg i e) =>
      .next ((s.updCell cell (fun x => x.runEntry i e)).startFibre cell 16 (.server i) e.regs e.pc e.scope)
    | _ => idle s
  else idle s

/-- TRAP_HANDLER_START (18 R354, R359; 22 R393): the first unit trap that is due is taken. -/
def execTrapHandlerStart (cell : Nat) (s : State) : Host.Outcome State Fault Refusal := .next (s.startUnitHandler cell)

end Sys2Proof.Machine
end

