-- ==== Sys2Proof/Machine/EReq.lean ====
section
/-!
DEFINITION. Memory requests at their homes and their answers at the asking fibre (12 R236-R243, R258, R259, 18 R365,
R372, R375).
-/

namespace Sys2Proof.Machine

open Sys2Proof

/-! ## At the home -/

/-- The class of a refusal as the asker sees it: an unmapped address of a posted request is late (12 R259). -/
def refusalClass (posted : Bool) (cls : Nat) : Nat := if posted && cls == cXLATE then cXLATELATE else cls

/-- The answer to a request goes back to its asker. -/
def State.memAnswer (s : State) (src : Node) (r : MemReq) (res : AnsRes) : State :=
  s.respond src r.who (.memAns
    { who := r.who, posted := r.posted, seq := r.seq, pc := r.pc, addr := r.addr,
      res := match res with
        | .refused c => .refused (refusalClass r.posted c)
        | x => x })

/-- A request performed at a scratchpad by its cell's NI: the scratchpad after it and the answer. -/
def Spad.perform (p : Spad) (off : Nat) (op : MemOp) : Spad × AnsRes :=
  match op with
  | .load z _ => (p, .ok (w64 (p.read off z.bytes)) (p.bad off z.bytes))
  | .store n v _ => (p.write off n v.toNat false, .ok 0 false)
  | .amo f z b e =>
    match p.amo off f z b e with
    | some r => (r.1, .ok (w64 r.2) false)
    | none => (p, .refused cPOISON)
  | .fe _ _ => (p, .ok 0 false)

/-- What an operation does with its page. -/
def MemOp.access : MemOp → Access
  | .load _ _ => .read
  | _ => .write

/-- The launch on this device that a request comes from. -/
def State.askerLaunch (s : State) (r : MemReq) : Option Nat :=
  if r.who.dev = s.device then (s.cell r.who.cell).launch else r.ctx.key.bind s.byKey

/-- An atomic of a launch at the home of a GLOBAL address (12 R245, R246, 18 R372). -/
def State.homeAmo (s : State) (unit : Option Nat) (pa : Nat) (f : AmoFn) (z : AmoSize) (b e : Word) : State × AnsRes :=
  let n := z.bytes
  if s.homeBad pa n then (s, .refused cPOISON)
  else
    let o := s.homeRead pa n
    match amoNew f (8 * n) o (b.toNat % 2 ^ (8 * n)) (e.toNat % 2 ^ (8 * n)) with
    | some x => ((s.homeWrite pa n x false).claim unit pa n, .ok (w64 o) false)
    | none => (s, .ok (w64 o) false)

/-- An L1 of this device answers a load: counted as a hit or a miss, and a fused slice of another member as such (19
Table 19.4). -/
def State.countL1 (s : State) (c va n : Nat) : State :=
  let o := s.l1Owner c va
  let hit : Bool := match findSector (s.cell o).l1 (va / 64) with
    | some x => (x.valid &&& byteMask (va % 64) n) == byteMask (va % 64) n
    | none => false
  let s1 := s.count c (cond hit 8 9) 1
  cond (hit && o != c) (s1.count c 10 1) s1

/-- A request performed at a GLOBAL address that translates: through the asker's L1, or at the home (12 R236, R241);
what another device asks for is performed at the home. -/
def State.globalPerform (s : State) (r : MemReq) (va pa : Nat) : State × AnsRes :=
  let c := r.who.cell
  let mine := r.who.dev == s.device
  let dropped := if mine then s.dropSector c va else s
  match r.op with
  | .load z home =>
    if mine && !home then
      let x := (s.countL1 c va z.bytes).l1Load c va pa z.bytes
      (x.1, .ok (w64 x.2.1) x.2.2)
    else (dropped, .ok (w64 (dropped.homeRead pa z.bytes)) (dropped.homeBad pa z.bytes))
  | .store n v home =>
    if mine && !home then (s.l1Store c va pa n v.toNat, .ok 0 false)
    else ((dropped.homeWrite pa n v.toNat false).claim (s.askerLaunch r) pa n, .ok 0 false)
  | .amo f z b e => dropped.homeAmo (s.askerLaunch r) pa f z b e
  | .fe _ _ => (s, .ok 0 false)

/-- REMOTE_REQUEST_SERVE (12 R236, R237, R241, R245): a load, store or atomic is performed, or refused for translation,
protection, poison or fencing. -/
def execRemoteRequestServe (msg : Nat) (s : State) : Host.Outcome State Fault Refusal :=
  match s.landed msg with
  | some m =>
    match m.body with
    | .mem r =>
      let s1 := s.dropMsg msg
      match r.op, r.place with
      | .fe _ _, _ => idle s
      | op, .spad c off =>
        if s.excluded.contains c then .next (s1.memAnswer m.dst r (.refused cXLATE))
        else
          let x := (s.cell c).spad.perform off op
          .next ((s1.updCell c (fun y => { y with spad := x.1 })).memAnswer m.dst r x.2)
      | op, .global va =>
        match s.translate r.ctx.job va op.access with
        | .pa pa =>
          let s2 := if r.who.dev = s.device then s1.tlbUse r.who.cell r.ctx.job va else s1
          let x := s2.globalPerform r va pa
          .next (x.1.memAnswer m.dst r x.2)
        | .window _ _ => .next (s1.memAnswer m.dst r (.refused cPROTECT))
        | .fault cls => .next (s1.memAnswer m.dst r (.refused cls))
      | _, .device _ _ => .next (s1.memAnswer m.dst r (.refused cXLATE))
    | _ => idle s
  | none => idle s

/-- FE_REQUEST_SERVE (12 R242, R243): a full/empty request at the owning cell: performed at once, or waiting there. -/
def execFeRequestServe (msg : Nat) (s : State) : Host.Outcome State Fault Refusal :=
  match s.landed msg with
  | some m =>
    match m.body with
    | .mem r =>
      match r.op, r.place with
      | .fe f v, .spad c off =>
        let s1 := s.dropMsg msg
        if s.excluded.contains c then .next (s1.memAnswer m.dst r (.refused cXLATE))
        else
          let x := s1.feArrive c off f v r.who r.addr
          match x.2 with
          | .done w => .next (x.1.memAnswer m.dst r (.ok w false))
          | .poison => .next (x.1.memAnswer m.dst r (.refused cPOISON))
          | .waits => .next x.1
      | .fe _ _, _ => .next ((s.dropMsg msg).memAnswer m.dst r (.refused cXLATE))
      | _, _ => idle s
    | _ => idle s
  | none => idle s

/-! ## At the asker -/

/-- LOAD_REPLY_ARRIVE (12 R237, R238): the answer to what a fibre waits for: rd is written, or a fault is taken, exact. -/
def execLoadReplyArrive (msg : Nat) (s : State) : Host.Outcome State Fault Refusal :=
  match s.landed msg with
  | some m =>
    match m.body with
    | .memAns a =>
      if a.posted then idle s
      else
        let s1 := s.dropMsg msg
        let w := a.who
        let f := (s.cell w.cell).fibre w.slot
        if f.has w.fid then
          match f.status, a.res with
          | .parked (.reply id _ rd z acq len) _, .ok x bad =>
            if id ≠ w.id then .next s1
            else if bad then
              (if z = .dp then .next (s1.wakeWith w rd 1 none len) else .next (s1.trapAt w.cell w.slot cPOISON 0 a.addr))
            else .next (s1.wakeWith w rd (z.extend x.toNat) acq len)
          | .parked (.reply id _ _ _ _ _) _, .refused cls =>
            if id = w.id then .next (s1.trapAt w.cell w.slot cls 0 a.addr) else .next s1
          | .parked (.fe id _ rd acq len) _, .ok x _ =>
            if id = w.id then .next (s1.wakeWith w rd x acq len) else .next s1
          | .parked (.fe id _ _ _ _) _, .refused cls =>
            if id = w.id then .next (s1.trapAt w.cell w.slot cls 0 a.addr) else .next s1
          | _, _ => .next s1
        else .next s1
    | _ => idle s
  | none => idle s

/-- A fibre of that name, or one whose trap frame holds it. -/
def Fibre.named (f : Fibre) (fid : Nat) : Bool := f.body.fid == fid || (f.frame.map (·.fid)) == some fid

/-- A body changed where it has a name. -/
def FBody.onFid (fid : Nat) (g : FBody → FBody) (b : FBody) : FBody := if b.fid = fid then g b else b

/-- The fibre in a slot of a cell changed where it has a name: the running one, or the one in its trap frame. -/
def Cell.updByFid (c : Cell) (slot fid : Nat) (g : FBody → FBody) : Cell :=
  match c.fibres.find slot with
  | none => c
  | some f => c.setFibre slot { f with body := f.body.onFid fid g, frame := f.frame.map (FBody.onFid fid g) }

/-- Change the body of a fibre by its name: in its cell, in the record of a saved launch, or in the cell at which its
launch stands since (12 R260, 17 R352). -/
def State.updByFid (s : State) (w : Asker) (g : FBody → FBody) : State :=
  let it (c : Cell) : Bool := (c.fibre w.slot).named w.fid
  if it (s.cell w.cell) then s.updCell w.cell (fun c => c.updByFid w.slot w.fid g)
  else
    { s with
      cells := s.cells.map (fun e => (e.1, if it e.2 then e.2.updByFid w.slot w.fid g else e.2))
      launches := s.launches.map (fun e => (e.1, { e.2 with saved := e.2.saved.map (fun m =>
        { m with cells := m.cells.map (fun x => (x.1, if it x.2 then x.2.updByFid w.slot w.fid g else x.2)) }) })) }

/-- POSTED_ANSWER_ARRIVE (12 R258): a posted request has been performed. -/
def execPostedAnswerArrive (msg : Nat) (s : State) : Host.Outcome State Fault Refusal :=
  match s.landed msg with
  | some m =>
    match m.body with
    | .memAns a =>
      match a.posted, a.res with
      | true, .ok _ _ => .next ((s.dropMsg msg).updByFid a.who (fun b => { b with outst := b.outst - 1 }))
      | _, _ => idle s
    | _ => idle s
  | none => idle s

/-- Pending refusals are kept in ascending number (12 R259). -/
def insertRefusal (x : LateRefusal) : List LateRefusal → List LateRefusal
  | [] => [x]
  | y :: r => if x.seq.ult y.seq then x :: y :: r else y :: insertRefusal x r

/-- LATE_REFUSAL_ARRIVE (12 R237, R259, 18 R365): the word is known when the refused request began its window. -/
def execLateRefusalArrive (msg : Nat) (s : State) : Host.Outcome State Fault Refusal :=
  match s.landed msg with
  | some m =>
    match m.body with
    | .memAns a =>
      match a.posted, a.res with
      | true, .refused cls =>
        let g (b : FBody) : FBody :=
          let x : LateRefusal :=
            { seq := a.seq, addr := a.addr, cls := cls, word := if b.window.2 = a.seq then some b.window.1 else none }
          { b with outst := b.outst - 1, refusals := insertRefusal x b.refusals }
        .next (((s.dropMsg msg).count a.who.cell 23 1).updByFid a.who g)
      | _, _ => idle s
    | _ => idle s
  | none => idle s

/-- The lowest pending refusal of a fibre is delivered at its boundary (18 R365); at the end of a dropped task TRAPPC is
0. -/
def State.lateTrap (s : State) (c slot : Nat) : State :=
  let f := (s.cell c).fibre slot
  match f.body.refusals with
  | [] => s
  | x :: rest =>
    let b := { f.body with refusals := rest }
    let pc := if b.ending then 0 else b.pc
    s.takeTrap c slot b x.cls 0 x.addr (x.seq.setWidth 64) pc (x.word.getD 0) (if x.word.isSome then 2 else 3)

/-- The fibre stands at an instruction boundary, or is parked on OUTST at a FENCE, TEND or release (18 R355, R365). -/
def FStatus.boundary : FStatus → Bool
  | .ready => true
  | .parked (.retry .outst0 _ _) _ => true
  | _ => false

/-- LATE_TRAP_DELIVER (18 R365). -/
def execLateTrapDeliver (cell slot : Nat) (s : State) : Host.Outcome State Fault Refusal :=
  match (s.cell cell).fibres.find slot with
  | some f => if f.status.boundary && s.active cell then .next (s.lateTrap cell slot) else idle s
  | none => idle s

/-! ## Waits that are withdrawn (12 R243, 16 R323) -/

/-- An answer that ends a wait is on its way: the wait is over. -/
def State.answerComing (s : State) (w : Asker) : Bool :=
  s.net.any (fun m =>
    match m.body with
    | .memAns a => !a.posted && a.who == w
    | .spawnAns v _ => v == w
    | .amTaken v => v == w
    | .amReply v _ => v == w
    | _ => false)

/-- A message that carries the request of a wait. -/
def MsgBody.carries (b : MsgBody) (w : Asker) : Bool :=
  match b with
  | .mem r => r.who == w && !r.posted
  | .spawn v _ => v == w
  | .amReserve m => m.who == w
  | .amGrant m _ => m.who == w
  | .am m _ => m.who == w
  | _ => false

/-- The entry that a message of a wait has been granted and has not filled. -/
def MsgBody.grantOf (b : MsgBody) (w : Asker) : Option (Nat × Nat) :=
  match b with
  | .amGrant m e => if m.who = w then some (m.toCell, e) else none
  | .am m e => if m.who = w then some (m.toCell, e) else none
  | _ => none

/-- Take the request of a wait back from wherever it waits: the network, the owning cell of a full/empty word, a full
active-message queue. -/
def State.takeBack (s : State) (w : Asker) : State :=
  let grants := s.net.filterMap (fun m => m.body.grantOf w)
  let s1 : State :=
    { s with
      net := s.net.filter (fun m => !m.body.carries w)
      cells := s.cells.map (fun e =>
        (e.1, { e.2 with fe := e.2.fe.filter (fun q => q.who != w), amWaiting := e.2.amWaiting.filter (fun m => m.who != w) })) }
  grants.foldl (fun s g => s.freeEntry g.1 g.2) s1

/-- The request of a wait, or the entry of a message that still owes its reply, is here: it can be withdrawn. -/
def State.waitsHere (s : State) (w : Asker) : Bool :=
  s.net.any (fun m => m.body.carries w) ||
  s.cells.any (fun e => e.2.fe.any (fun q => q.who == w) || e.2.amWaiting.any (fun m => m.who == w) ||
    e.2.am.any (fun a => !a.2.free && a.2.valid && (a.2.reply || a.2.deleg) && a.2.from_ == w))

/-- A fibre no longer waits at its line; an arrival in a phase that is not complete no longer counts (16 R323). -/
def State.leaveLine (s : State) (fid : Nat) : State :=
  { s with
    lines := s.lines.map (fun e =>
      let gone := e.2.waiters.filter (fun w => w.who.fid = fid)
      let open_ := gone.filter (fun w => e.2.closed < w.phase)
      (e.1, { e.2 with
        waiters := e.2.waiters.filter (fun w => w.who.fid ≠ fid)
        arrivals := if e.2.kind = .barrier then e.2.arrivals - open_.length else e.2.arrivals })) }

/-- The party of a wait of a fibre. -/
def waitAsker (dev c slot : Nat) (f : Fibre) (id : Nat) : Asker :=
  { dev := dev, cell := c, slot := slot, fid := f.body.fid, id := id }

/-- The request number of a wait that has left the fibre. -/
def Park.id? : Park → Option Nat
  | .reply id _ _ _ _ _ => some id
  | .fe id _ _ _ _ => some id
  | .spawn id _ _ _ => some id
  | .amAccept id _ _ => some id
  | .amReply id _ _ _ _ _ _ => some id
  | _ => none

/-- The address of a wait that has left the fibre. -/
def Park.target : Park → Option Word
  | .reply _ a _ _ _ _ => some a
  | .fe _ a _ _ _ => some a
  | .spawn _ a _ _ => some a
  | .amAccept _ a _ => some a
  | .amReply _ a _ _ _ _ _ => some a
  | _ => none

/-- The other device at which a parked fibre waits. -/
def State.waitDevice (s : State) (c : Nat) (p : Park) : Option Nat :=
  p.target.bind (fun a => match s.resolve c none a 1 with
    | some (.remote d) => some d
    | _ => none)

/-- Another device is asked, once, to withdraw a wait (12 R243). -/
def State.recall (s : State) (d : Nat) (w : Asker) : State :=
  if s.recalls.contains w then s
  else ({ s with recalls := s.recalls ++ [w] } : State).sendFabric d .request (.withdraw w)

/-- The wait of a parked fibre is withdrawn; none when its answer is on its way. -/
def State.withdraw (s : State) (c slot : Nat) : Option State :=
  let f := (s.cell c).fibre slot
  match f.status with
  | .parked (.event _ _ _) _ => some (s.leaveLine f.body.fid)
  | .parked p _ =>
    match p.id? with
    | some id =>
      let w := waitAsker s.device c slot f id
      if s.answerComing w then none else some (s.takeBack w)
    | none => some s
  | _ => some s

/-- HANDLER_BUDGET_EXPIRE (04 R64, 18 R360, R364): a handler is aborted; the same of the trap handler of an engine,
unit or aborted handler is a nested trap. -/
def execHandlerBudgetExpire (cell slot : Nat) (s : State) : Host.Outcome State Fault Refusal :=
  match (s.cell cell).fibres.find slot with
  | none => idle s
  | some f =>
    if f.body.usedAt s.now < Config.handlerBudget then idle s
    else if f.body.kind.isHandler then .next (((s.withdraw cell slot).getD s).handlerAbort cell slot 0 0 0)
    else
      match f.body.kind with
      | .trap .fibre => idle s
      | .trap _ =>
        let t : TrapRegs :=
          { code := trapCode cHANDLER 0, pc := 0, detail := 0, seq := 0, stream := trapStream 0 0 5, written := false }
        .next (s.failLaunch cell (s.trapRecord cell t slot true (slot < 16)))
      | _ => idle s

/-- Wait kind and detail (18 Table 18.4). -/
def Park.limit : Park → Nat × Word
  | .retry _ kind detail => (kind, detail)
  | .counter k _ _ _ => (1, w64 k.val)
  | .reply _ a _ _ _ _ => (14, a)
  | .fe _ a _ _ _ => (4, a)
  | .spawn _ a _ _ => (14, a)
  | .amAccept _ a _ => (14, a)
  | .amReply _ a _ _ _ _ _ => (14, a)
  | .event a _ _ => (7, a)
  | .exch _ off => (10, off)
  | .copy _ => (11, 0)
  | .arm _ _ _ _ _ => (11, 0)

/-- The counters of a TOK as a wait detail (18 Table 18.4). -/
def tokDetail (u : TokUse) : Word :=
  match u.list with
  | [a] => w64 (65536 * a.val)
  | [a, b] => w64 (65536 * a.val + 256 * b.val)
  | [a, b, c] => w64 (65536 * a.val + 256 * b.val + c.val)
  | _ => 0

/-- Kind and detail of a stall of an engine that the wait limit covers (18 Table 18.4). -/
def EWait.limit : EWait → Option (Nat × Word)
  | .tok t => some (3, tokDetail t.use)
  | .skwait k _ _ => some (2, w64 k.val)
  | .chain n p _ _ clear _ _ _ => some (13, w64 (b2n clear + 2 * (n - 1) + 8 * p))
  | _ => none

/-- An engine's stall passes the limit: WAITLIMIT at issue. -/
def State.engineLimit (s : State) (c : Nat) (st : Stream) : State :=
  let e := (s.cell c).engOf st
  match e.wait.bind EWait.limit with
  | none => s
  | some (kind, detail) =>
    if e.waitSince + (s.launchOf c).waitlim ≤ s.now then
      let s1 : State := { s.count c 22 1 with cur := { cell := c, slot := 0, stream := st } }
      { s1.etrapSub cWAITLIMIT kind detail with cur := s.cur }
    else s

/-- Wait kind and detail of a parked fibre: for a wait on OUTST its value now (18 Table 18.4). -/
def Fibre.limit (f : Fibre) (p : Park) : Nat × Word :=
  match p with
  | .retry .outst0 _ _ => (15, w64 f.body.outst)
  | .retry .outstLow _ _ => (15, w64 f.body.outst)
  | _ => p.limit

/-- A parked fibre whose wait has been withdrawn takes WAITLIMIT. -/
def State.limitTrap (s : State) (c slot : Nat) (p : Park) : State :=
  let x := ((s.cell c).fibre slot).limit p
  (s.count c 22 1).trapAt c slot cWAITLIMIT x.1 x.2

/-- The wait limit acts at a cell: its launch runs, under a pre-empt request too (18 R371), and after a cancel for handlers
alone, which finish (03 R56). -/
def State.limits (s : State) (c slot : Nat) : Bool :=
  let l := s.launchOf c
  (s.cell c).launch.isSome && l.stage == .running && (!l.cancel || ((s.cell c).fibre slot).body.kind.isHandler)

/-- WAIT_LIMIT_EXPIRE (16 R323, 18 R358): the wait of a fibre, or with 256 and 257 the stall of the V or M stream, has
reached the limit: it is withdrawn and the party traps. A wait at another device is withdrawn there first (12 R243). -/
def execWaitLimitExpire (cell slot : Nat) (s : State) : Host.Outcome State Fault Refusal :=
  if !s.limits cell slot then idle s
  else if slot = 256 then .next (s.engineLimit cell .v)
  else if slot = 257 then .next (s.engineLimit cell .m)
  else
    let f := (s.cell cell).fibre slot
    match f.status with
    | .parked p since =>
      if since + (s.launchOf cell).waitlim ≤ s.now then
        match s.waitDevice cell p, p.id? with
        | some d, some id => .next (s.recall d (waitAsker s.device cell slot f id))
        | _, _ =>
          match s.withdraw cell slot with
          | some s1 => .next (s1.limitTrap cell slot p)
          | none => idle s
      else idle s
    | _ => idle s

/-- A fibre is saved at its word (06 R129). -/
def Fibre.save (f : Fibre) (now : Nat) : Fibre :=
  { f with status := .saved, body := { f.body.stopBudget now with stop := false }, parkSeq := none }

/-- Another device has withdrawn a wait: a fibre that is to be saved is, any other takes WAITLIMIT; where the answer is on
its way, or the message was not there yet, the wait goes on (12 R243, R260, 16 R323). -/
def State.waitWithdrawn (s : State) (w : Asker) (ok : Bool) : State :=
  let s1 : State := { s with recalls := s.recalls.filter (fun x => x != w) }
  let f := (s.cell w.cell).fibre w.slot
  match f.status with
  | .parked p _ =>
    if !ok || !f.has w.fid || p.id? != some w.id then s1
    else if f.body.stop then s1.updCell w.cell (fun c => c.setFibre w.slot (f.save s.now))
    else s1.limitTrap w.cell w.slot p
  | _ => s1

/-- A fibre stands between two instructions. -/
def Fibre.atBoundary (f : Fibre) (now : Nat) : Bool :=
  match f.status with
  | .ready => true
  | .issued t => decide (t ≤ now)
  | _ => false

/-- TASK_BUDGET_EXPIRE (18 R360): the task is saved under a pre-empt request, and takes WATCHDOG otherwise; under
IGNORE its budget starts anew (18 R356). -/
def execTaskBudgetExpire (cell slot : Nat) (s : State) : Host.Outcome State Fault Refusal :=
  let l := s.launchOf cell
  match (s.cell cell).fibres.find slot with
  | none => idle s
  | some f =>
    if f.body.kind ≠ .task ∨ !f.atBoundary s.now ∨ f.body.usedAt s.now < l.budget ∨ l.cancel then idle s
    else if l.preempt then
      .next (s.updCell cell (fun c => c.setFibre slot { f with status := .saved, body := f.body.stopBudget s.now }))
    else if trapAction l.actions cWATCHDOG = 2 then
      .next (s.updCell cell (fun c =>
        c.setFibre slot { f with body := { f.body with used := 0, since := some s.now } }))
    else .next (s.takeTrap cell slot f.body cWATCHDOG 0 (w64 l.budget) 0 f.body.pc f.body.pc 0)

/-- S_INSTRUCTION_COMPLETION (06 R108): the instruction in flight completes. -/
def execSInstructionCompletion (cell slot : Nat) (s : State) : Host.Outcome State Fault Refusal :=
  match (s.cell cell).fibres.find slot with
  | some f =>
    match f.status with
    | .issued t =>
      let s1 : State := { s with now := max s.now t }
      .next (s1.updCell cell (fun c => c.setFibre slot { f with status := .ready }))
    | _ => idle s
  | none => idle s

end Sys2Proof.Machine
end

