-- ==== Sys2Proof/Machine/ELine.lean ====
section
/-!
DEFINITION. The event units and the combining network at work (16 R331-R339, 07 R149).
-/

namespace Sys2Proof.Machine

open Sys2Proof

/-! ## Event lines (16 R331-R334) -/

/-- The body of a fibre that a party names: the running one, or the one in its trap frame. -/
def State.bodyOf (s : State) (w : Asker) : Option FBody :=
  match (s.cell w.cell).fibres.find w.slot with
  | none => none
  | some f => if f.body.fid = w.fid then some f.body else f.frame.filter (fun b => b.fid = w.fid)

/-- EVENT stores of a fibre that have not been applied. -/
def State.storesOf (s : State) (fid : Nat) : Nat :=
  (s.net.filter (fun m =>
    match m.body with
    | .eventStore w _ _ _ _ _ => w.fid == fid
    | _ => false)).length

/-- Every other posted request of the fibre has been answered: its store may act as a release. -/
def State.mayApply (s : State) (w : Asker) : Bool :=
  match s.bodyOf w with
  | some b => b.outst ≤ s.storesOf w.fid
  | none => true

/-- The store is a release at its line: an arrival, the freeing of a mutex, the setting of an event (16 Table 16.8). -/
def Line.releases (l : Line) (cfg : Bool) (v : Word) : Bool :=
  !cfg &&
  match l.kind with
  | .off => false
  | .barrier => true
  | .mutex => true
  | .event => v == 1

/-- The kind that a configuration value names (16 Table 16.7). -/
def lineKindOf (v : Word) : LineKind :=
  match fld v 1 0 with
  | 0 => .off
  | 1 => .barrier
  | 2 => .mutex
  | _ => .event

/-- Configure a line: its state starts anew and the fibres that wait there go on with all ones (16 R332). -/
def State.lineConfigure (s : State) (key : Nat) (v : Word) : State :=
  let l := s.line key
  let s1 := s.setLine key { Line.off with cfg := v, kind := lineKindOf v }
  let s2 := l.waiters.foldl (fun s w => s.lineWake w.who (BitVec.allOnes 64) l.scope) s1
  match (s.cell (clusterCell (key / 16))).launch with
  | some n => s2.updLaunch n (fun x => { x with lined := true })
  | none => s2

/-- Free a mutex: its oldest waiter takes it (16 Table 16.8). -/
def State.lineFree (s : State) (key : Nat) : State :=
  let l := s.line key
  match l.waiters with
  | w :: rest => (s.setLine key { l with waiters := rest }).lineWake w.who 0 .cluster
  | [] => s.setLine key { l with busy := false }

/-- Store to an EVENT line: 1 sets it and wakes every fibre that waits, 0 clears it (16 Table 16.8). -/
def State.lineSet (s : State) (key : Nat) (v : Word) : State :=
  let l := s.line key
  if v = 1 then
    l.waiters.foldl (fun s w => s.lineWake w.who 1 .cluster) (s.setLine key { l with set := true, waiters := [] })
  else if v = 0 then s.setLine key { l with set := false }
  else s

/-- A store is applied to its line (16 R332, R333). -/
def State.lineStore (s : State) (key : Nat) (cfg : Bool) (v : Word) : State :=
  if cfg then s.lineConfigure key v
  else
    match (s.line key).kind with
    | .off => s
    | .barrier => s.lineArrive key
    | .mutex => s.lineFree key
    | .event => s.lineSet key v

/-- EVENT_LINE_STORE_APPLY (16 R331): in issue order at the unit. -/
def execEventLineStoreApply (msg : Nat) (s : State) : Host.Outcome State Fault Refusal :=
  match s.net.find? (fun m => m.id = msg) with
  | some m =>
    match m.body with
    | .eventStore w seq cl line cfg v =>
      let earlier := (s.net.takeWhile (fun x => x.id != msg)).any (fun x =>
        match x.body with
        | .eventStore _ _ cl2 _ _ _ => cl2 == cl
        | _ => false)
      let key := 16 * cl + line.val
      let l := s.line key
      let rel := l.releases cfg v
      if earlier || (rel && !s.mayApply w) then idle s
      else
        let s1 := if rel && s.l1Scope w.cell l.scope then s.flushL1 (s.l1Cells w.cell) (fun _ => true) else s
        .next (((s1.dropMsg msg).lineStore key cfg v).respond m.dst w
          (.memAns { who := w, posted := true, seq := seq, pc := 0, addr := 0, res := .ok 0 false }))
    | _ => idle s
  | none => idle s

/-- PARENT_ARRIVAL (16 R334): a parent that is not a BARRIER line ignores it. -/
def execParentArrival (msg : Nat) (s : State) : Host.Outcome State Fault Refusal :=
  match s.deliverable msg with
  | some m =>
    match m.body with
    | .lineArrive p =>
      let s1 := s.dropMsg msg
      .next (if (s.line p).kind = .barrier then s1.lineArrive p else s1)
    | _ => idle s
  | none => idle s

/-- PARENT_RELEASE_ARRIVE (16 R334). -/
def execParentReleaseArrive (msg : Nat) (s : State) : Host.Outcome State Fault Refusal :=
  match s.deliverable msg with
  | some m =>
    match m.body with
    | .lineRelease k =>
      let l := s.line k
      let s1 := s.dropMsg msg
      .next (if l.kind = .barrier ∧ l.phase < l.closed then (s1.setLine k { l with phase := l.phase + 1 }).linePhase k
        else s1)
    | _ => idle s
  | none => idle s

/-! ## The combining network (16 R337-R339, 07 R149) -/

/-- The contributions to an operation of a group, of this device and of other parts, that have been made. -/
def State.contribsOf (s : State) (g : Group) (group m : Nat) : List Contrib :=
  let far := match (s.launch g.launch).key with
    | some k => (s.farContribs.filter (fun x => x.1 = k ∧ x.2.1 = group)).map (fun x => x.2.2)
    | none => []
  (g.contribs ++ far).filter (fun c => c.m = m)

/-- The contributions in the order of their index; none while one is missing. -/
def inOrder (n : Nat) (l : List Contrib) : Option (List Contrib) :=
  let a := (upFrom n 0).map (fun i => l.find? (fun c => c.who = i))
  if a.all Option.isSome then some (a.filterMap id) else none

/-- The result of an operation over values in contributor order (16 Table 16.9, 07 R149), and for QADD whether the
exact sum lies outside the I64 range. -/
def combine (op : CombOp) (v : List Word) : Word × Bool :=
  let f32 (f : W32 → W32 → W32) : Word :=
    ((treeFold f 32 (v.map (fun x => x.setWidth 32))).headD 0).setWidth 64
  let fold (f : Word → Word → Word) : Word := match v with
    | a :: r => r.foldl f a
    | [] => 0
  match op with
  | .iadd => (fold (· + ·), false)
  | .qadd =>
    let n : Int := v.foldl (fun n x => n + x.toInt) 0
    (BitVec.ofInt 64 n, decide (n < -(2 ^ 63) ∨ 2 ^ 63 ≤ n))
  | .fadd => (f32 f32Add, false)
  | .imin => (fold (fun a b => if b.slt a then b else a), false)
  | .imax => (fold (fun a b => if a.slt b then b else a), false)
  | .fmin => (f32 f32Min, false)
  | .fmax => (f32 f32Max, false)
  | .and => (fold (· &&& ·), false)
  | .or => (fold (· ||| ·), false)
  | .barrier => (0, false)

/-- Every plane's tree has failed for a launch that spans devices: all Turob ports are fenced (18 Table 18.9). -/
def State.noTree (s : State) (l : Launch) : Bool :=
  l.spread != [] && (upFrom 16 0).all (fun p => s.fencedFns.contains (3, p))

/-- Every plane's tree has failed for an operation: the launch cannot leave this device, or a contribution has been sent
over each of the 16 planes without an answer (16 R338, R339; log 81). -/
def State.treeFailed (s : State) (l : Launch) (group m : Nat) : Bool :=
  s.noTree l || s.fabricKept.any (fun k => decide (16 ≤ k.tries) && (match k.frame.body with
    | .contrib key g c => some key == l.key && g == group && c.m == m
    | _ => false))

/-- The result that every contributor gets (16 R338). -/
def State.combResult (s : State) (l : Launch) (group m : Nat) (c : List Contrib) : CombRes :=
  let op := (c.head?.map (·.op)).getD .barrier
  let v := combine op (c.map (·.value))
  let code := if s.treeFailed l group m then 1 else if c.all (fun x => x.op = op) then 0 else 3
  { group := group, m := m, code := code, op := op, value := v.1, ovf := v.2 }

/-- Give a result to every cell of a launch, or to its saved cells (16 R339). -/
def State.deliverResult (s : State) (n : Nat) (r : CombRes) : State :=
  let l := s.launch n
  let put (c : Cell) : Cell := { c with results := c.results ++ [r] }
  match l.saved with
  | some v => s.updLaunch n (fun x => { x with saved := some { v with cells := v.cells.map (fun e => (e.1, put e.2)) } })
  | none => (upFrom (l.w * l.h) 0).foldl (fun s i => s.updCell (l.physIdx i) put) s

/-- The contributions that an operation's result is made of: every contributor's, or, where every tree has failed, those
that are here (16 R337, R338). -/
def State.combInputs (s : State) (g : Group) (key m : Nat) : Option (List Contrib) :=
  let l := s.launch g.launch
  match inOrder l.contributors (s.contribsOf g (key % 16) m) with
  | some c => some c
  | none => if s.treeFailed l (key % 16) m && g.contribs.any (fun c => c.m == m) then some (g.contribs.filter (fun c => c.m = m)) else none

/-- COMBINE_RESULT_ARRIVE (16 R337, R339): once every contributor has contributed, or every tree has failed. -/
def execCombineResultArrive (key m : Nat) (s : State) : Host.Outcome State Fault Refusal :=
  match s.groups.find key with
  | none => idle s
  | some g =>
    let l := s.launch g.launch
    match s.combInputs g key m with
    | none => idle s
    | some c =>
      let s1 : State :=
        { s with
          groups := s.groups.put key { g with contribs := g.contribs.filter (fun x => x.m != m) }
          farContribs := s.farContribs.filter (fun x => !(some x.1 == l.key && x.2.1 == key % 16 && x.2.2.m == m)) }
      .next (s1.deliverResult g.launch (s.combResult l (key % 16) m c))

/-- COMBINE_REDO (16 R339): the operation runs again from the kept operands over another plane's tree, which has the
same shape: only the die monitor shows it. -/
def execCombineRedo (key _m : Nat) (s : State) : Host.Outcome State Fault Refusal :=
  if (s.groups.find key).isSome then .next (s.countDies 23 1) else idle s

end Sys2Proof.Machine
end

