-- ==== Sys2Proof/Machine/ELaunch.lean ====
section
/-!
DEFINITION. Launches: header, role map and channel table, admission and placement, the start of cells, retirement, save
and resume (02 R28-R35, 03 R52-R54, 04 R59, 18 R367-R371, 19 R377).
-/

namespace Sys2Proof.Machine

open Sys2Proof

/-! ## Kernel header, role map, channel table (02 R28-R34) -/

/-- One bit of CRC-32C (02 Table 2.1). -/
def crc32Bit (x : BitVec 32) : BitVec 32 := if x.getLsbD 0 then (x >>> 1) ^^^ 0x82F63B78 else x >>> 1

/-- A byte of CRC-32C. -/
def crc32Byte (x : BitVec 32) (b : Byte) : BitVec 32 :=
  crc32Bit (crc32Bit (crc32Bit (crc32Bit (crc32Bit (crc32Bit (crc32Bit (crc32Bit (x ^^^ b.setWidth 32))))))))

/-- CRC-32C of bytes (02 Table 2.1). -/
def crc32c (l : List Byte) : Nat := (~~~ l.foldl crc32Byte (BitVec.allOnes 32)).toNat

/-- A signed field of `n` bytes. -/
def bAtS (l : List Byte) (i n : Nat) : Int :=
  let x := bAt l i n
  if x < 2 ^ (8 * n - 1) then x else (x : Int) - 2 ^ (8 * n)

/-- The first check that fails, by its offset. -/
def firstBad (l : List (Bool × Nat)) : Option Nat := (l.find? (fun x => x.1)).map Prod.snd

/-- Classes that may be ignored: COUNTER, WATCHDOG, BREAK, USER (18 R356). -/
def mayIgnore (c : Nat) : Bool := c = cCOUNTER || c = cWATCHDOG || c = cBREAK || c = cUSER

/-- The trap-action word breaks 02 R31. -/
def actionsBad (a handler : Nat) : Bool :=
  nfld a 63 52 != 0 || nfld a 1 0 != 0 ||
  (upFrom 25 1).any (fun c =>
    let x := nfld a (2 * c + 1) (2 * c)
    x = 3 || (x = 1 && handler = 0) || (x = 2 && !mayIgnore c))

/-- The first field of a header that breaks 02 R29-R31, in the order of R29. `spread` is set for a spread submission. -/
def headerBad (h : List Byte) (spread : Bool) : Option Nat :=
  let roles := bAt h 0x2A 1
  let chans := bAt h 0x2B 1
  firstBad [
    (bAt h 0 4 != 0x4839534B, 0x00),
    (bAt h 4 2 != 1, 0x04),
    (bAt h 0x3C 4 != crc32c (h.take 60), 0x3C),
    (nfld (bAt h 6 2) 15 6 != 0 || (spread && !(bAt h 6 2).testBit 5), 0x06),
    (bAt h 8 8 % 4 != 0, 0x08),
    (bAt h 0x10 8 % 4 != 0, 0x10),
    (actionsBad (bAt h 0x18 8) (bAt h 0x10 8), 0x18),
    (bAt h 0x28 1 = 0 || 24 < bAt h 0x28 1, 0x28),
    (bAt h 0x29 1 = 0 || 32 < bAt h 0x29 1, 0x29),
    (16 < roles || (roles = 0) != (bAt h 0x20 4 = 0) || (roles != 0 && bAt h 8 8 != 0), 0x2A),
    ((chans = 0) != (bAt h 0x24 4 = 0), 0x2B),
    (4096 < bAt h 0x2C 2, 0x2C),
    (if roles = 0 then bAt h 0x2E 1 = 0 || 64 < bAt h 0x2E 1 else bAt h 0x2E 1 != 0, 0x2E),
    (bAt h 0x2F 1 != 0, 0x2F),
    (bAt h 0x30 4 != 0 && bAt h 0x30 4 < 1024, 0x30),
    (bAt h 0x34 4 != 0 && bAt h 0x34 4 < 10000, 0x34)]

/-- The first byte of a role map that breaks 02 R33: descriptors, then cell bytes. -/
def roleMapBad (m : List Byte) (roles cells : Nat) : Option Nat :=
  firstBad (
    (upFrom roles 0).flatMap (fun i =>
      [(bAt m (8 * i) 4 % 4 != 0, 8 * i),
       (bAt m (8 * i + 4) 1 = 0 || 64 < bAt m (8 * i + 4) 1, 8 * i + 4),
       (nfld (bAt m (8 * i) 8) 63 41 != 0, 8 * i + 5)]) ++
    (upFrom (if roles = 0 then 0 else cells) 0).map (fun i => (decide (roles ≤ bAt m (8 * roles + i) 1), 8 * roles + i)))

/-- Word 0 of entry `i` of a channel table (02 Table 2.5). -/
def chanW0 (t : List Byte) (i : Nat) : Nat := bAt t (16 * i) 8

/-- The (cell, endpoint) pairs of an entry: the sender's, when its kind is a cell, and the receiver's. -/
def chanPairs (t : List Byte) (i : Nat) : List (Nat × Nat) :=
  let w := chanW0 t i
  (if nfld w 15 14 = 0 then [(nfld w 9 0, nfld w 13 10)] else []) ++ [(nfld w 25 16, nfld w 29 26)]

/-- The slot array of an entry: cell, offset, size. -/
def chanArray (t : List Byte) (i : Nat) : Nat × Nat × Nat :=
  let w := chanW0 t i
  (nfld w 25 16, bAt t (16 * i + 8) 8 % 2 ^ 20, (nfld w 43 38 + 1) * (64 * (nfld w 37 32 + 1)))

/-- The checks of entry `i` of a channel table in ascending offset (02 R34). -/
def chanChecks (t : List Byte) (cells : Nat) (router : Bool) (i : Nat) : List (Bool × Nat) :=
  let w := chanW0 t i
  let kind := nfld w 15 14
  let before := (upFrom i 0).flatMap (chanPairs t)
  let a := chanArray t i
  let snd := (nfld w 9 0, nfld w 13 10)
  let rcv := (nfld w 25 16, nfld w 29 26)
  [(decide (cells ≤ nfld w 9 0), 16 * i),
   (2 ≤ kind || (kind = 1 && (nfld w 13 0 != 0 || !router)) || (kind = 0 && before.contains snd), 16 * i + 1),
   (decide (cells ≤ nfld w 25 16), 16 * i + 2),
   ((kind = 1 && nfld w 29 26 != 0) || nfld w 31 30 != 0 || before.contains rcv || (kind = 0 && snd == rcv), 16 * i + 3),
   (nfld w 63 49 != 0, 16 * i + 6),
   (a.2.1 % 64 != 0 || Config.hwArea < a.2.1 + a.2.2 ||
     (upFrom i 0).any (fun j =>
       let b := chanArray t j
       b.1 = a.1 && a.2.1 < b.2.1 + b.2.2 && b.2.1 < a.2.1 + a.2.2), 16 * i + 8),
   (nfld (bAt t (16 * i + 8) 8) 63 20 != 0, 16 * i + 0xA)]

/-- The first byte of a channel table that breaks 02 R34. -/
def chanBad (t : List Byte) (n cells : Nat) (router : Bool) : Option Nat :=
  firstBad ((upFrom n 0).flatMap (chanChecks t cells router))

/-- The copies of a launch (02 R32). -/
structure LaunchCopy where
  hdr : List Byte
  roles : List Byte
  chans : List Byte
  deriving DecidableEq, Repr

/-- A GLOBAL address plus a signed offset. -/
def vaOff (va : Nat) (o : Int) : Nat := ((va : Int) + o).toNat

/-! ## Copies of structures that may be being written (02 R32, R38) -/

/-- What a WRITE of a host's payload puts into the byte at a physical address of its job, one of the pages that it
covers at a time. -/
def State.writeByte (s : State) (job pa : Nat) (d : List Byte) : List Byte :=
  let va := bAt d 0 8
  let n := d.length - 8
  ((upFrom (n / 65536 + 2) (va / 65536)).filterMap (fun p =>
    match s.translate job (65536 * p) .write with
    | .pa q =>
      let at_ := 65536 * p + (pa - q)
      if q ≤ pa ∧ pa < q + 65536 ∧ va ≤ at_ ∧ at_ < va + n then d[8 + (at_ - va)]? else none
    | _ => none))

/-- The values that writes in progress will give the byte at a physical address: WRITEs of hosts that have arrived and
not been performed, and stores on their way to its home. -/
def State.inProgress (s : State) (pa : Nat) : List Byte :=
  s.sessions.flatMap (fun e => match e.2.ready, e.2.job with
    | some (3, d), some j => s.writeByte j pa d
    | _, _ => []) ++
  s.net.filterMap (fun m => match m.body with
    | .mem r =>
      match r.place, r.op with
      | .global va, .store n x _ =>
        match s.translate r.ctx.job va .write with
        | .pa q => if q ≤ pa ∧ pa < q + n then some ((x >>> (8 * (pa - q))).setWidth 8) else none
        | _ => none
      | _, _ => none
    | _ => none)

/-- Byte `i` of a copy: what memory holds, or by the spec's leave what a write in progress will put there (02 R32, R38). -/
def State.copyByte (s : State) (job va i : Nat) (b : Byte) : Byte :=
  match s.translate job (va + i) .read with
  | .pa pa =>
    match s.inProgress pa with
    | [] => b
    | l => (b :: l).getD (Config.pick s.fresh 3 (va + i) % (l.length + 1)) b
  | _ => b

/-- Copy bytes of a structure in GLOBAL memory of a job while they may be being written (02 R32, R38). -/
def State.gcopy (s : State) (job va n : Nat) : Except (Nat × Nat) (List Byte) :=
  match s.gread job va n with
  | .ok b =>
    .ok (if s.sessions.all (fun e => (e.2.ready.map Prod.fst) != some 3) && s.net.isEmpty then b
      else ((upFrom n 0).zip b).map (fun e => s.copyByte job va e.1 e.2))
  | e => e

/-- Read and check the structures of a launch (02 R29): its copies, or a completion status and detail. A page that is
mapped and not readable ends it with XLATE, as an unmapped one does; 03 Table 3.4 does not name that case (DESIGN CHOICE,
log 72). -/
def State.readLaunch (s : State) (job va : Nat) (spread : Bool) : Except (Nat × Nat) LaunchCopy :=
  if va % 64 ≠ 0 then .error (8, va)
  else
    match s.gcopy job va 64 with
    | .error e => .error (8, e.2)
    | .ok h =>
      match headerBad h spread with
      | some o => .error (1, o)
      | none =>
        let cells := bAt h 0x28 1 * bAt h 0x29 1
        let roles := bAt h 0x2A 1
        let chans := bAt h 0x2B 1
        match s.gcopy job (vaOff va (bAtS h 0x20 4)) (if roles = 0 then 0 else 8 * roles + cells) with
        | .error e => .error (8, e.2)
        | .ok m =>
          match roleMapBad m roles cells with
          | some o => .error (1, 2 ^ 32 + o)
          | none =>
            match s.gcopy job (vaOff va (bAtS h 0x24 4)) (16 * chans) with
            | .error e => .error (8, e.2)
            | .ok t =>
              match chanBad t chans cells ((bAt h 6 2).testBit 3) with
              | some o => .error (1, 2 ^ 33 + o)
              | none => .ok { hdr := h, roles := m, chans := t }

/-! ## The launch that copies describe -/

/-- Initial tasks of a role (02 Tables 2.1 and 2.4). -/
def LaunchCopy.tasks (c : LaunchCopy) (r : Nat) : Nat :=
  if bAt c.hdr 0x2A 1 = 0 then bAt c.hdr 0x2E 1 else bAt c.roles (8 * r + 4) 1

/-- Entry of a role. -/
def LaunchCopy.entry (c : LaunchCopy) (va r : Nat) : Word :=
  if bAt c.hdr 0x2A 1 = 0 then w64 (bAt c.hdr 8 8) else BitVec.ofInt 64 ((va : Int) + bAtS c.roles (8 * r) 4)

/-- Role of a logical cell. -/
def LaunchCopy.role (c : LaunchCopy) (i : Nat) : Nat :=
  if bAt c.hdr 0x2A 1 = 0 then 0 else bAt c.roles (8 * bAt c.hdr 0x2A 1 + i) 1

/-- The launch of a job that copies describe, without a place (02, 03 R52, 06 R125, 10 R215). -/
def LaunchCopy.launch (c : LaunchCopy) (j : Job) (job va : Nat) (arg : Word) : Launch :=
  let h := c.hdr
  let w := bAt h 0x28 1
  let n := w * bAt h 0x29 1
  let flags : BitVec 16 := BitVec.ofNat 16 (bAt h 6 2)
  let priv := 256 * bAt h 0x2C 2
  let idx := upFrom n 0
  let tasks := idx.foldl (fun t i => t + c.tasks (c.role i)) 0
  { Launch.zero with
    job := job
    w := w
    h := bAt h 0x29 1
    kernelId := BitVec.ofNat 32 (bAt h 0x38 4)
    roleCount := bAt h 0x2A 1
    roles := idx.map c.role
    nosteal := (upFrom (bAt h 0x2A 1) 0).map (fun r => (bAt c.roles (8 * r + 5) 1).testBit 0)
    flags := flags
    actions := w64 (bAt h 0x18 8)
    handlerPc := w64 (bAt h 0x10 8)
    privSize := priv
    reserve := if flags.getLsbD 0 then tasks * priv else n * priv
    budget := if bAt h 0x34 4 = 0 then 140000 else bAt h 0x34 4
    waitlim := if bAt h 0x30 4 = 0 then 16777216 else bAt h 0x30 4
    umbra := j.umbra = 1 || (j.umbra = 2 && flags.getLsbD 2)
    arg := arg
    hdrVa := va
    hdr := c.hdr
    roleMap := c.roles
    chanTab := c.chans }

/-- The copies that a launch holds. -/
def Launch.copies (l : Launch) : LaunchCopy := { hdr := l.hdr, roles := l.roleMap, chans := l.chanTab }

/-- Shadow records of a launch of a job (18 R369). -/
def Job.shadow (j : Job) (l : Launch) : Nat := if j.preemptible then l.w * l.h * 1310720 + 65536 else 0

/-! ## Placement (03 R52, R53) -/

/-- A launch occupies its rectangle. -/
def Launch.placed (l : Launch) : Bool :=
  match l.stage with
  | .saved _ => false
  | _ => true

/-- The first origin in the order of 03 R52 that a test accepts. -/
def firstOrigin (w h : Nat) (ok : Nat → Nat → Bool) : Option (Nat × Nat) :=
  (upFrom (Config.rows + 1 - h) 0).findSome? (fun row =>
    ((upFrom (Config.cols + 1 - w) 0).find? (fun col => ok col row)).map (fun col => (col, row)))

/-- Physical cells of a rectangle. -/
def rectCells (col row w h : Nat) : List Nat :=
  (upFrom h row).flatMap (fun r => (upFrom w col).map (fun c => c + Config.cols * r))

/-- A physical cell lies in a rectangle. -/
def inRect (r : Nat × Nat × Nat × Nat) (c : Nat) : Bool :=
  r.1 ≤ c % Config.cols && c % Config.cols < r.1 + r.2.2.1 && r.2.1 ≤ c / Config.cols && c / Config.cols < r.2.1 + r.2.2.2

/-- A cell is usable, held by no launch, and not held for another work than `w` (03 R52, R53). -/
def State.cellFree (s : State) (w : Option Nat) (c : Nat) : Bool :=
  !s.excluded.contains c && (s.cell c).launch.isNone &&
  !s.works.any (fun e => some e.1 != w &&
    match e.2.hold with
    | some r => inRect r c
    | none => false)

/-- Dies of a rectangle, rising. -/
def rectDies (col row w h : Nat) : List Nat := (rectCells col row w h).foldl (fun a c => setAdd a (dieOf c)) []

/-- An Exchange Engine is held by a launch (14 R11). -/
def State.exchHeld (s : State) (die : Nat) : Bool :=
  s.launches.any (fun e => e.2.placed && e.2.flags.getLsbD 4 && e.2.dies.contains die)

/-- The Routers and Exchange Engines that a launch needs at a place are free (03 R52). -/
def State.unitsFree (s : State) (l : Launch) (col row : Nat) : Bool :=
  (rectDies col row l.w l.h).all (fun d =>
    (!l.flags.getLsbD 3 || (s.router d).launch.isNone) && (!l.flags.getLsbD 4 || !s.exchHeld d))

/-- A Router or Exchange Engine that a launch needs at a place has been fenced (18 Table 18.9). -/
def State.unitFenced (s : State) (l : Launch) (col row : Nat) : Option (Nat × Nat) :=
  let dies := rectDies col row l.w l.h
  s.fencedFns.find? (fun f =>
    dies.contains f.2 && ((f.1 = 1 && l.flags.getLsbD 3) || (f.1 = 2 && l.flags.getLsbD 4)))

/-- Shadow pool bytes that the launches of a job have reserved (18 R369). -/
def State.shadowUsed (s : State) (job : Nat) : Nat :=
  (s.jobLaunches job).foldl (fun n l => n + (s.job job).shadow l) 0

/-- The job's pool and shadow pool have room for a launch (03 R52, 18 R369). -/
def State.roomFor (s : State) (l : Launch) : Bool :=
  let j := s.job l.job
  l.reserve ≤ s.poolFree l.job && s.shadowUsed l.job + j.shadow l ≤ j.shadowSize + (if j.preemptible then 0 else 2 ^ 64)

/-- A launch that can never be admitted: its status (03 R52, 18 R369). -/
def State.neverFits (s : State) (l : Launch) : Option Nat :=
  let j := s.job l.job
  if j.poolSize < l.reserve then some (if l.flags.getLsbD 0 then 2 else 11)
  else if j.preemptible ∧ j.shadowSize < j.shadow l then some 11
  else if (firstOrigin l.w l.h (fun c r => (rectCells c r l.w l.h).all (fun x => !s.excluded.contains x))).isNone then
    some 9
  else none

/-- The first address of a job's private pool that is not mapped, when the launch takes a reservation (03 R58; log 25). -/
def State.poolUnmapped (s : State) (l : Launch) : Option Nat :=
  let j := s.job l.job
  if l.privSize = 0 then none
  else
    ((upFrom ((j.poolBase + j.poolSize - 1) / 65536 + 1 - j.poolBase / 65536) (j.poolBase / 65536)).find? (fun p =>
      (j.walk (65536 * p) 3).isNone)).map (fun p => max j.poolBase (65536 * p))

/-- What an attempt at admission finds. -/
inductive Verdict where
  | fails (status detail : Nat)
  | waits
  /-- No rectangle: pre-emption may make one (03 R53). -/
  | noPlace
  | fits (col row : Nat)
  deriving DecidableEq, Repr

/-- A saved launch may take an origin (03 R53, 16 R335). -/
def Launch.mayTake (l : Launch) (col row : Nat) : Bool :=
  !l.lined || (col % 2 = l.col0 % 2 && row % 4 = l.row0 % 4)

/-- Where a launch can be placed now, for work `w` (03 R52, R53). -/
def State.placeFor (s : State) (w : Option Nat) (l : Launch) (resume : Bool) : Verdict :=
  let ok (c r : Nat) : Bool :=
    (rectCells c r l.w l.h).all (fun x => s.cellFree w x) && (!resume || l.mayTake c r)
  let hold := (w.bind s.works.find).bind (·.hold)
  let at_ := match hold with
    | some r => if ok r.1 r.2.1 then some (r.1, r.2.1) else none
    | none => firstOrigin l.w l.h ok
  match at_ with
  | none => if hold.isSome then .waits else .noPlace
  | some (c, r) =>
    match s.unitFenced l c r with
    | some f => .fails 10 (Config.fenceDetail f.1 f.2)
    | none => if s.unitsFree l c r && (resume || s.roomFor l) then .fits c r else .waits

/-! ## The start of a launch (04 R59, 06 R125) -/

/-- The endpoints of a logical cell by the channel table (16 R324). -/
def chanEndpoints (t : List Byte) (n i : Nat) : Vector Endpoint 16 :=
  (upFrom n 0).foldl (fun (v : Vector Endpoint 16) j =>
    let w := chanW0 t j
    let slots := nfld w 43 38 + 1
    let size := 64 * (nfld w 37 32 + 1)
    let v1 :=
      if nfld w 15 14 = 0 ∧ nfld w 9 0 = i then
        v.set (Fin.ofNat 16 (nfld w 13 10))
          { Endpoint.unused with side := .sender, slots := slots, size := size, peer := some (nfld w 25 16), peerEp := nfld w 29 26 }
      else v
    if nfld w 25 16 = i then
      v1.set (Fin.ofNat 16 (nfld w 29 26))
        { Endpoint.unused with
          side := .receiver
          slots := slots
          size := size
          peer := if nfld w 15 14 = 0 then some (nfld w 9 0) else none
          peerEp := nfld w 13 10
          count := slots
          array := (chanArray t j).2.1
          k := Fin.ofNat 32 (nfld w 48 44) }
    else v1) (Vector.replicate 16 .unused)

/-- A cell of a launch at admission: its deque filled with ordinal 0 at the hot end (04 R59). -/
def Launch.startCell (l : Launch) (n i now : Nat) : Cell :=
  let c := l.copies
  let r := c.role i
  let tasks := c.tasks r
  let x := i % l.w
  let y := i / l.w
  { Cell.idle with
    launch := some n
    x := x
    y := y
    role := r
    cbase := now
    chans := chanEndpoints l.chanTab (bAt l.hdr 0x2B 1) i
    deque := (upFrom tasks 0).map (fun o =>
      { task :=
          { pc := c.entry l.hdrVa r
            a0 := l.arg
            a1 := w64 (r + 256 * (tasks - 1 - o))
            a2 := w64 x
            a3 := w64 y }
        entered := now }) }

/-- Physical cells of a launch, by logical index. -/
def Launch.cells (l : Launch) : List Nat := (upFrom (l.w * l.h) 0).map l.physIdx

/-- Event lines of the clusters of cells start OFF, or are given up. -/
def State.clearLines (s : State) (cells : List Nat) : State :=
  { s with lines := s.lines.filter (fun e => !cells.contains (clusterCell (e.1 / 16))) }

/-- Take the Routers of a launch (03 R52, 14 R282). -/
def State.takeRouters (s : State) (n : Nat) (l : Launch) : State :=
  if l.flags.getLsbD 3 then
    l.dies.foldl (fun s d => s.setRouter d { Router.idle with launch := some n }) s
  else s

/-- Place a launch: its cells are held and filled in the same step (03 R52, 04 R59). -/
def State.placeLaunch (s : State) (n : Nat) (l : Launch) : State :=
  let s1 : State := { s with launches := s.launches.put n l }
  let s2 := (upFrom (l.w * l.h) 0).foldl (fun s i => s.setCell (l.physIdx i) (l.startCell n i s.now)) s1
  (s2.clearLines l.cells).takeRouters n l

/-! ## Giving up what a launch holds -/

/-- A message belongs to a launch's cells or Routers. -/
def Msg.touches (m : Msg) (cells dies : List Nat) : Bool :=
  let node (x : Node) : Bool := match x with
    | .cell c => cells.contains c
    | .router d => dies.contains d
    | .line k => cells.contains (clusterCell (k / 16))
    | _ => false
  node m.src || node m.dst

/-- Give up what a launch holds beside its place: its queued EXSENDs and its combining groups (16 R337). -/
def State.freeShared (s : State) (n : Nat) : State :=
  let l := s.launch n
  { s with
    exch := s.exch.filter (fun x => x.req.launch != n)
    farSlots := s.farSlots.filter (fun x => some x.1 != l.key)
    groups := s.groups.filter (fun e => e.2.launch != n)
    farContribs := s.farContribs.filter (fun x => some x.1 != l.key) }

/-- An answer to a posted request. -/
def MsgBody.postedAnswer : MsgBody → Bool
  | .memAns a => a.posted
  | _ => false

/-- A posted request: it is performed or refused at its home whether or not its launch is saved (17 R352). -/
def MsgBody.isPosted : MsgBody → Bool
  | .mem r => r.posted
  | _ => false

/-- The spread launch that a message between its parts belongs to. -/
def MsgBody.key? : MsgBody → Option (Nat × Nat)
  | .mem r => r.ctx.key
  | .amReserve m => m.ctx.key
  | .am m _ => m.ctx.key
  | .bulkRead ctx _ _ _ _ => ctx.key
  | .bulkWrite ctx _ _ _ _ _ => ctx.key
  | .packet _ _ _ _ _ _ _ _ _ _ _ org => org.key
  | .notice _ _ _ _ _ org => org.key
  | .retRow _ _ _ _ _ _ _ _ _ org => org.key
  | .exDemand key _ => some key
  | .exSlots key _ _ => some key
  | .exAbandon key _ _ _ => some key
  | .exFast key _ _ _ _ => some key
  | _ => none

/-- Free the place of a launch: its cells, Routers, Exchange Engines and event lines, with what is on its way there (03
R56, 18 R367, 19 R377). What a saved launch goes on with stays. -/
def State.freeUnits (s : State) (n : Nat) : State :=
  let l := s.launch n
  let cells := l.cells
  let s1 := s.clearLines cells
  { s1 with
    cells := s1.cells.filter (fun e => e.2.launch != some n)
    net := s1.net.filter (fun m =>
      m.body.postedAnswer || !m.touches cells (if l.flags.getLsbD 3 then l.dies else []))
    routers := s1.routers.filter (fun e => e.2.launch != some n)
    rounds := s1.rounds.filter (fun r => r.launch != n) }

/-- A launch is over: everything it holds is given up, and what a cancelled one wrote is undefined (03 R56). -/
def State.dropLaunch (s : State) (n : Nat) : State :=
  let l := s.launch n
  let s1 := if l.cancel && l.placed then s.flushL1 l.cells (fun _ => true) else s
  let s2 := s1.settle n l.cancel (((l.work.bind s.works.find).bind (·.node)).map Prod.fst)
  let s3 := (if l.placed then s2.freeUnits n else s2).freeShared n
  { s3 with launches := s3.launches.del n }

/-! ## Retirement (19 R377) -/

/-- The exchange work of a cell is over. -/
def State.exchQuiet (s : State) (n idx : Nat) : Bool :=
  !s.exch.any (fun x => x.req.launch == n && x.req.device == s.device && x.req.idx == idx)

/-- Nothing is on its way to or from a cell but answers to posted requests, which are kept for it (17 R352). -/
def State.netSavable (s : State) (c : Nat) : Bool := !s.net.any (fun m => m.touches [c] [] && !m.body.postedAnswer)

/-- No message to or from a cell is on its way. -/
def State.netQuiet (s : State) (c : Nat) : Bool := !s.net.any (fun m => m.touches [c] [])

/-- Nothing that a cell started can still change memory, but for dirty bytes in its L1 (19 R377). -/
def State.cellQuiet (s : State) (c : Nat) : Bool :=
  let x := s.cell c
  let eng (e : Engine) : Bool := e.run.isNone && e.forks.isEmpty && e.drained
  x.deque.isEmpty && x.fibres.isEmpty && eng x.v.eng && eng x.m.eng && !x.m.running && x.traps.isEmpty &&
  x.copy.fifo.isEmpty && x.copy.xfers.isEmpty && x.copy.comps.isEmpty &&
  x.copy.slots.all (fun e => !e.2.armed && e.2.pending == 0) &&
  x.am.all (fun e => e.2.free) && x.amWaiting.isEmpty && x.fe.isEmpty &&
  (x.steal.phase == .idle || (match x.steal.phase with | .backoff _ => true | _ => false)) &&
  s.netQuiet c && s.exchQuiet (x.launch.getD 0) (x.idx (s.launchOf c))

/-- An engine stands at a point at which a cancel or pre-emption may stop it (05 R90, 08 R180, 09 R202, 10 R212). -/
def Engine.stoppable (e : Engine) : Bool :=
  e.tok.isNone || e.wait.isSome

/-- The array stands at such a point: MMAS at the end of the chunk in which the request was seen (10 R212). -/
def MUnit.stoppable (m : MUnit) : Bool :=
  m.eng.stoppable && (match m.word? with | some (.mmas _ _ _ _ _ _ _ _ halted _) => halted | _ => true)

/-- A wait whose request has left the cell and completes first (12 R260). -/
def Park.completes : Park → Bool
  | .reply _ _ _ _ _ _ => true
  | .spawn _ _ _ _ => true
  | .amAccept _ _ _ => true
  | .amReply _ _ _ _ deleg accepted _ => !deleg || accepted
  | _ => false

/-- Every agent of a cell of a cancelled launch stands where the cancel stops it (03 R56); a fenced cell stands still. -/
def State.cellStopped (s : State) (c : Nat) : Bool :=
  let x := s.cell c
  s.excluded.contains c ||
  x.fibres.all (fun e => !e.2.body.kind.isHandler && (match e.2.status with
    | .issued _ => false
    | .parked p _ => !p.completes
    | _ => true)) &&
  x.v.eng.stoppable && x.m.stoppable

/-- The cell has nothing left to do for its launch. -/
def State.mayRetire (s : State) (c : Nat) : Bool :=
  if (s.launchOf c).cancel then s.cellStopped c else s.active c && s.cellQuiet c

/-- The L1s that serve a cell hold nothing that is not performed at SYSTEM scope. -/
def State.l1Clean (s : State) (c : Nat) : Bool := (s.l1Cells c).all (fun d => (s.cell d).l1.all (fun x => x.dirty == 0))

/-- CELL_RETIRE (19 R377): a cell that has worked again after it retired retires again. The cell's writes are performed at SYSTEM scope and it retires. -/
def execCellRetire (cell : Nat) (s : State) : Host.Outcome State Fault Refusal :=
  match (s.cell cell).launch with
  | none => idle s
  | some n =>
    let i := (s.cell cell).idx (s.launch n)
    if ((s.launch n).retired.contains i && s.l1Clean cell) || !s.mayRetire cell then idle s
    else
      .next ((s.flushL1 (s.l1Cells cell) (fun _ => true)).updLaunch n (fun l => { l with retired := setAdd l.retired i }))

/-- Every cell of a launch on this device has retired and is still quiet, or the launch is saved and cancelled. -/
def State.allRetired (s : State) (n : Nat) : Bool :=
  let l := s.launch n
  if l.placed then
    (upFrom (l.w * l.h) 0).all (fun i => l.retired.contains i && s.mayRetire (l.physIdx i) && (l.cancel || s.l1Clean (l.physIdx i))) &&
    (l.cancel || l.stage == .running)
  else l.cancel

/-- The Routers of a launch deliver their histogram counts (14 R285). -/
def State.flushRouters (s : State) (n : Nat) : State :=
  let l := s.launch n
  (s.routers.filter (fun e => e.2.launch = some n)).foldl (fun s e => s.flushHist l.job e.1) s

/-- Status, detail and trap record of a launch that has ended (03 Table 3.4, 19 Table 19.2). -/
def Launch.outcome (l : Launch) : Nat × Nat × List Byte :=
  match l.ended with
  | some (.trapped r) => (6, 0, r)
  | some (.fenced d) => (10, d, [])
  | some (.unmapped va) => (8, va, [])
  | some .cancelled => (5, 0, [])
  | none => (if l.cancel then 5 else 0, 0, [])

/-! ## Pre-emption (18 R367-R371) -/

/-- Tell every other part of a launch to be pre-empted (18 R367). -/
def State.tellPreempt (s : State) (n : Nat) : State :=
  let l := s.launch n
  match l.key with
  | some key => (l.spread.filter (fun d => d != s.device)).foldl (fun s d => s.sendFabric d .control (.spPreempt key)) s
  | none => s

/-- Tell every other part of a launch that this one has stopped (18 R367). -/
def State.tellStopped (s : State) (n : Nat) : State :=
  let l := s.launch n
  let s1 := s.updLaunch n (fun x => { x with stoppedBy := setAdd x.stoppedBy s.device })
  match l.key with
  | some key => (l.spread.filter (fun d => d != s.device)).foldl (fun s d => s.sendFabric d .control (.spStopped key)) s1
  | none => s1

/-- Every part of a launch is to be pre-empted (18 R367); one that has not started yet as soon as it has. -/
def State.preemptLaunch (s : State) (n : Nat) (tell : Bool) : State :=
  let l := s.launch n
  if l.cancel || l.preempt || !l.placed then s
  else
    let s1 := s.updLaunch n (fun x => { x with preempt := true })
    if tell && l.stage == .running then s1.tellPreempt n else s1

/-- One fibre of a launch that is being pre-empted: a parked one is saved at its word, or as soon as the request that it
waits for has been answered; a fibre that waits at an event line stays there (16 R335, 18 R367). -/
def State.sweepFibre (s : State) (c slot : Nat) : State :=
  let f := (s.cell c).fibre slot
  let put (s : State) (f : Fibre) : State := s.updCell c (fun x => x.setFibre slot f)
  if f.body.kind.isHandler then s
  else
    match f.status with
    | .ready => if f.body.stop then put s (f.save s.now) else s
    | .parked (.event _ _ _) _ => s
    | .parked p _ =>
      if p.completes then put s { f with body := { f.body with stop := true } }
      else
        let wait := put s { f with body := { f.body with stop := true } }
        match s.waitDevice c p, p.id? with
        | some d, some id => wait.recall d (waitAsker s.device c slot f id)
        | _, _ =>
          match s.withdraw c slot with
          | some s1 => put s1 (f.save s.now)
          | none => wait
    | _ => s

/-- The fibres of a launch that is being pre-empted (18 R367). -/
def State.sweep (s : State) (n : Nat) : State :=
  (s.launch n).cells.foldl (fun s c =>
    ((s.cell c).fibres.map Prod.fst).foldl (fun s slot => s.sweepFibre c slot) s) s

/-- A fibre has stopped; what it has posted may still be unanswered (12 R260). -/
def Fibre.stopped (f : Fibre) : Bool :=
  match f.status with
  | .saved => true
  | .parked (.event _ _ _) _ => true
  | _ => false

/-- A cell of a launch that is being pre-empted has stopped (18 R367). A trap that will fail the launch is taken first (18
R371), but for one behind an array word that runs in parts, which goes on only after the resume. -/
def State.cellSavable (s : State) (c : Nat) : Bool :=
  let x := s.cell c
  x.fibres.all (fun e => e.2.stopped) && x.v.eng.stoppable && x.m.stoppable && x.fe.isEmpty &&
  x.copy.xfers.all (fun t => t.segs.all (fun g => g.answer.isSome)) &&
  (match x.steal.phase with | .asked _ => false | .answered _ => false | _ => true) && s.netSavable c &&
  x.traps.all (fun e => s.trapHandled c e.2 || (e.1 = .m && x.m.running))

/-- A launch on this device has stopped: cells, Exchange rounds, Routers (14 R301, 18 R367). -/
def State.savable (s : State) (n : Nat) : Bool :=
  let l := s.launch n
  l.preempt && !l.cancel && l.stage == .running && l.cells.all s.cellSavable &&
  !s.exch.any (fun x => x.req.launch == n && (x.started || x.decided)) &&
  !s.fabricKept.any (fun k => l.key.isSome && k.frame.body.key? == l.key && !k.frame.body.isPosted) &&
  s.routers.all (fun e => e.2.launch != some n || e.2.queue.isEmpty)

/-- Every issued word of an engine completes (08 R180, 09 R202). -/
def State.retireAll (s : State) (c : Nat) (st : Stream) : State :=
  ((s.cell c).engOf st).flights.foldl (fun s _ => s.retireOldest c st) s

/-- An engine as it is saved: a stream that stalls stands at its word with nothing performed; a TOK whose word waits at
a rendezvous gives its consumes back (05 R90, 09 R202). -/
def Cell.saveEngine (c : Cell) (st : Stream) : Cell :=
  let e := c.engOf st
  match e.tok with
  | some t =>
    (c.tokGive t.use.list).updEngOf st (fun e =>
      { e with tok := none, wait := none, run := e.run.map (fun p => { p with pc := t.addr }) })
  | none => c.updEngOf st (fun e => { e with wait := none })

/-- A cell as its record holds it (18 Table 18.8): CCYCLE as the time that has passed, bitmaps of MMAS not kept. -/
def Cell.record (c : Cell) (now : Nat) : Cell :=
  let x := ((c.pmFold now).saveEngine .v).saveEngine .m
  { x with
    cbase := now - c.cbase
    l1 := []
    icache := []
    kwide := 0
    feWide := []
    late := []
    fibres := x.fibres.map (fun e => (e.1, { e.2 with body := e.2.body.stopBudget now }))
    steal := { x.steal with phase := .idle }
    v := { x.v with eng := { x.v.eng with loop := none }, binds := x.v.binds.map (fun b => (b.1, if b.2.write then b.2 else { b.2 with fetched := [] })) }
    m :=
      { x.m with
        eng := { x.m.eng with loop := none }
        arr := x.m.arr.map (fun y =>
          { y with
            past := []
            base := none
            raced := 0
            word := match y.word with
              | .mmas z l a b conf k _ _ _ w => .mmas z l a b conf k none 0 false w
              | w => w }) } }

/-- Logical index of the lowest cell of a cluster of a launch. -/
def Launch.clusterIdx (l : Launch) (cl : Nat) : Nat :=
  let c := clusterCell cl
  (c % Config.cols - l.col0) + l.w * (c / Config.cols - l.row0)

/-- The context of a launch as it is saved (18 R369). -/
def State.context (s : State) (n : Nat) : SavedCtx :=
  let l := s.launch n
  { col0 := l.col0
    row0 := l.row0
    since := s.ns
    cells := (upFrom (l.w * l.h) 0).map (fun i => (i, (s.cell (l.physIdx i)).record s.now))
    lines := (s.lines.filter (fun e => l.cells.contains (clusterCell (e.1 / 16)))).map (fun e =>
      (16 * l.clusterIdx (e.1 / 16) + e.1 % 16, e.2))
    routers := s.routers.filter (fun e => e.2.launch = some n) }

/-- Save a launch that has stopped: words in flight complete, dirty sectors and histograms are written, the context is
kept and the units are freed (18 R367). -/
def State.saveLaunch (s : State) (n : Nat) : State :=
  let l := s.launch n
  let s1 := l.cells.foldl (fun s c => (s.retireAll c .v).retireAll c .m) s
  let s2 := (s1.flushL1 l.cells (fun _ => true)).flushRouters n
  let x := s2.context n
  let s3 := (s2.freeUnits n).updLaunch n (fun l =>
    { l with preempt := false, stage := .saved s.ns, saved := some x, savedBy := setAdd l.savedBy s.device })
  match l.key with
  | some key => (l.spread.filter (fun d => d != s.device)).foldl (fun s d => s.sendFabric d .control (.spSaved key)) s3
  | none => s3

/-! ## Resume (18 R370) -/

/-- A party with its cell at the place where the launch now stands. -/
def Asker.moved (w : Asker) (dev : Nat) (f : Nat → Nat) : Asker := if w.dev = dev then { w with cell := f w.cell } else w

/-- A saved cell with physical numbers as they are now, its waits counted anew. The entries of its deque keep the times at
which they entered, so that the CCLK of the save count towards the age of a cold-end entry: left open (DESIGN CHOICE, log
77). -/
def Cell.moved (c : Cell) (dev now : Nat) (f : Nat → Nat) : Cell :=
  { c with
    cbase := now - c.cbase
    m := { c.m with arr := c.m.arr.map (fun y => { y with began := now }) }
    pmSince := Vector.replicate 4 now
    am := c.am.map (fun e => (e.1, { e.2 with from_ := e.2.from_.moved dev f }))
    amWaiting := c.amWaiting.map (fun m => { m with who := m.who.moved dev f, toCell := f m.toCell })
    fibres := c.fibres.map (fun e =>
      let body := { e.2.body with since := if e.2.body.kind = .task then some now else none }
      (e.1, { e.2 with
        body := body
        status := match e.2.status with
          | .parked p _ => .parked p now
          | _ => .ready })) }

/-- The Routers of a launch that resumes: each die starts from the table and the counters saved for a die of its number (14
R282, R301); allowances and undelivered records go to the Router of their dispatcher's die. -/
def State.resumeRouters (s : State) (n : Nat) (l : Launch) (saved : AMap Router) : State :=
  if l.flags.getLsbD 3 then
    l.dies.foldl (fun s d =>
      let here (i : Nat) : Bool := dieOf (l.physIdx i) = d
      let pick (f : Router → AMap Nat) : AMap Nat :=
        (saved.flatMap (fun e => (f e.2).filter (fun x => here x.1))).foldl (fun m x => m.put x.1 x.2) []
      let old := saved.find d
      s.setRouter d
        { Router.idle with
          launch := some n
          loaded := old.bind (·.loaded)
          held := saved.flatMap (fun e => e.2.held.filter (fun x => here x.disp))
          rr := (old.map (·.rr)).getD []
          allow := pick (·.allow)
          sent := pick (·.sent) }) s
  else s

/-- Restore a saved launch at its new place (18 R370). -/
def State.restoreLaunch (s : State) (n : Nat) : State :=
  let l := s.launch n
  match l.saved with
  | none => s
  | some x =>
    let f (c : Nat) : Nat := l.phys (c % Config.cols - x.col0) (c / Config.cols - x.row0)
    let s1 := x.cells.foldl (fun s e => s.setCell (l.physIdx e.1) (e.2.moved s.device s.now f)) s
    let s2 : State := (s1.clearLines l.cells)
    let s3 := x.lines.foldl (fun s e =>
      s.setLine (16 * clusterOf (l.physIdx (e.1 / 16)) + e.1 % 16)
        { e.2 with waiters := e.2.waiters.map (fun w => { w with who := w.who.moved s.device f }) }) s2
    (s3.resumeRouters n l x.routers).updLaunch n (fun l => { l with saved := none })

end Sys2Proof.Machine
end

