-- ==== Sys2Proof/Machine/ESched.lean ====
section
/-!
DEFINITION. The Launch Scheduler: works, completion, cancel, queues, phases, semaphores, copies and graphs (02 R36-R41,
03 R44-R51, R55, R56, 19 R377, R379).
-/

namespace Sys2Proof.Machine

open Sys2Proof

/-! ## Works -/

/-- A work with nothing in it, read where there is none. -/
def Work.zero : Work where
  job := 0
  entry := none
  node := none
  session := 0
  notify := false
  tag := 0
  kind := 0
  bytes := []
  devs := []
  param := none
  phase := none
  started := false
  waitSince := 0
  launch := none
  hold := none
  copy := none
  replay := none
  cancel := none
  eff := 0
  retryAt := 0

/-- A work by number. -/
def State.work (s : State) (n : Nat) : Work := (s.works.find n).getD .zero

/-- Change a work. -/
def State.updWork (s : State) (n : Nat) (f : Work → Work) : State :=
  match s.works.find n with
  | some w => { s with works := s.works.put n (f w) }
  | none => s

/-- A queue by number. -/
def State.queue? (s : State) (q : Nat) : Option Queue := s.queues.find q

/-- Change a queue. -/
def State.updQueue (s : State) (q : Nat) (f : Queue → Queue) : State :=
  match s.queues.find q with
  | some x => { s with queues := s.queues.put q (f x) }
  | none => s

/-- Works of a queue, oldest first. -/
def State.queueWorks (s : State) (q : Nat) : AMap Work := s.works.filter (fun e => (e.2.entry.map Prod.fst) = some q)

/-- Works of the nodes of a replay. -/
def State.nodeWorks (s : State) (r : Nat) : AMap Work := s.works.filter (fun e => (e.2.node.map Prod.fst) = some r)

/-- A queue past the start of entry `i`: its wait is over, and a rotation that waited for the entry unmaps it (03 R51). -/
def Queue.started (q : Queue) (i ns : Nat) : Queue :=
  { q with
    waitSince := ns
    aged := 0
    blockedSince := none
    slot := if q.leaving = some i then none else q.slot
    leaving := if q.leaving = some i then none else q.leaving }

/-- The head of a queue has started (03 R51). -/
def State.headStarted (s : State) (n : Nat) : State :=
  let s1 : State := if s.drainFor = some n then { s with drainFor := none } else s
  match (s.work n).entry with
  | some (q, i) => s1.updQueue q (fun x => x.started i s.ns)
  | none => s1

/-- A work has started (03 Table 3.5). -/
def State.startWork (s : State) (n : Nat) : State :=
  if (s.work n).started then s else (s.headStarted n).updWork n (fun w => { w with started := true })

/-! ## Completion (03 R47, 19 R379) -/

/-- A completion record (19 Table 19.2). -/
def completionRecord (tag status kind queue index phases detail ns : Nat) (trap : List Byte) : List Byte :=
  natBytes 8 (tag % 2 ^ 32) ++ natBytes 1 status ++ natBytes 1 kind ++ natBytes 2 0 ++ natBytes 4 queue ++
  natBytes 8 index ++ natBytes 8 phases ++ natBytes 8 detail ++ natBytes 8 ns ++ natBytes 16 0 ++
  (if trap = [] then natBytes 64 0 else trap)

/-- Send the completion record of an entry to the session that appended it. -/
def State.sendRecord (s : State) (job session q index tag kind status detail : Nat) (trap : List Byte) : State :=
  let size := 2 ^ ((s.queue? q).map (·.logN)).getD 0
  s.hostOp session (.completion
    (completionRecord tag status kind q (index % size) (s.job job).phases detail s.ns trap))

/-- The phase of a job on this device. -/
def State.phase? (s : State) (job id : Nat) : Option Phase := s.phases.find? (fun p => p.job = job ∧ p.id = id)

/-- Change a phase. -/
def State.updPhase (s : State) (job id : Nat) (f : Phase → Phase) : State :=
  { s with phases := s.phases.map (fun p => if p.job = job ∧ p.id = id then f p else p) }

/-- Everything of a phase on this device has completed (03 R49). -/
def State.phaseIdle (s : State) (job id : Nat) : Bool := !s.works.any (fun e => e.2.job == job && e.2.phase == some id)

/-- A phase is over on this device: the others hear of it with what has completed in it here (02 Table 2.8, 03 R49). -/
def State.phaseTell (s : State) (p : Phase) : State :=
  if p.told then s
  else
    ((p.set.filter (fun d => d != s.device)).foldl (fun s d =>
      s.sendFabric d .control (.phaseDone p.job p.id p.graphs p.cancel)) s).updPhase p.job p.id (fun p => { p with told := true })

/-- A phase is over on every device of its set. -/
def State.phaseOver (s : State) (p : Phase) : Bool :=
  p.set.all (fun d => d == s.device || (p.done.map Prod.fst).contains d)

/-- A phase completes: the job's counter advances, the queues that it is open on close it, the sessions hear of it (03
R49, R56, 19 R380). -/
def State.phaseClose (s : State) (p : Phase) : State :=
  let j := s.job p.job
  let s1 : State :=
    { s with
      jobs := s.jobs.put p.job { j with phases := j.phases + 1 }
      phases := s.phases.filter (fun x => !(x.job == p.job && x.id == p.id)) }
  let s2 := (s1.queues.filter (fun e => e.2.job = p.job ∧ (e.2.phase.map Prod.fst) = some p.id)).foldl (fun s e =>
    s.updQueue e.1 (fun q => { q with phase := none })) s1
  s2.eventSend (some p.job) 1 (natBytes 4 p.id ++ natBytes 8 (j.phases + 1))

/-- A phase that is being cancelled completes once nothing of it is left on any device of its set (03 R56). -/
def State.phaseSweep (s : State) (job id : Nat) : State :=
  match s.phase? job id with
  | some p =>
    if !p.cancel || !s.phaseIdle job id then s
    else
      let s1 := s.phaseTell p
      if s1.phaseOver p then s1.phaseClose p else s1
  | none => s

/-- A job that is being cancelled and has no work left on this device tells the other devices; when all have, its phases
complete and its sessions close (03 R56). -/
def State.jobSweep (s : State) (job : Nat) : State :=
  let j := s.job job
  let others := j.devSet.filter (fun d => d != s.device)
  if !j.cancel || s.works.any (fun e => e.2.job == job) then s
  else
    let s0 := s.endLeases job
    let s1 := if j.told then s0 else others.foldl (fun s d => s.sendFabric d .control (.jobGone job)) s0
    if others.all (fun d => j.gone.contains d) then
      let s2 := (s1.phases.filter (fun p => p.job = job)).foldl State.phaseClose s1
      { s2 with
        jobs := s2.jobs.put job { s2.job job with cancel := false, told := false, gone := [] }
        sessions := s2.sessions.filter (fun e => e.2.job != some job) }
    else { s1 with jobs := s1.jobs.put job { j with told := true } }

/-- An entry completes: its record is sent, the counter of its phase advances (19 R379, 02 R41). -/
def State.entryEnd (s : State) (n status detail : Nat) (trap : List Byte) : State :=
  let w := s.work n
  let s1 := s.startWork n
  let s2 := match w.entry with
    | some (q, i) => if w.notify then s1.sendRecord w.job w.session q i w.tag w.kind status detail trap else s1
    | none => s1
  let s3 := match w.phase with
    | some p => s2.updPhase w.job p (fun x => { x with graphs := x.graphs + 1 })
    | none => s2
  let s4 : State := { s3 with works := s3.works.del n }
  (match w.phase with
    | some p => s4.phaseSweep w.job p
    | none => s4).jobSweep w.job

/-- A replay is over: every node has completed, or it is being cancelled and none is under way. -/
def State.replayOver (s : State) (r : Nat) : Bool :=
  let w := s.work r
  match w.replay with
  | none => false
  | some p => if w.cancel.isSome then (s.nodeWorks r).isEmpty else p.doneNodes.length == p.nodes.length

/-- A replay that is over completes (02 R38). -/
def State.replayEnd (s : State) (r : Nat) : State :=
  if s.replayOver r then (s.settle r (s.work r).cancel.isSome none).entryEnd r ((s.work r).cancel.getD 0) 0 [] else s

/-- A work completes with a status (03 Table 3.4); a node counts for its replay, whatever its status. -/
def State.workEnd (s : State) (n status detail : Nat) (trap : List Byte) : State :=
  match (s.work n).node with
  | none => s.entryEnd n status detail trap
  | some (r, i) =>
    let s1 : State := { s.startWork n with works := s.works.del n }
    let s2 := s1.updWork r (fun w =>
      { w with replay := w.replay.map (fun p => { p with doneNodes := setAdd p.doneNodes i }) })
    s2.replayEnd r

/-! ## Cancel (03 R55, R56) -/

/-- The part of a launch that is held here is given up: a saved launch is saved since when it was (03 R53, R54). -/
def State.releasePart (s : State) (l : Nat) : State :=
  match (s.launch l).saved with
  | some x =>
    (s.freeUnits l).updLaunch l (fun y =>
      { y with stage := .saved x.since, heldBy := [], savedBy := y.spread, preempt := false })
  | none => s.dropLaunch l

/-- Parts of a launch that are held and not committed are given up on every device (03 R54). -/
def State.releaseHold (s : State) (l : Nat) : State :=
  let x := s.launch l
  let s1 : State := match x.key with
    | some key => (x.spread.filter (fun d => d != s.device)).foldl (fun s d => s.sendFabric d .control (.spRelease key)) s
    | none => s
  s1.releasePart l

/-- A COPY entry stops with a status once the pieces that it has written outside the device are answered (19 R379). -/
def State.copyStop (s : State) (n status detail : Nat) (undefined_ : Bool) : State :=
  let w := s.work n
  if (w.copy.map (·.segs)).getD [] |>.any (fun g => !g.read && g.answer.isNone) then
    s.updWork n (fun w => { w with copy := w.copy.map (fun c => { c with ending := some (status, detail) }) })
  else (s.settle n undefined_ (w.node.map Prod.fst)).workEnd n status detail []

/-- A work that is no replay is cancelled with a status; a SEM_WAIT only with its job. -/
def State.cancelLeaf (s : State) (n status : Nat) (whole : Bool) : State :=
  let w := s.work n
  if w.kind = 5 ∧ !whole then s
  else
    match w.launch with
    | some l =>
      if (s.launch l).stage = .held ∧ (s.launch l).saved.isNone then (s.releaseHold l).workEnd n status 0 []
      else (s.killLaunch l (some .cancelled)).updWork n (fun w => { w with cancel := some status })
    | none =>
      if w.kind = 7 then (s.updWork n (fun w => { w with cancel := some status })).copyStop n status 0 true
      else s.workEnd n status 0 []

/-- A work is cancelled with everything below it. -/
def State.cancelWork (s : State) (n status : Nat) (whole : Bool) : State :=
  let w := s.work n
  if w.kind = 2 ∧ w.started then
    let s1 := s.updWork n (fun w => { w with cancel := some status })
    let s2 := (s1.nodeWorks n).foldl (fun s e => s.cancelLeaf e.1 5 whole) s1
    s2.replayEnd n
  else s.cancelLeaf n status whole

/-- The bytes of entry `i` of a queue in its ring. -/
def State.entryBytes (s : State) (q : Queue) (i : Nat) : Except (Nat × Nat) (List Byte) :=
  s.gread q.job (q.base + 64 * (i % 2 ^ q.logN)) 64

/-- The head moves past entries that a cancel has removed. -/
def Queue.trim (q : Queue) : Nat → Queue
  | 0 => q
  | fuel + 1 =>
    if q.removed.contains q.taken then
      Queue.trim { q with taken := q.taken + 1, owners := q.owners.drop 1, removed := setDel q.removed q.taken } fuel
    else q

/-- Entries of a queue that have not been taken, with their bytes and the sessions that appended them. -/
def State.untaken (s : State) (q : Queue) : List (Nat × List Byte × Nat) :=
  (((upFrom (q.tail - q.taken) q.taken).zip q.owners).filter (fun x => !q.removed.contains x.1)).map (fun x =>
    (x.1, (match s.entryBytes q x.1 with | .ok b => b | .error _ => List.replicate 64 0), x.2))

/-- Remove entries from a ring: each completes with CANCELLED (03 R56). -/
def State.removeEntries (s : State) (n : Nat) (q : Queue) (l : List (Nat × List Byte × Nat)) : State :=
  let s1 := l.foldl (fun s x =>
    let h := bAt x.2.1 0 8
    if h.testBit 9 ∨ q.notify then s.sendRecord q.job x.2.2 n x.1 (h / 2 ^ 32) (h % 256) 5 0 [] else s) s
  s1.updQueue n (fun q =>
    let out := q.leaving.any (fun i => l.any (fun x => x.1 = i))
    ({ q with
      removed := l.foldl (fun r x => setAdd r x.1) q.removed
      slot := if out then none else q.slot
      leaving := if out then none else q.leaving } : Queue).trim (q.tail - q.taken))

/-- The entries of an open phase that wait in a ring: launches and graphs up to its PHASE_END, and that. -/
def phaseEntries (id : Nat) : List (Nat × List Byte × Nat) → List (Nat × List Byte × Nat)
  | [] => []
  | x :: r =>
    let kind := bAt x.2.1 0 1
    if kind = 4 ∧ bAt x.2.1 8 4 = id then [x]
    else if kind = 1 ∨ kind = 2 then x :: phaseEntries id r
    else phaseEntries id r

/-- Cancel a phase on this device, and with `tell` on every device of its set; it completes, and the counter of the job
advances, when nothing of it is left (03 R56). -/
def State.cancelPhase (s : State) (job id : Nat) (tell : Bool) : State :=
  let set := ((s.phase? job id).map (·.set)).getD []
  let s0 := s.updPhase job id (fun p => { p with cancel := true })
  let s1 := if tell then
      (set.filter (fun d => d != s.device)).foldl (fun s d => s.sendFabric d .control (.phaseCancel job id set)) s0
    else s0
  let open_ := s1.queues.filter (fun e => e.2.job = job ∧ (e.2.phase.map Prod.fst) = some id)
  let s2 := open_.foldl (fun s e => s.removeEntries e.1 e.2 (phaseEntries id (s.untaken e.2))) s1
  let s3 := (s2.works.filter (fun e => e.2.job = job ∧ e.2.phase = some id)).foldl (fun s e => s.cancelWork e.1 5 false) s2
  let s4 := (s3.works.filter (fun e => e.2.job = job ∧ e.2.kind = 4 ∧ bAt e.2.bytes 8 4 = id)).foldl
    (fun s e => s.workEnd e.1 5 0 []) s3
  s4.phaseSweep job id

/-- Cancel a job on this device, and with `tell` on every device of its set; its leases end (15 R319). -/
def State.cancelJob (s : State) (job : Nat) (tell : Bool) : State :=
  let j := s.job job
  let s0 := s.endLeases job
  let s1 := if tell then
      (j.devSet.filter (fun d => d != s.device)).foldl (fun s d => s.sendFabric d .control (.jobCancel job)) s0
    else s0
  let s2 : State := { s1 with jobs := s1.jobs.put job { j with cancel := true } }
  let mine := s2.queues.filter (fun e => e.2.job = job)
  let s3 := mine.foldl (fun s e => s.removeEntries e.1 e.2 (s.untaken e.2)) s2
  let s4 : State := { s3 with phases := s3.phases.map (fun p => if p.job = job then { p with cancel := true } else p) }
  let s5 := (s4.works.filter (fun e => e.2.job = job ∧ e.2.entry.isSome)).foldl (fun s e => s.cancelWork e.1 5 true) s4
  ((s5.phases.filter (fun p => p.job = job)).foldl (fun s p => s.phaseSweep job p.id) s5).jobSweep job

/-! ## Entries (03 R45-R49) -/

/-- The bytes from an index on are zero. -/
def zeroFrom (b : List Byte) (i : Nat) : Bool := (b.drop i).all (fun x => x == 0)

/-- A device set of a job that is defined. -/
def Job.set? (j : Job) (i : Nat) : Option (List Nat) := if i < 16 then j.sets.find i else none

/-- An entry breaks 03 R46 in its fields. -/
def entryBad (b : List Byte) (j : Job) (device : Nat) : Bool :=
  let h := bAt b 0 8
  nfld h 31 10 != 0 ||
  match h % 256 with
  | 1 =>
    !zeroFrom b 0x19 ||
    (bAt b 0x18 1 != 255 && (match j.set? (bAt b 0x18 1) with | some l => !l.contains device | none => true))
  | 2 => !zeroFrom b 0x18
  | 3 => !zeroFrom b 0xD || (j.set? (bAt b 0xC 1)).isNone
  | 4 => !zeroFrom b 0xC
  | 5 => !zeroFrom b 0x18
  | 6 => !zeroFrom b 0x19 || 1 < bAt b 0x18 1
  | 7 => !zeroFrom b 0x20 || bAt b 0x18 8 = 0 || 2 ^ 40 < bAt b 0x18 8
  | _ => true

/-- The head of a queue has been taken and has not started. -/
def State.headWaits (s : State) (q : Nat) : Bool := (s.queueWorks q).any (fun e => !e.2.started)

/-- A work is being cancelled. -/
def State.workCancelled (s : State) (w : Work) : Bool :=
  w.cancel.isSome || match w.launch with
    | some l => (s.launch l).cancel
    | none => false

/-- A unit of a queue that is being cancelled and stands before entry `i` has not ended, the nodes of its graphs and the
phase that is open on it among them: the entry does not begin (03 R56). -/
def State.cancelling (s : State) (q i : Nat) : Bool :=
  (s.queueWorks q).any (fun e =>
    decide ((e.2.entry.map Prod.snd).getD 0 < i) &&
    (s.workCancelled e.2 || (s.nodeWorks e.1).any (fun x => s.workCancelled x.2))) ||
  (match (s.queue? q).bind (·.phase), (s.queue? q).map (·.job) with
    | some (id, _), some job => ((s.phase? job id).map (·.cancel)).getD false
    | _, _ => false)

/-- A work may begin: no cancelled unit of its queue stands before it (03 R56). -/
def State.mayBegin (s : State) (w : Work) : Bool :=
  match w.entry with
  | some (q, i) => !s.cancelling q i
  | none => true

/-- PHASE_BEGIN (03 R49). -/
def State.phaseBegin (s : State) (n q : Nat) : State :=
  let w := s.work n
  let id := bAt w.bytes 8 4
  match (s.queue? q).bind (·.phase) with
  | some _ => s.workEnd n 7 0 []
  | none =>
    let set := ((s.job w.job).set? (bAt w.bytes 0xC 1)).getD []
    let s1 := s.updQueue q (fun x => { x with phase := some (id, set) })
    let s2 : State := match s1.phase? w.job id with
      | some _ => s1.updPhase w.job id (fun p => { p with set := set })
      | none =>
        { s1 with phases := s1.phases ++ [{ job := w.job, id := id, set := set, graphs := 0, told := false, done := [], cancel := false }] }
    s2.workEnd n 0 0 []

/-- ENTRY_TAKE (03 R45-R49): the next entry of a mapped queue, in ring order. -/
def execEntryTake (queue : Nat) (s : State) : Host.Outcome State Fault Refusal :=
  match s.queue? queue with
  | none => idle s
  | some q =>
    if q.slot.isNone || q.tail = q.taken || s.headWaits queue || s.cancelling queue q.taken then idle s
    else
      let n := s.nextId
      let read := s.entryBytes q q.taken
      let b : List Byte := match read with
        | .ok b => b
        | .error _ => natBytes 8 (((Config.freeWord (s.fresh * 1024)).toNat / 2 ^ 32) * 2 ^ 32) ++ natBytes 56 0
      let h := bAt b 0 8
      if h.testBit 8 && !(s.queueWorks queue).isEmpty then idle s
      else
        let kind := h % 256
        let w : Work :=
          { Work.zero with
            job := q.job
            entry := some (queue, q.taken)
            session := q.owners.headD 0
            notify := h.testBit 9 || q.notify
            tag := h / 2 ^ 32
            kind := kind
            bytes := b
            devs := if kind = 1 ∧ bAt b 0x18 1 ≠ 255 then
                (((s.job q.job).set? (bAt b 0x18 1)).getD []).foldl (fun a d => setAdd a d) []
              else []
            phase := if kind = 1 ∨ kind = 2 then q.phase.map Prod.fst else none
            waitSince := s.ns }
        let s1 : State := { s.newId with works := s.works.put n w }
        let s2 := s1.updQueue queue (fun q =>
          ({ q with
            taken := q.taken + 1
            owners := q.owners.drop 1
            blockedSince := if kind = 4 ∨ kind = 5 then some s.ns else none } : Queue).trim (q.tail - q.taken))
        .next (
          match read with
          | .error e => s2.workEnd n 8 e.2 []
          | .ok _ =>
            if entryBad b (s.job q.job) s.device then s2.workEnd n 7 0 []
            else if kind = 3 then s2.phaseBegin n queue
            else if kind = 4 ∧ (q.phase.map Prod.fst) ≠ some (bAt b 8 4) then s2.workEnd n 7 0 []
            else s2)

/-- PHASE_COMPLETE (03 R49): this device tells the others that it is done; when all are, the counter of the job advances
and the PHASE_END completes. -/
def execPhaseComplete (work : Nat) (s : State) : Host.Outcome State Fault Refusal :=
  let w := s.work work
  let id := bAt w.bytes 8 4
  match w.entry with
  | none => idle s
  | some (q, _) =>
    if w.kind ≠ 4 ∨ !s.phaseIdle w.job id ∨ !s.mayBegin w then idle s
    else
      match s.phase? w.job id with
      | none => .next ((s.updQueue q (fun x => { x with phase := none })).workEnd work 0 0 [])
      | some p =>
        let s1 := s.phaseTell p
        if s1.phaseOver p then
          let j := s1.job w.job
          let s2 : State :=
            { s1 with
              jobs := s1.jobs.put w.job { j with phases := j.phases + 1 }
              phases := s1.phases.filter (fun x => !(x.job == w.job && x.id == id)) }
          let s3 := (s2.updQueue q (fun x => { x with phase := none })).workEnd work 0 0 []
          .next (s3.eventSend (some w.job) 1 (natBytes 4 id ++ natBytes 8 (j.phases + 1)))
        else .next s1

/-! ## Semaphores (03 R50) -/

/-- The address operand at an offset of a work's body; for a PARAM node it is the address of the instance copy plus the
node's argument, as g0 of a LAUNCH node is (02 R39; log 55). -/
def Work.operand (w : Work) (o : Nat) : Word := w64 (w.param.getD (bAt w.bytes o 8))

/-- Where a semaphore lies, or none (03 R50). -/
def State.semPlace (s : State) (w : Work) (acc : Access) : Option Nat :=
  let a := (w.operand 8).toNat
  if a % 8 ≠ 0 ∨ 2 ^ 57 ≤ a then none
  else
    match s.translate w.job a acc with
    | .pa p => some p
    | _ => none

/-- SEM_RECHECK (03 R50): a SEM_WAIT whose word is at least n completes. -/
def execSemRecheck (work : Nat) (s : State) : Host.Outcome State Fault Refusal :=
  let w := s.work work
  if w.kind ≠ 5 ∨ !s.mayBegin w then idle s
  else
    match s.semPlace w .read with
    | none => .next (s.workEnd work 8 (w.operand 8).toNat [])
    | some p => if bAt w.bytes 0x10 8 ≤ s.homeRead p 8 then .next (s.workEnd work 0 0 []) else idle s

/-- Every earlier entry of the queue of a work has completed. -/
def State.earlierDone (s : State) (n : Nat) : Bool :=
  match (s.work n).entry with
  | some (q, i) => !(s.queueWorks q).any (fun e => (e.2.entry.map Prod.snd).getD 0 < i)
  | none => true

/-- SEM_SIGNAL (03 R50): SET or ADD at the home, once every earlier entry has completed. -/
def execSemSignal (work : Nat) (s : State) : Host.Outcome State Fault Refusal :=
  let w := s.work work
  if w.kind ≠ 6 ∨ !s.earlierDone work ∨ !s.mayBegin w then idle s
  else
    match s.semPlace w .write with
    | none => .next (s.workEnd work 8 (w.operand 8).toNat [])
    | some p =>
      let v := bAt w.bytes 0x10 8
      let x := if bAt w.bytes 0x18 1 = 0 then v else (s.homeRead p 8 + v) % 2 ^ 64
      .next (((s.homeWrite p 8 x false).claim (w.node.map Prod.fst) p 8).workEnd work 0 0 [])

/-! ## COPY entries (03 R48, Table 3.5) -/

/-- Where an address of a COPY entry leads (03 Table 3.3). -/
def State.entryPlace (s : State) (job : Nat) (a : Word) (acc : Access) : Except Nat CPlace :=
  if fld a 63 60 = 0 ∧ fld a 59 57 = 0 then s.globalPlace job (fld a 56 0) acc
  else if fld a 63 60 = 1 ∧ (s.job job).devSet.contains (fld a 59 48) then
    (if fld a 59 48 = s.device then s.globalPlace job (fld a 47 0) acc else .ok (.device (fld a 59 48) a))
  else .error 5

/-- The number of the copy unit of a work among the parties that ask for pieces. -/
def workCell (n : Nat) : Nat := 768 + n

/-- Ask for a piece of a COPY entry outside the device. -/
def State.copyAsk (s : State) (n : Nat) (w : Work) (c : CopyProg) (p : CPlace) (pos len : Nat) : State × CopyProg :=
  let id := s.nextId
  let ctx : RCtx := { job := w.job, key := none }
  let seg (win : Option Nat) : Seg := { id := id, read := true, pos := pos, window := win, answer := none }
  match p with
  | .window v off =>
    (s.newId.winSend w.job v s.device (workCell n) id (.winr v off len),
      { c with segs := c.segs ++ [seg (some v)] })
  | .device d a =>
    (s.newId.sendFabric d .bulk (.bulkRead ctx (workCell n) id a len), { c with segs := c.segs ++ [seg none] })
  | _ => (s, c)

/-- Write a piece of a COPY entry: on this device at once, elsewhere as a segment that is answered. -/
def State.copyPut (s : State) (n : Nat) (w : Work) (c : CopyProg) (p : CPlace) (pos : Nat) (d : List (Byte × Bool)) :
    State × CopyProg :=
  let id := s.nextId
  let ctx : RCtx := { job := w.job, key := none }
  let seg (win : Option Nat) : Seg := { id := id, read := false, pos := pos, window := win, answer := none }
  match p with
  | .window v off =>
    (s.newId.winSend w.job v s.device (workCell n) id (.winw v off (d.map Prod.fst)),
      { c with segs := c.segs ++ [seg (some v)] })
  | .device dev a =>
    (s.newId.sendFabric dev .bulk (.bulkWrite ctx (workCell n) id a d none), { c with segs := c.segs ++ [seg none] })
  | _ => (s.placeWrite (some n) p d, c)

/-- The next piece of a COPY entry: every byte is read before the first is written. It starts when its first byte is read
(03 Table 3.5). -/
def State.copyStep (s : State) (n : Nat) (w : Work) (c : CopyProg) : State :=
  let len := bAt w.bytes 0x18 8
  let put (y : State × CopyProg) : State := y.1.updWork n (fun w => { w with copy := some y.2 })
  let fail (a : Word) : State := s.copyStop n 8 a.toNat false
  let got := c.buf.length
  if let some e := c.ending then s.copyStop n e.1 e.2 w.cancel.isSome
  else if got < len then
    let a := w.operand 8 + w64 got
    let k := min (len - got) (toEdge a)
    match s.entryPlace w.job a .read with
    | .error _ => fail a
    | .ok p =>
      if p.external then
        match c.segs.find? (fun g => g.read && g.pos == got) with
        | none => put (s.copyAsk n w c p got k)
        | some g =>
          match g.answer with
          | none => s
          | some (.refused _) => fail a
          | some (.data d) => put (s.startWork n, { c with buf := c.buf ++ d, segs := c.segs.filter (fun x => x.id != g.id) })
      else put (s.startWork n, { c with buf := c.buf ++ s.placeRead p k })
  else if c.written < len then
    let a := w.operand 0x10 + w64 c.written
    let k := min (len - c.written) (toEdge a)
    match s.entryPlace w.job a .write with
    | .error _ => fail a
    | .ok p =>
      let y := s.copyPut n w c p c.written ((c.buf.drop c.written).take k)
      put (y.1, { y.2 with written := c.written + k })
  else
    match c.segs.find? (fun g => match g.answer with | some (.refused _) => true | _ => false) with
    | some g => fail (w.operand 0x10 + w64 g.pos)
    | none => if c.segs.all (fun g => g.answer.isSome) then s.copyStop n 0 0 false else s

/-- ENTRY_COPY (03 R48): the next piece of at most 4 KiB of a COPY. -/
def execEntryCopy (work : Nat) (s : State) : Host.Outcome State Fault Refusal :=
  let w := s.work work
  if w.kind ≠ 7 then idle s
  else
    match w.copy with
    | none =>
      let c : CopyProg := { buf := [], written := 0, segs := [], ending := none }
      if s.mayBegin w then .next ((s.updWork work (fun w => { w with copy := some c })).copyStep work w c) else idle s
    | some c => .next (s.copyStep work w c)

/-! ## Graphs (02 R36-R40) -/

/-- A field of a graph header breaks 02 Table 2.6. -/
def graphHeaderBad (h : List Byte) : Bool :=
  let attr := bAt h 6 2
  bAt h 0 4 != 0x4739534B || bAt h 4 2 != 1 || bAt h 0x3C 4 != crc32c (h.take 60) ||
  nfld attr 7 1 != 0 || 63 < attr / 256 || (attr % 2 = 0 && attr / 256 != 0) ||
  bAt h 8 2 = 0 || 4096 < bAt h 8 2 || bAt h 0xA 2 != 0 || bAt h 0xC 4 % 8 != 0 || 65536 < bAt h 0xC 4 ||
  bAt h 0x10 4 % 32 != 0 || bAt h 0x14 4 != 0 || bAt h 0x18 8 % 8 != 0 || bAt h 0x20 8 % 64 != 0 || bAt h 0x28 20 != 0

/-- A field of a graph node breaks 02 Table 2.7. -/
def graphNodeBad (b : List Byte) (size : Nat) : Bool :=
  3 < bAt b 0 1 || 1 < bAt b 1 1 || 4095 < bAt b 2 2 || 4095 < bAt b 4 2 || bAt b 6 2 != 0 || bAt b 0xC 4 != 0 ||
  (bAt b 8 4 = 0) != (bAt b 4 2 = 0) || (bAt b 1 1 = 1 && (bAt b 0x18 8 % 8 != 0 || size ≤ bAt b 0x18 8))

/-- The nodes of a graph with their successor lists, or a status and detail: those of the first node that fails. Which
status ends a graph that has an unreadable successor list at one node and a format error at a later one is left open
(DESIGN CHOICE, log 71). -/
def State.readNodes (s : State) (job va size : Nat) : List (List Byte) → Except (Nat × Nat) (List GNode)
  | [] => .ok []
  | b :: rest =>
    if graphNodeBad b size then .error (3, 0)
    else
      match s.gcopy job (vaOff va (bAtS b 8 4)) (2 * bAt b 4 2), State.readNodes s job va size rest with
      | .error e, _ => .error (8, e.2)
      | _, .error e => .error e
      | .ok l, .ok r =>
        .ok ({ kind := bAt b 0 1, param := bAt b 1 1 = 1, body := bAt b 0x10 8, arg := bAt b 0x18 8,
               succs := (upFrom (bAt b 4 2) 0).map (fun i => bAt l (2 * i) 2), preds := bAt b 2 2 } :: r)

/-- Edges that enter a node from nodes that a test accepts. -/
def edgesInto (l : List GNode) (ok : Nat → Bool) (i : Nat) : Nat :=
  ((upFrom l.length 0).zip l).foldl (fun n e => if ok e.1 then n + e.2.succs.count i else n) 0

/-- The nodes that can be ordered, round by round. -/
def sorted (l : List GNode) : Nat → List Nat → List Nat
  | 0, done => done
  | fuel + 1, done =>
    sorted l fuel ((upFrom l.length 0).filter (fun i => done.contains i || edgesInto l (fun j => !done.contains j) i = 0))

/-- The edges of a graph break 02 R38. -/
def edgesBad (l : List GNode) : Bool :=
  l.any (fun n => n.succs.any (fun i => l.length ≤ i)) ||
  ((upFrom l.length 0).zip l).any (fun e => edgesInto l (fun _ => true) e.1 != e.2.preds) ||
  (sorted l l.length []).length != l.length

/-- Replace bytes of a list from an index. -/
def overlay (b : List Byte) (i : Nat) (d : List Byte) : List Byte := b.take i ++ d ++ b.drop (i + d.length)

/-- Apply a patch to a parameter block (02 R39): the block, or a status and detail. -/
def State.applyPatch (s : State) (job va : Nat) : Nat → Nat → List Byte → Except (Nat × Nat) (List Byte)
  | 0, _, _ => .error (4, 0)
  | fuel + 1, off, b =>
    if 65536 < off + 8 then .error (4, 0)
    else
      match s.gread job (va + off) 8 with
      | .error e => .error (8, e.2)
      | .ok hb =>
        let h := bytesNat hb
        let n := nfld h 47 32
        let o := h % 2 ^ 32
        if h = 0 then .ok b
        else if nfld h 63 48 != 0 || n = 0 || n % 8 != 0 || 4096 < n || o % 8 != 0 || b.length < o + n || 65536 < off + 8 + n then
          .error (4, 0)
        else
          match s.gread job (va + off + 8) n with
          | .error e => .error (8, e.2)
          | .ok d => State.applyPatch s job va fuel (off + 8 + n) (overlay b o d)

/-- Replays of a graph object of a job that run, and whether an earlier one waits (02 R40). -/
def State.replaysOf (s : State) (job va : Nat) : List Replay :=
  s.works.filterMap (fun e => if e.2.job = job then e.2.replay.filter (fun r => r.va = va) else none)

/-- Write bytes of a unit of work at a GLOBAL address of a job, page by page. -/
def State.gwrite (s : State) (unit : Option Nat) (job : Nat) : Nat → Nat → List Byte → State
  | 0, _, _ => s
  | fuel + 1, va, b =>
    if b = [] then s
    else
      let k := 65536 - va % 65536
      match s.translate job va .write with
      | .pa p => State.gwrite ((s.homeWriteBytes p (b.take k) false).claim unit p (b.take k).length) unit job fuel (va + k) (b.drop k)
      | _ => s

/-- Build a replay: check the object, copy the template, apply the patch, write the instance (02 R38, R39). A replay that
fails with PATCH leaves the instance area as it was; whether the template and the records before the bad one stand in the
copy is left open (DESIGN CHOICE, log 71). -/
def State.buildReplay (s : State) (n : Nat) (w : Work) (taken : List Nat) (h : List Byte) :
    Except (Nat × Nat) (State × Replay) :=
  let va := bAt w.bytes 8 8
  let patch := bAt w.bytes 0x10 8
  let size := bAt h 0xC 4
  let area := bAt h 0x20 8
  match s.gcopy w.job (vaOff va (bAtS h 0x10 4)) (32 * bAt h 8 2) with
  | .error e => .error (8, e.2)
  | .ok nb =>
    match s.readNodes w.job va size ((upFrom (bAt h 8 2) 0).map (fun i => (nb.drop (32 * i)).take 32)) with
    | .error e => .error e
    | .ok nodes =>
      if edgesBad nodes then .error (3, 0)
      else
        match s.gread w.job (bAt h 0x18 8) size with
        | .error e => .error (8, e.2)
        | .ok tpl =>
          let block : Except (Nat × Nat) (List Byte) :=
            if patch = 0 then .ok tpl
            else if patch % 8 ≠ 0 then .error (8, patch)
            else s.applyPatch w.job patch 8193 0 tpl
          match block with
          | .error e => .error e
          | .ok b =>
            let copy := ((upFrom 64 0).find? (fun i => !taken.contains i)).getD 0
            let inst := area + copy * ((size + 63) / 64 * 64)
            match s.gwritable w.job (size / 65536 + 2) inst size with
            | .error e => .error (8, e.2)
            | .ok _ =>
              .ok (s.gwrite (some n) w.job (size / 65536 + 2) inst b,
                { va := va, nodes := nodes, copy := copy, inst := inst, concurrent := (bAt h 6 2).testBit 0,
                  startedNodes := [], doneNodes := [] })

/-- GRAPH_REPLAY_START (02 R38-R40). -/
def execGraphReplayStart (work : Nat) (s : State) : Host.Outcome State Fault Refusal :=
  let w := s.work work
  if w.kind ≠ 2 ∨ w.started ∨ !s.mayBegin w then idle s
  else
    let va := bAt w.bytes 8 8
    let running := s.replaysOf w.job va
    let behind := s.works.any (fun e => e.1 < work && e.2.job == w.job && e.2.kind == 2 && !e.2.started && bAt e.2.bytes 8 8 == va)
    if behind then idle s
    else if va % 64 ≠ 0 then .next (s.workEnd work 8 va [])
    else
      match s.gcopy w.job va 64 with
      | .error e => .next (s.workEnd work 8 e.2 [])
      | .ok h =>
        if graphHeaderBad h then .next (s.workEnd work 3 0 [])
        else
          let room := if (bAt h 6 2).testBit 0 then bAt h 6 2 / 256 + 1 else 1
          if room ≤ running.length || running.any (fun r => !r.concurrent) then idle s
          else
            match s.buildReplay work w (running.map (·.copy)) h with
            | .error e => .next (s.workEnd work e.1 e.2 [])
            | .ok (s1, r) => .next ((s1.startWork work).updWork work (fun w => { w with replay := some r }))

/-- The kind of entry that a node of a kind is like (02 Table 2.7). -/
def nodeKind (k : Nat) : Nat := match k with | 0 => 1 | 1 => 7 | 2 => 5 | _ => 6

/-- GRAPH_NODE_START (02 R38, R39): a node whose predecessors have completed starts as an entry of its kind. -/
def execGraphNodeStart (work node : Nat) (s : State) : Host.Outcome State Fault Refusal :=
  let w := s.work work
  match w.replay with
  | none => idle s
  | some r =>
    match r.nodes[node]? with
    | none => idle s
    | some g =>
      let ready := edgesInto r.nodes (fun j => r.doneNodes.contains j) node = g.preds
      if w.cancel.isSome || r.startedNodes.contains node || !ready then idle s
      else
        let n := s.nextId
        let base := if g.param then some (r.inst + g.arg) else none
        let body : Except (Nat × Nat) (List Byte) :=
          if g.kind = 0 then
            .ok (natBytes 8 g.body ++ natBytes 8 (base.getD g.arg) ++ natBytes 1 255 ++ natBytes 39 0)
          else s.gread w.job g.body 56
        let b : List Byte := natBytes 8 (nodeKind g.kind) ++ (match body with | .ok b => b | .error _ => natBytes 56 0)
        let x : Work :=
          { Work.zero with
            job := w.job
            node := some (work, node)
            session := w.session
            kind := nodeKind g.kind
            bytes := b
            param := if g.kind = 0 then none else base
            waitSince := s.ns }
        let s1 : State := { s.newId with works := s.works.put n x }
        let s2 := s1.updWork work (fun w =>
          { w with replay := some { r with startedNodes := setAdd r.startedNodes node } })
        .next (
          match body with
          | .error e => s2.workEnd n 8 e.2 []
          | .ok _ => if entryBad b (s.job w.job) s.device then s2.workEnd n 7 0 [] else s2)

/-! ## Hardware slots (03 R51) -/

/-- The head of a queue could be taken now (03 R51; an untaken PHASE_END can be taken, log 27). -/
def State.runnable (s : State) (n : Nat) (q : Queue) : Bool :=
  let semOk (w : Work) : Bool := match s.semPlace w .read with
    | some p => bAt w.bytes 0x10 8 ≤ s.homeRead p 8
    | none => true
  match (s.queueWorks n).find? (fun e => !e.2.started) with
  | some e =>
    if e.2.kind = 5 then semOk e.2
    else if e.2.kind = 4 then
      s.phaseIdle e.2.job (bAt e.2.bytes 8 4) &&
      (match s.phase? e.2.job (bAt e.2.bytes 8 4) with
        | some p => s.phaseOver p
        | none => true)
    else true
  | none =>
    if q.tail = q.taken then false
    else
      match s.entryBytes q q.taken with
      | .error _ => true
      | .ok b =>
        (!(bAt b 0 8).testBit 8 || (s.queueWorks n).isEmpty) &&
        (bAt b 0 1 != 5 || semOk { Work.zero with job := q.job, bytes := b })

/-- The effective priority of a queue (03 R51). -/
def State.queuePrio (s : State) (q : Queue) : Nat := min 3 ((s.job q.job).priority + q.aged)

/-- The first queue that no other one comes before. -/
def firstQueue (before : Nat × Queue → Nat × Queue → Bool) (l : AMap Queue) : Option (Nat × Queue) :=
  l.find? (fun e => l.all (fun x => x.1 = e.1 || !before x e))

/-- The lowest free hardware slot: which of several a queue takes is left open (DESIGN CHOICE, log 73). -/
def State.freeHwSlot (s : State) : Option Nat :=
  (upFrom 64 0).find? (fun i => !s.queues.any (fun e => (e.2.slot.map Prod.fst) == some i))

/-- The unmapped runnable queue that a free slot takes (03 R51 rule 1). -/
def State.nextQueue (s : State) : Option (Nat × Queue) :=
  firstQueue (fun a b =>
    let p := s.queuePrio a.2
    let r := s.queuePrio b.2
    decide (r < p) || (p == r && (decide (a.2.waitSince < b.2.waitSince) ||
      (a.2.waitSince == b.2.waitSince && decide (a.1 < b.1)))))
    (s.queues.filter (fun e => e.2.slot.isNone && s.runnable e.1 e.2))

/-- QUEUE_MAP (03 R51 rule 1). -/
def execQueueMap (queue : Nat) (s : State) : Host.Outcome State Fault Refusal :=
  match s.freeHwSlot, s.nextQueue with
  | some i, some e => if e.1 = queue then .next (s.updQueue queue (fun q => { q with slot := some (i, s.ns), leaving := none })) else idle s
  | _, _ => idle s

/-- PRIORITY_AGE (03 R51 rule 2): one level for every 10 ms that the head has waited. -/
def execPriorityAge (queue : Nat) (s : State) : Host.Outcome State Fault Refusal :=
  match s.queue? queue with
  | some q =>
    if (q.taken < q.tail ∨ s.headWaits queue) ∧ s.queuePrio q < 3 ∧ q.waitSince + 10000000 * (q.aged + 1) ≤ s.ns then
      .next (s.updQueue queue (fun q => { q with aged := q.aged + 1 }))
    else idle s
  | none => idle s

/-- QUEUE_UNMAP_BLOCKED (03 R51 rule 4): after 50 µs. -/
def execQueueUnmapBlocked (queue : Nat) (s : State) : Host.Outcome State Fault Refusal :=
  match s.queue? queue with
  | some q =>
    match q.slot, q.blockedSince with
    | some _, some t =>
      if t + 50000 ≤ s.ns ∧ !s.runnable queue q then .next (s.updQueue queue (fun q => { q with slot := none, leaving := none })) else idle s
    | _, _ => idle s
  | none => idle s

/-- The mapped queue that a rotation unmaps (03 R51 rule 5). -/
def State.rotated (s : State) : Option (Nat × Queue) :=
  let since (q : Queue) : Nat := (q.slot.map Prod.snd).getD 0
  firstQueue (fun a b =>
    let p := s.queuePrio a.2
    let r := s.queuePrio b.2
    decide (p < r) || (p == r && decide (since a.2 < since b.2)))
    (s.queues.filter (fun e => match e.2.slot with
      | some (_, t) => t + 1000000 ≤ s.ns
      | none => false))

/-- The ring index of the current head of a queue: taken and not started, or the next to be taken. -/
def State.headIndex (s : State) (n : Nat) (q : Queue) : Option Nat :=
  match (s.queueWorks n).find? (fun e => !e.2.started) with
  | some e => e.2.entry.map Prod.snd
  | none => if q.tail = q.taken then none else some q.taken

/-- QUEUE_ROTATE (03 R51 rule 5): a queue without a head is unmapped at once, any other when its current head starts. -/
def execQueueRotate (s : State) : Host.Outcome State Fault Refusal :=
  let waits := s.queues.any (fun e => e.2.slot.isNone && s.runnable e.1 e.2 && decide (e.2.waitSince + 1000000 ≤ s.ns))
  match (if waits && s.queues.all (fun e => e.2.leaving.isNone) then s.rotated else none) with
  | some e =>
    .next (s.updQueue e.1 (fun q =>
      match s.headIndex e.1 e.2 with
      | some i => { q with leaving := some i }
      | none => { q with slot := none }))
  | none => idle s

end Sys2Proof.Machine
end

