-- ==== Sys2Proof/Machine/EAdmit.lean ====
section
/-!
DEFINITION. Admission, spread launches, pre-emption and completion of launches as the Launch Scheduler performs them (03
R51-R54, 18 R367-R371, 19 R377).
-/

namespace Sys2Proof.Machine

open Sys2Proof

/-! ## Candidates (03 R51 rule 3) -/

/-- The saved launch of a work. -/
def State.savedOf (s : State) (w : Work) : Option (Nat × Launch) :=
  match w.launch with
  | some n => if (s.launch n).placed then none else some (n, s.launch n)
  | none => none

/-- The launch that a LAUNCH head describes, or a status and detail. -/
def State.headLaunch (s : State) (w : Work) : Except (Nat × Nat) Launch :=
  let va := bAt w.bytes 8 8
  match s.readLaunch w.job va (w.devs != []) with
  | .error e => .error e
  | .ok c =>
    let l := { c.launch (s.job w.job) w.job va (w64 (bAt w.bytes 0x10 8)) with spread := w.devs }
    match s.poolUnmapped l with
    | some a => .error (8, a)
    | none => match s.neverFits l with
      | some st => .error (st, 0)
      | none => .ok l

/-- What admission finds for a work now. -/
def State.verdict (s : State) (n : Nat) (w : Work) : Verdict :=
  match w.launch with
  | some _ =>
    match s.savedOf w with
    | some x => s.placeFor (some n) x.2 true
    | none => .waits
  | none =>
    match s.headLaunch w with
    | .error e => .fails e.1 e.2
    | .ok l => s.placeFor (some n) l false

/-- Hardware slot of the queue of a work; none for a node or an unmapped queue. -/
def State.workSlot (s : State) (w : Work) : Option Nat :=
  ((w.entry.bind (fun e => s.queue? e.1)).bind (·.slot)).map Prod.fst

/-- A launch that was pre-empted waits to resume: the head of the queue it came from stands behind it (03 R53). -/
def State.behindSaved (s : State) (w : Work) : Bool :=
  match w.entry with
  | some (q, i) => (s.queueWorks q).any (fun e => decide ((e.2.entry.map Prod.snd).getD 0 < i) && (s.savedOf e.2).isSome)
  | none => false

/-- A work whose LAUNCH waits to be admitted, or waits to resume with every part saved. -/
def State.candidate (s : State) (w : Work) : Bool :=
  w.kind = 1 && w.cancel.isNone &&
  match w.launch with
  | none => !w.started && s.mayBegin w && !s.behindSaved w && (w.node.isSome || (s.workSlot w).isSome)
  | some n =>
    let l := s.launch n
    !l.placed && !l.cancel && l.spread.all (fun d => l.savedBy.contains d)

/-- The effective priority of a work: what it had at the save, its queue's, or its job's (03 R51, R53). -/
def State.workPrio (s : State) (w : Work) : Nat :=
  if w.launch.isSome then w.eff
  else
    match w.entry.bind (fun e => s.queue? e.1) with
    | some q => s.queuePrio q
    | none => (s.job w.job).priority

/-- Round-robin place of a work: slots after the one admitted last, then works without a slot. Where the LAUNCH node of a
graph, which has no slot, stands among the heads is left open: it has its job's priority, does not age and comes after
every slot (DESIGN CHOICE, log 73). -/
def State.workTurn (s : State) (w : Work) : Nat :=
  match s.workSlot w with
  | some i => (i + 64 - (s.lastSlot + 1) % 64) % 64
  | none => 64

/-- Work `a` is admitted before work `b`: by effective priority, round robin, a resume before a new head. A head stands
behind the saved launch of its own queue in any case (`State.behindSaved`). -/
def State.admitBefore (s : State) (a b : Nat × Work) : Bool :=
  let p := s.workPrio a.2
  let q := s.workPrio b.2
  let x := s.workTurn a.2
  let y := s.workTurn b.2
  decide (q < p) || (p == q && (decide (x < y) || (x == y &&
    ((a.2.launch.isSome && b.2.launch.isNone) || (a.2.launch.isSome == b.2.launch.isSome && decide (a.1 < b.1))))))

/-- The verdict is a place. -/
def Verdict.isFit : Verdict → Bool
  | .fits _ _ => true
  | _ => false

/-- The launch of a RESERVE that waits here, with the work of the same launch where it resumes (03 R54). -/
def State.reserveLaunch (s : State) (b : MsgBody) : Option (Launch × Bool) :=
  match b with
  | .spReserve key job _ devs va h r c arg resume =>
    match (if resume then s.byKey key else none) with
    | some n => some (s.launch n, true)
    | none =>
      let copy : LaunchCopy := { hdr := h, roles := r, chans := c }
      some ({ copy.launch (s.job job) job va arg with spread := devs, key := some key, stage := .held }, false)
  | _ => none

/-- A RESERVE whose part can be placed now, with the priority of its job (03 R54). -/
def State.reserveFits (s : State) (b : MsgBody) : Option Nat :=
  match s.reserveLaunch b with
  | some (l, resume) => if (s.placeFor none l resume).isFit then some (s.job l.job).priority else none
  | none => none

/-- The LAUNCH that the device drains for: it has neither been placed nor cancelled since (03 R51 rule 6). -/
def State.drainNow (s : State) : Option Nat :=
  s.drainFor.filter (fun n =>
    let w := s.work n
    w.kind = 1 && w.cancel.isNone &&
    match w.launch with
    | none => !w.started
    | some m => !(s.launch m).cancel && (!(s.launch m).placed || (s.launch m).stage == .held))

/-- No other work that can be placed now comes before a work, no part of another device's launch that has a higher
priority can be placed, and no drain serves another one (03 R51 rules 3, 6, R54). -/
def State.isNext (s : State) (n : Nat) (w : Work) : Bool :=
  (s.drainNow.isNone || s.drainNow == some n) &&
  (s.drainNow == some n ||
    (!s.works.any (fun e =>
      e.1 != n && s.candidate e.2 && e.2.retryAt == 0 && s.admitBefore e (n, w) && (s.verdict e.1 e.2).isFit) &&
    !s.inbox.any (fun m => match s.reserveFits m.body with
      | some p => decide (s.workPrio w < p)
      | none => false)))

/-- DRAIN_START (03 R51 rule 6): the LAUNCH head that has waited longest, after 10 ms. From which moment they count for a
head that has not been saved is left open: the model counts from the taking of its entry (DESIGN CHOICE, log 73). -/
def execDrainStart (work : Nat) (s : State) : Host.Outcome State Fault Refusal :=
  let since (w : Work) : Nat := match s.savedOf w with
    | some x => (match x.2.stage with | .saved t => t | _ => w.waitSince)
    | none => w.waitSince
  let w := s.work work
  let t := since w
  let first := !s.works.any (fun e =>
    e.1 != work && s.candidate e.2 && (decide (since e.2 < t) ||
      (since e.2 == t && decide ((s.workSlot e.2).getD 64 < (s.workSlot w).getD 64))))
  if s.drainNow.isNone && s.candidate w && first && decide (t + 10000000 ≤ s.ns) then
    .next { s with drainFor := some work }
  else idle s

/-! ## Containment (18 R374) -/

/-- How far a FENCED completion reaches (18 R374). -/
def State.contain (s : State) (w : Work) (phase : Option Nat) : State :=
  match (s.job w.job).containment with
  | 1 =>
    match w.node with
    | some (r, _) => if (s.works.find r).isSome then s.cancelWork r 10 false else s
    | none => s
  | 2 =>
    match phase with
    | some p => s.cancelPhase w.job p true
    | none => s
  | _ => s

/-- The phase that a work counts in, by itself or as a node of a graph. -/
def State.phaseOf (s : State) (w : Work) : Option Nat :=
  match w.node with
  | some (r, _) => (s.work r).phase
  | none => w.phase

/-- A work ends FENCED, and as much with it as its job's containment scope says (18 R374). -/
def State.fencedEnd (s : State) (n detail : Nat) : State :=
  let w := s.work n
  let phase := s.phaseOf w
  let s1 := match w.node, (s.job w.job).containment with
    | some (r, _), 1 => s.updWork r (fun y => { y with cancel := some 10 })
    | _, _ => s
  (s1.workEnd n 10 detail []).contain w phase

/-! ## Admission (03 R52-R54) -/

/-- The head of a work has been admitted. -/
def State.admitted (s : State) (n : Nat) : State :=
  let slot := (s.workSlot (s.work n)).getD s.lastSlot
  let s1 : State := { s with lastSlot := slot, drainFor := if s.drainFor = some n then none else s.drainFor }
  (s1.startWork n).updWork n (fun w => { w with hold := none, retryAt := 0 })

/-- Send RESERVE for a launch to every other device of its set (03 R54). -/
def State.sendReserve (s : State) (l : Launch) (set : Nat) (resume : Bool) : State :=
  match l.key with
  | some key =>
    (l.spread.filter (fun d => d != s.device)).foldl (fun s d =>
      s.sendFabric d .control (.spReserve key l.job set l.spread l.hdrVa l.hdr l.roleMap l.chanTab l.arg resume)) s
  | none => s

/-- Every part is held: COMMIT with a start at most 2 µs ahead (03 R54). -/
def State.commit (s : State) (n : Nat) : State :=
  let l := s.launch n
  let start := s.ns + Config.pick s.fresh 1 0 % 2001
  let s1 := s.updLaunch n (fun x => { x with stage := .committed start })
  let s2 := match l.key with
    | some key => (l.spread.filter (fun d => d != s.device)).foldl (fun s d => s.sendFabric d .control (.spCommit key start)) s1
    | none => s1
  match l.work with
  | some w => s2.admitted w
  | none => s2

/-- Commit when the parts of all other devices are held. -/
def State.commitIfHeld (s : State) (n : Nat) : State :=
  let l := s.launch n
  if l.spread.all (fun d => d == s.device || l.heldBy.contains d) then s.commit n else s

/-- Mark the cells at an origin as held by a launch that resumes there. -/
def State.holdCells (s : State) (n col row : Nat) : State :=
  let s1 := s.updLaunch n (fun l => { l with col0 := col, row0 := row, stage := .held, heldBy := [], savedBy := [] })
  let l := s1.launch n
  let s2 := (upFrom (l.w * l.h) 0).foldl (fun s i =>
    s.setCell (l.physIdx i) { Cell.idle with launch := some n, x := i % l.w, y := i / l.w }) s1
  s2.takeRouters n l

/-- Admit a new launch at an origin. -/
def State.admitNew (s : State) (n : Nat) (w : Work) (l : Launch) (col row : Nat) : State :=
  let m := s.nextId
  let spread := l.spread != []
  let l1 : Launch :=
    { l with
      work := some n
      col0 := col
      row0 := row
      key := if spread then some (s.device, m) else none
      stage := if spread then .held else .running }
  let s1 := ((s.newId.placeLaunch m l1).updWork n (fun w => { w with launch := some m, hold := none }))
  if spread then (s1.sendReserve l1 (bAt w.bytes 0x18 1) false).commitIfHeld m else s1.admitted n

/-- Resume a saved launch at an origin (18 R370). -/
def State.admitSaved (s : State) (n : Nat) (w : Work) (m : Nat) (l : Launch) (col row : Nat) : State :=
  let s1 := s.holdCells m col row
  if l.spread != [] then (s1.sendReserve l (bAt w.bytes 0x18 1) true).commitIfHeld m
  else ((s1.restoreLaunch m).updLaunch m (fun l => { l with stage := .running })).admitted n

/-- A launch that a job's head of a priority may pre-empt (03 R53): it holds cells, whether or not it has started. -/
def State.victim (s : State) (p n : Nat) : Bool :=
  let l := s.launch n
  let j := s.job l.job
  l.placed && !l.cancel && j.preemptible && decide (j.priority < p)

/-- Choose the launches to pre-empt for a head (03 R53): the rectangle is held for it. -/
def State.choose (s : State) (n : Nat) (w : Work) (l : Launch) : State :=
  let p := (s.job w.job).priority
  let ok (c r : Nat) : Bool :=
    (rectCells c r l.w l.h).all (fun x =>
      s.cellFree (some n) x || (!s.excluded.contains x &&
        (match (s.cell x).launch with | some m => s.victim p m | none => false) &&
        !s.works.any (fun e => e.1 != n && match e.2.hold with | some r => inRect r x | none => false)))
  match firstOrigin l.w l.h ok with
  | none => s
  | some (c, r) =>
    let hit := (rectCells c r l.w l.h).foldl (fun a x => match (s.cell x).launch with | some m => setAdd a m | none => a) []
    hit.foldl (fun s m => s.preemptLaunch m true) (s.updWork n (fun w => { w with hold := some (c, r, l.w, l.h) }))

/-- Try to place a work that is next. -/
def State.admitWork (s : State) (n : Nat) : State :=
  let w := s.work n
  match s.verdict n w with
  | .fails st d =>
    match w.launch with
    | some m => (s.killLaunch m (some (.fenced d))).updWork n (fun w => { w with cancel := some st })
    | none => if st = 10 then s.fencedEnd n d else s.workEnd n st d []
  | .waits => s
  | .noPlace =>
    match w.launch, s.headLaunch w with
    | none, .ok l => s.choose n w l
    | _, _ => s
  | .fits col row =>
    match s.savedOf w, s.headLaunch w with
    | some x, _ => s.admitSaved n w x.1 x.2 col row
    | none, .ok l => s.admitNew n w l col row
    | none, .error _ => s

/-- LAUNCH_ADMIT (03 R51-R54). -/
def execLaunchAdmit (work : Nat) (s : State) : Host.Outcome State Fault Refusal :=
  let w := s.work work
  if s.candidate w && w.retryAt = 0 && s.isNext work w then .next (s.admitWork work) else idle s

/-- SPREAD_RETRY (03 R54): the origin tries again after 50 µs + 1 µs × its device number. -/
def execSpreadRetry (work : Nat) (s : State) : Host.Outcome State Fault Refusal :=
  let w := s.work work
  if w.retryAt != 0 && decide (w.retryAt ≤ s.ns) && s.candidate w && s.isNext work w then
    .next ((s.updWork work (fun w => { w with retryAt := 0 })).admitWork work)
  else idle s

/-! ## Spread launches (03 R54) -/

/-- A RESERVE of a job of a priority is next: no head here of a higher priority can be placed, no RESERVE of a higher
priority, or of the same that came earlier, and the device does not drain (03 R51 rule 6, R54). Against a head of the
same priority either may come first. -/
def State.reserveNext (s : State) (i p : Nat) : Bool :=
  s.drainNow.isNone &&
  !s.works.any (fun e =>
    s.candidate e.2 && e.2.retryAt == 0 && decide (p < s.workPrio e.2) && (s.verdict e.1 e.2).isFit) &&
  !((upFrom s.inbox.length 0).zip s.inbox).any (fun m => match s.reserveFits m.2.body with
    | some q => decide (p < q) || (p == q && decide (m.1 < i))
    | none => false)

/-- The part of a RESERVE is placed and held, and the origin hears of it (03 R54). -/
def State.reservePlace (s : State) (src : Nat) (key : Nat × Nat) (l : Launch) (resume : Bool) (col row : Nat) : State :=
  (match (if resume then s.byKey key else none) with
    | some n => s.holdCells n col row
    | none => s.newId.placeLaunch s.nextId { l with col0 := col, row0 := row }).sendFabric src .control (.spHeld key)

/-- SPREAD_RESERVE (03 R54): the part is placed at the job's priority and held, or waits; a set that the job does not
hold here is UNDEFINED. -/
def execSpreadReserve (i : Nat) (s : State) : Host.Outcome State Fault Refusal :=
  match s.inbox[i]? with
  | some ⟨src, .spReserve key job set devs va h r c arg resume, _⟩ =>
    if ((s.jobs.find job).bind (fun j => j.set? set)).isNone then
      .next ((s.dropInbox i).sendFabric src .control (.spUndefined key))
    else
      match s.reserveLaunch (.spReserve key job set devs va h r c arg resume) with
      | some (l, resumes) =>
        match s.placeFor none l resumes with
        | .fits col row =>
          if s.reserveNext i (s.job job).priority then
            .next ((s.dropInbox i).reservePlace src key l resumes col row)
          else idle s
        | _ => idle s
      | none => idle s
  | _ => idle s

/-- SPREAD_NOROOM_TIMEOUT (03 R54): the part could not be placed within 100 µs. -/
def execSpreadNoroomTimeout (i : Nat) (s : State) : Host.Outcome State Fault Refusal :=
  match s.inbox[i]? with
  | some ⟨src, .spReserve key job set devs va h r c arg resume, t⟩ =>
    if t + 100000 ≤ s.ns ∧ ((s.reserveFits (.spReserve key job set devs va h r c arg resume)).isNone ∨
        !s.reserveNext i (s.job job).priority) then
      .next ((s.dropInbox i).sendFabric src .control (.spNoroom key))
    else idle s
  | _ => idle s

/-- The origin gives every hold up; its entry waits, or fails with a status. -/
def State.unhold (s : State) (n : Nat) (fail : Option Nat) : State :=
  let l := s.launch n
  let s1 := s.releaseHold n
  match l.work with
  | none => s1
  | some w =>
    let s2 := if l.saved.isSome then s1 else s1.updWork w (fun x => { x with launch := none })
    match fail with
    | some st => s2.workEnd w st 0 []
    | none => s2.updWork w (fun x => { x with retryAt := s.ns + 50000 + 1000 * s.device })

/-- SPREAD_ANSWER (03 R54, R58): HELD, NOROOM or UNDEFINED of a peer reaches the origin. -/
def execSpreadAnswer (i : Nat) (s : State) : Host.Outcome State Fault Refusal :=
  match s.inbox[i]? with
  | some ⟨src, .spHeld key, _⟩ =>
    match s.byKey key with
    | some n =>
      if (s.launch n).stage = .held then
        .next (((s.dropInbox i).updLaunch n (fun l => { l with heldBy := setAdd l.heldBy src })).commitIfHeld n)
      else .next ((s.dropInbox i).sendFabric src .control (.spRelease key))
    | none => .next ((s.dropInbox i).sendFabric src .control (.spRelease key))
  | some ⟨_, .spNoroom key, _⟩ =>
    match s.byKey key with
    | some n => if (s.launch n).stage = .held then .next ((s.dropInbox i).unhold n none) else .next (s.dropInbox i)
    | none => .next (s.dropInbox i)
  | some ⟨_, .spUndefined key, _⟩ =>
    match s.byKey key with
    | some n => if (s.launch n).stage = .held then .next ((s.dropInbox i).unhold n (some 7)) else .next (s.dropInbox i)
    | none => .next (s.dropInbox i)
  | _ => idle s

/-- SPREAD_COMMIT (03 R54): the part of a peer starts at the time that COMMIT names. -/
def execSpreadCommit (i : Nat) (s : State) : Host.Outcome State Fault Refusal :=
  match s.inbox[i]? with
  | some ⟨_, .spCommit key start, _⟩ =>
    match s.byKey key with
    | some n => .next ((s.dropInbox i).updLaunch n (fun l => { l with stage := .committed start }))
    | none => .next (s.dropInbox i)
  | _ => idle s

/-- SPREAD_START (02 R35, 03 R54): the parts start, a saved part from its record; one that is to be pre-empted is as soon
as it runs. -/
def execSpreadStart (launch : Nat) (s : State) : Host.Outcome State Fault Refusal :=
  match (s.launch launch).stage with
  | .committed t =>
    if t ≤ s.ns then
      let s1 := (s.restoreLaunch launch).updLaunch launch (fun l => { l with stage := .running, heldBy := [], stoppedBy := [] })
      .next (if (s.launch launch).preempt then s1.tellPreempt launch else s1)
    else idle s
  | _ => idle s

/-! ## Pre-emption (18 R367) -/

/-- LAUNCH_SAVE (18 R367): the parties of a launch that is being pre-empted stop; once all have, on every device of a
spread launch, it is saved. That the save waits for the other parts is DEDUCED, safe (log 76): R367 gives its steps for
the launch as a whole. -/
def execLaunchSave (launch : Nat) (s : State) : Host.Outcome State Fault Refusal :=
  let l := s.launch launch
  if !l.preempt || l.cancel || l.stage != .running then idle s
  else
    let s1 := s.sweep launch
    if !s1.savable launch then .next s1
    else if !l.spread.isEmpty && !l.stoppedBy.contains s.device then .next (s1.tellStopped launch)
    else if l.spread.any (fun d => !l.stoppedBy.contains d) then .next s1
    else
      let s2 := s1.saveLaunch launch
      match l.work with
      | some w => .next (s2.updWork w (fun x => { x with eff := s.workPrio { x with launch := none } }))
      | none => .next s2

/-! ## Completion (19 R377, R379) -/

/-- The origin's launch completes: the other parts are given up, its entry or node completes. -/
def State.launchEnd (s : State) (n : Nat) : State :=
  let l := s.launch n
  let out := l.outcome
  let s1 : State := match l.key with
    | some key => (l.spread.filter (fun d => d != s.device)).foldl (fun s d => s.sendFabric d .control (.spRelease key)) s
    | none => s
  let s2 := s1.dropLaunch n
  match l.work with
  | none => s2
  | some w =>
    if out.1 = 10 then s2.fencedEnd w out.2.1 else s2.workEnd w out.1 out.2.1 out.2.2

/-- LAUNCH_COMPLETE (19 R377): every cell has retired and histograms are delivered; a part on another device tells the
origin, which completes when every part has. -/
def execLaunchComplete (launch : Nat) (s : State) : Host.Outcome State Fault Refusal :=
  if (s.launches.find launch).isNone || !s.allRetired launch then idle s
  else
    let l := s.launch launch
    let s1 := s.flushRouters launch
    match l.work, l.key with
    | none, some key =>
      if l.doneBy.contains s.device then idle s
      else
        let out := l.outcome
        .next ((s1.updLaunch launch (fun x => { x with doneBy := setAdd x.doneBy s.device })).sendFabric key.1 .control
          (.spDone key out.1 out.2.1 out.2.2))
    | _, _ => if l.spread.all (fun d => d == s.device || l.doneBy.contains d) then .next (s1.launchEnd launch) else idle s

/-! ## What the parts of a spread launch tell each other (02 R35, 18 R367) -/

/-- A part hears of a release, a cancel, a pre-emption, a stop, a save or a completion; a fenced device answers a RESERVE
with a completion (18 R374, R375). -/
def State.partHears (s : State) (src : Nat) (b : MsgBody) : State :=
  match b with
  | .spRelease key =>
    let s1 : State := { s with inbox := s.inbox.filter (fun x => match x.body with
      | .spReserve k _ _ _ _ _ _ _ _ _ => k != key
      | _ => true) }
    match s.byKey key with
    | some n => if (s.launch n).stage = .held then s1.releasePart n else s1.dropLaunch n
    | none => s1
  | .spCancel key =>
    match s.byKey key with
    | some n => s.updLaunch n (fun x => { x with cancel := true, preempt := false })
    | none => s
  | .spPreempt key => match s.byKey key with | some n => s.preemptLaunch n false | none => s
  | .spStopped key =>
    match s.byKey key with
    | some n => s.updLaunch n (fun x => { x with stoppedBy := setAdd x.stoppedBy src })
    | none => s
  | .spSaved key =>
    match s.byKey key with
    | some n => s.updLaunch n (fun x => { x with savedBy := setAdd x.savedBy src })
    | none => s
  | .spDone key st d rec =>
    match s.byKey key with
    | some n =>
      if (s.launch n).stage = .held then
        let s1 := s.unhold n none
        match (s.launch n).work with
        | some w => s1.fencedEnd w d
        | none => s1
      else
      s.updLaunch n (fun x =>
        { x with
          doneBy := setAdd x.doneBy src
          ended :=
            if x.ended.isSome then x.ended
            else if st = 6 then some (.trapped rec)
            else if st = 10 then some (.fenced d)
            else none })
    | none => s
  | .spUndone key =>
    match s.byKey key with
    | some n => s.updLaunch n (fun x => { x with doneBy := x.doneBy.filter (fun d => d != src) })
    | none => s
  | _ => s

end Sys2Proof.Machine
end

