-- ==== Sys2Proof/Machine/EHost.lean ====
section
/-!
DEFINITION. Brugus: segments, sessions, the operations of the host and of the administrator (03 R42-R44, R55, R57, R58, 19
R378, R384, R385).
-/

namespace Sys2Proof.Machine

open Sys2Proof

/-! ## Segments (03 R57) -/

/-- Segments of a message are acknowledged. Numbers of replies and of the device's own operations share one form: an
entry stands for every message of the session with that number (log 28). -/
def State.acked (s : State) (session op idx : Nat) : State :=
  { s with
    unacked := (s.unacked.map (fun x =>
      if x.1.session = session ∧ x.1.op = op then (x.1, x.2.filter (fun i => i.1 != idx)) else x)).filter
        (fun x => !x.2.isEmpty) }

/-- BRUGUS_ACK (03 R57): one listed segment of an ACK; in a session that is not open it is discarded. -/
def execBrugusAck (session opn seg : Nat) (s : State) : Host.Outcome State Fault Refusal :=
  if (s.sessions.find session).isSome then .next (s.acked session opn seg) else idle s

/-- BRUGUS_RETRANSMIT (03 R57): the segments of a message that have had no acknowledgement for 500 µs since they were
sent are sent again. -/
def execBrugusRetransmit (i : Nat) (s : State) : Host.Outcome State Fault Refusal :=
  match s.unacked[i]? with
  | some x =>
    let due := x.2.filter (fun g => decide (g.2 + 500000 ≤ s.ns))
    if due = [] then idle s
    else
      .next { s with
        hostOut := s.hostOut ++ [{ x.1 with segs := due.map Prod.fst }]
        unacked := s.unacked.set i (x.1, x.2.map (fun g => if g.2 + 500000 ≤ s.ns then (g.1, s.ns) else g)) }
  | none => idle s

/-- Operation codes that a request of the host may have (03 Table 3.7), beside OPEN and ACK. -/
def assignedCode (c : Nat) : Bool := (2 ≤ c && c ≤ 14) || (16 ≤ c && c ≤ 21)

/-- A session past its operation. -/
def Session.past (x : Session) : Session :=
  { x with next := x.next + 1, segs := x.segs.filter (fun g => g.op != x.next), busy := false }

/-- Send the reply to the operation of a session, and go on to the next one. -/
def State.answerWith (s : State) (session op : Nat) (b : HostBody) : State :=
  let s1 := s.hostSend session op b
  match s1.sessions.find session with
  | some x => { s1 with sessions := s1.sessions.put session x.past }
  | none => s1

/-- Operations whose code is not assigned are answered with FORMAT in their turn (03 R57). -/
def State.flushBad (s : State) (session : Nat) : Nat → State
  | 0 => s
  | fuel + 1 =>
    match s.sessions.find session with
    | none => s
    | some x =>
      match x.ready with
      | some (c, _) =>
        if assignedCode c || x.busy then s
        else State.flushBad (s.answerWith session x.next (.reply c 7 [])) session fuel
      | none => s

/-- Reply with a status and go on. -/
def State.answer (s : State) (session op code status : Nat) (data : List Byte) : State :=
  (s.answerWith session op (.reply code status data)).flushBad session
    (((s.sessions.find session).map (fun x => x.segs.length)).getD 0)

/-- The header of a segment (03 Table 3.6). -/
structure SegHdr where
  code : Nat
  isReply : Bool
  last : Bool
  session : Nat
  op : Nat
  idx : Nat
  data : List Byte
  deriving DecidableEq, Repr

/-- Parse a datagram; none when the segment is malformed (03 R57). -/
def parseSegment (d : List Byte) : Option SegHdr :=
  if d.length < 32 ∨ bAt d 0 1 ≠ 1 ∨ 4 ≤ bAt d 2 1 ∨ bAt d 3 1 ≠ 0 ∨ bAt d 0x12 14 ≠ 0 ∨ bAt d 0xE 2 + 32 ≠ d.length ∨
      8192 < bAt d 0xE 2 then none
  else
    some { code := bAt d 1 1, isReply := (bAt d 2 1).testBit 0, last := (bAt d 2 1).testBit 1, session := bAt d 4 4,
           op := bAt d 8 4, idx := bAt d 0xC 2, data := d.drop 32 }

/-- The device description (03 Table 3.7). -/
def State.description (s : State) : HostBody :=
  .desc s.device (Config.cols * Config.rows - s.excluded.length)
    (s.excluded.map (fun c => (c % Config.cols, c / Config.cols))) s.fencedFns Config.securityVersion Config.certificates
    s.form s.bootFailed

/-- Keep a segment of an open session and acknowledge it. -/
def State.keepSegment (s : State) (x : Session) (g : SegHdr) : State :=
  if g.op < x.next || x.segs.any (fun y => y.op = g.op ∧ y.idx = g.idx) then s
  else
    let k : InSeg := { op := g.op, idx := g.idx, code := g.code, last := g.last, data := g.data }
    let s1 : State := { s with sessions := s.sessions.put g.session { x with segs := x.segs ++ [k] } }
    (s1.hostAck g.session [(g.op, g.idx)]).flushBad g.session (x.segs.length + 1)

/-- The source filter lets a datagram in (19 R386). -/
def State.sourceOk (s : State) (source : List Byte) : Bool := match s.sources with
  | some l => l.contains source
  | none => true

/-- BRUGUS_SEGMENT_RECEIVE (03 R57, 19 R386, R387): a frame of the Ethernet port, as the 6 bytes of its source address (log
29) and its datagram. -/
def execBrugusSegmentReceive (frame : List Byte) (s : State) : Host.Outcome State Fault Refusal :=
  match parseSegment (frame.drop 6) with
  | none => idle s
  | some g =>
    if !s.up || !s.sourceOk (frame.take 6) then idle s
    else if s.bootFailed.isSome then
      (if g.code = 12 ∧ !g.isReply then .next (s.hostSend g.session g.op s.description) else idle s)
    else if g.code = 1 ∧ !g.isReply then
      (if s.opens.any (fun o => o.op = g.op ∧ o.idx = g.idx) then idle s
      else
        let k : InSeg := { op := g.op, idx := g.idx, code := g.code, last := g.last, data := g.data }
        .next (({ s with opens := s.opens ++ [k] } : State).hostAck 0 [(g.op, g.idx)]))
    else
      match s.sessions.find g.session with
      | none =>
        if g.isReply || g.code = 48 then idle s
        else .next (s.hostSend g.session g.op (.reply g.code 3 []))
      | some x =>
        if g.code = 48 then
          .next ((upFrom (g.data.length / 8) 0).foldl (fun s i =>
            s.acked g.session (bAt g.data (8 * i + 4) 4) (bAt g.data (8 * i) 2)) s)
        else if g.isReply then idle s
        else .next (s.keepSegment x g)

/-! ## Performing an operation -/

/-- The next operation of a session, when it has a code and none is under way. -/
def State.request (s : State) (session code : Nat) : Option (Session × List Byte) :=
  match s.sessions.find session with
  | some x =>
    match x.ready with
    | some (c, d) => if c = code ∧ !x.busy then some (x, d) else none
    | none => none
  | none => none

/-- What an operation does: the state after it, its status (03 Table 3.8) and reply payload. -/
abbrev HostDone := State × Nat × List Byte

/-- Perform an operation of a kind of session: `admin` says which kind may run it, none when both may (03 R58). -/
def State.hostDo (s : State) (session code : Nat) (admin : Option Bool) (f : Session → List Byte → HostDone) :
    Host.Outcome State Fault Refusal :=
  match s.request session code with
  | none => idle s
  | some (x, d) =>
    if admin = some x.job.isSome then .next (s.answer session x.next code 10 [])
    else
      let r := f x d
      .next (r.1.answer session x.next code r.2.1 r.2.2)

/-! ## Sessions (03 R42, R58) -/

/-- The digest that a job's credentials must have; the administrator's for job 0 (03 R58). -/
def State.digestOf (s : State) (job : Nat) : Option (List Byte) :=
  if job = 0 then some Config.adminDigest else (s.jobs.find job).map (·.digest)

/-- OPEN (03 R42, R57, R58): the operation whose segment is the `i`-th that waits, once every segment of it has arrived.
Whether the OPEN counts in the numbers of the session that it opens is left open: the model expects the operation after
it under number 1 (DESIGN CHOICE, log 74). -/
def execHostOpen (i : Nat) (s : State) : Host.Outcome State Fault Refusal :=
  match s.opens[i]?.bind (fun o => (assembled s.opens o.op).map (fun e => (o.op, e.2))) with
  | none => idle s
  | some (op, d) =>
    let s1 : State := { s with opens := s.opens.filter (fun o => o.op != op) }
    let n := s.nextId + 1
    let refuse (st : Nat) : State := s1.hostSend 0 op (.reply 1 st [])
    let job := bAt d 0 4
    .next (
      if d.length ≠ 36 then refuse 7
      else if 256 ≤ s.sessions.length then refuse 1
      else
        match s.digestOf job with
        | none => refuse 3
        | some g =>
          if Config.sha384 (d.drop 4) = g then
            let x : Session := { job := if job = 0 then none else some job, next := 1, devNext := 1, segs := [], busy := false }
            let s2 : State := { s1.newId with sessions := s1.sessions.put n x }
            s2.hostSend n op (.reply 1 0 [])
          else refuse 6)

/-- CLOSE (03 R42): no work is cancelled. -/
def execClose (session : Nat) (s : State) : Host.Outcome State Fault Refusal :=
  match s.request session 2 with
  | none => idle s
  | some (x, d) =>
    if d ≠ [] then .next (s.answer session x.next 2 7 [])
    else
      let s1 := s.answerWith session x.next (.reply 2 0 [])
      .next { s1 with sessions := s1.sessions.del session }

/-! ## Memory (03 R43) -/

/-- Status of a translation fault (03 Table 3.8). -/
def faultReply (cls : Nat) : Nat := if cls = cXLATE then 4 else 5

/-- WRITE: page by page up to the first that is unmapped or not writable. -/
def State.hostWrite (s : State) (job : Nat) : Nat → Nat → Nat → List Byte → HostDone
  | 0, _, done, _ => (s, 0, natBytes 8 done)
  | fuel + 1, va, done, b =>
    if b = [] then (s, 0, natBytes 8 done)
    else if 2 ^ 57 ≤ va then (s, 4, natBytes 8 done)
    else
      let k := 65536 - va % 65536
      match s.translate job va .write with
      | .fault c => (s, faultReply c, natBytes 8 done)
      | .window _ _ => (s, 5, natBytes 8 done)
      | .pa p =>
        State.hostWrite (s.homeWriteBytes p (b.take k) false) job fuel (va + k) (done + min k b.length) (b.drop k)

/-- WRITE (03 R43). -/
def execWrite (session : Nat) (s : State) : Host.Outcome State Fault Refusal :=
  s.hostDo session 3 (some false) (fun x d =>
    if d.length < 8 then (s, 7, [])
    else if d.length = 8 ∨ 8 + 1048576 < d.length then (s, 11, [])
    else s.hostWrite (x.job.getD 0) 18 (bAt d 0 8) 0 (d.drop 8))

/-- READ (03 R43). -/
def execRead (session : Nat) (s : State) : Host.Outcome State Fault Refusal :=
  s.hostDo session 4 (some false) (fun x d =>
    if d.length ≠ 12 then (s, 7, [])
    else if bAt d 8 4 = 0 ∨ 1048576 < bAt d 8 4 then (s, 11, [])
    else
      match s.gread (x.job.getD 0) (bAt d 0 8) (bAt d 8 4) with
      | .error e => (s, faultReply e.1, [])
      | .ok b => (s, 0, b))

/-! ## Queues (03 R44) -/

/-- A queue of a session's job. -/
def State.queueOf (s : State) (x : Session) (q : Nat) : Option Queue :=
  (s.queue? q).filter (fun y => some y.job = x.job)

/-- Every page of a range is mapped. -/
def State.mapped (s : State) (job va n : Nat) : Bool :=
  (upFrom ((va + n - 1) / 65536 + 1 - va / 65536) (va / 65536)).all (fun p =>
    decide (65536 * p < 2 ^ 57) && ((s.job job).walk (65536 * p) 3).isSome)

/-- QREG (03 R44). -/
def execQreg (session : Nat) (s : State) : Host.Outcome State Fault Refusal :=
  s.hostDo session 5 (some false) (fun x d =>
    let base := bAt d 0 8
    let n := bAt d 8 1
    let job := x.job.getD 0
    if d.length ≠ 10 then (s, 7, [])
    else if base % 64 ≠ 0 ∨ n < 4 ∨ 16 < n ∨ 1 < bAt d 9 1 then (s, 11, [])
    else
      match s.queues.lowestFree 4096 0 with
      | none => (s, 2, [])
      | some q =>
        if !s.mapped job base (64 * 2 ^ n) then (s, 4, [])
        else
          let y : Queue :=
            { job := job
              base := base
              logN := n
              notify := bAt d 9 1 = 1
              tail := 0
              taken := 0
              owners := []
              removed := []
              phase := none
              slot := none
              waitSince := s.ns
              aged := 0
              blockedSince := none
              leaving := none }
          ({ s with queues := s.queues.put q y }, 0, natBytes 2 q))

/-- QDEL (03 R44). -/
def execQdel (session : Nat) (s : State) : Host.Outcome State Fault Refusal :=
  s.hostDo session 6 (some false) (fun x d =>
    let q := bAt d 0 2
    if d.length ≠ 2 then (s, 7, [])
    else
      match s.queueOf x q with
      | none => (s, 3, [])
      | some y =>
        if y.taken ≠ y.tail ∨ y.phase.isSome ∨ !(s.queueWorks q).isEmpty then (s, 8, [])
        else ({ s with queues := s.queues.del q }, 0, []))

/-- The physical places of ring slots, or the status of the first that cannot be written. -/
def State.ringSlots (s : State) (y : Queue) : List Nat → Except Nat (List Nat)
  | [] => .ok []
  | i :: r =>
    match s.translate y.job (y.base + 64 * (i % 2 ^ y.logN)) .write, State.ringSlots s y r with
    | .fault c, _ => .error (faultReply c)
    | .window _ _, _ => .error 5
    | _, .error e => .error e
    | .pa p, .ok l => .ok (p :: l)

/-- Free slots of a ring: a slot is free once its entry has been taken, that of a GRAPH once its instance is built (02
R39, 03 R45). -/
def State.freeSlots (s : State) (n : Nat) (y : Queue) : Nat :=
  let building := (s.queueWorks n).find? (fun e => e.2.kind = 2 && !e.2.started)
  2 ^ y.logN - (y.tail - ((building.bind (·.2.entry)).map Prod.snd).getD y.taken)

/-- APPEND (03 R44): the reply gives the number of free slots of the ring that it names, whatever becomes of it. -/
def execAppend (session : Nat) (s : State) : Host.Outcome State Fault Refusal :=
  s.hostDo session 7 (some false) (fun x d =>
    let q := bAt d 0 2
    let n := bAt d 2 2
    let told : List Byte := match (if d.length < 4 then none else s.queueOf x q) with
      | some y => natBytes 4 (s.freeSlots q y)
      | none => []
    if d.length < 4 then (s, 7, [])
    else if n = 0 ∨ 16 < n then (s, 11, told)
    else if d.length ≠ 4 + 64 * n then (s, 7, told)
    else
      match s.queueOf x q with
      | none => (s, 3, [])
      | some y =>
        let free := s.freeSlots q y
        if (s.job y.job).cancel then (s, 3, natBytes 4 free)
        else if free < n then (s, 2, natBytes 4 free)
        else
          match s.ringSlots y (upFrom n y.tail) with
          | .error e => (s, e, natBytes 4 free)
          | .ok l =>
            let s1 := ((upFrom n 0).zip l).foldl (fun s e =>
              s.homeWriteBytes e.2 ((d.drop (4 + 64 * e.1)).take 64) false) s
            let empty := y.taken = y.tail ∧ !s.headWaits q
            (s1.updQueue q (fun y =>
              { y with
                tail := y.tail + n
                owners := y.owners ++ List.replicate n session
                waitSince := if empty then s.ns else y.waitSince }), 0, natBytes 4 (free - n)))

/-! ## CANCEL (03 R55, R56) -/

/-- The works that a CANCEL names: replays or launches by tag and queue, or a launch by replay and node. -/
def State.cancelMatch (s : State) (level form q id node : Nat) : List Nat :=
  let kind := if level = 2 then 2 else 1
  let top := (s.queueWorks q).filter (fun e => e.2.kind = (if form = 1 then 2 else kind) ∧ e.2.tag = id)
  if level = 3 ∧ form = 1 then
    top.flatMap (fun r => ((s.nodeWorks r.1).filter (fun e => e.2.kind = 1 ∧ (e.2.node.map Prod.snd) = some node)).map Prod.fst)
  else top.map Prod.fst

/-- Replays named by tag whose node has not started: it will not, and counts as completed (03 R56). -/
def State.cancelUnstarted (s : State) (q id node : Nat) : List Nat :=
  (s.queueWorks q).filterMap (fun e =>
    match e.2.replay with
    | some r =>
      if e.2.kind = 2 ∧ e.2.tag = id ∧ node < r.nodes.length ∧ !r.startedNodes.contains node ∧
          ((r.nodes[node]?).map (·.kind)) = some 0 then some e.1
      else none
    | none => none)

/-- Cancel replays or launches; the state and whether any matched. -/
def State.cancelNamed (s : State) (y : Queue) (level form q id node : Nat) : State × Bool :=
  let kind := if level = 2 then 2 else 1
  let works := s.cancelMatch level form q id node
  let ring := if form = 1 then []
    else (s.untaken y).filter (fun e => bAt e.2.1 0 1 = kind ∧ bAt e.2.1 4 4 = id)
  let waiting := if level = 3 ∧ form = 1 then s.cancelUnstarted q id node else []
  let s1 := s.removeEntries q y ring
  let s2 := works.foldl (fun s n => s.cancelWork n 5 false) s1
  let s3 := waiting.foldl (fun s r =>
    (s.updWork r (fun w => { w with replay := w.replay.map (fun p =>
      { p with startedNodes := setAdd p.startedNodes node, doneNodes := setAdd p.doneNodes node }) })).replayEnd r) s2
  (s3, !works.isEmpty || !ring.isEmpty || !waiting.isEmpty)

/-- CANCEL (03 R55, R56). -/
def execCancel (session : Nat) (s : State) : Host.Outcome State Fault Refusal :=
  s.hostDo session 8 (some false) (fun x d =>
    let level := bAt d 0 1
    let form := bAt d 1 1
    let q := bAt d 2 2
    let id := bAt d 4 4
    let node := bAt d 8 2
    let job := x.job.getD 0
    if d.length ≠ 10 then (s, 7, [])
    else if 3 < level ∨ 1 < form ∨ (form = 1 ∧ level ≠ 3) then (s, 11, [])
    else if level = 0 then (s.cancelJob job true, 0, [])
    else if level = 1 then
      (if (s.phase? job id).isSome then (s.cancelPhase job id true, 0, []) else (s, 3, []))
    else
      match s.queueOf x q with
      | none => (s, 3, [])
      | some y =>
        let r := s.cancelNamed y level form q id node
        if r.2 then (r.1, 0, []) else (s, 3, []))

/-! ## Host windows (19 R378) -/

/-- WREG: 64 KiB to 1 TiB in units of 64 KiB. -/
def execWreg (session : Nat) (s : State) : Host.Outcome State Fault Refusal :=
  s.hostDo session 9 (some false) (fun x d =>
    let n := bAt d 1 8
    let job := x.job.getD 0
    if d.length ≠ 9 then (s, 7, [])
    else if n = 0 ∨ n % 65536 ≠ 0 ∨ 2 ^ 40 < n then (s, 11, [])
    else
      let j := s.job job
      ({ s with jobs := s.jobs.put job { j with windows := j.windows.put (bAt d 0 1) (session, n) } }, 0, []))

/-- The pages of a job that lead to a window: first address and size. -/
def Job.windowPages (j : Job) (w : Nat) : List (Nat × Nat) :=
  j.pt.filterMap (fun x =>
    if pteOk x.1.1 x.2 && fld x.2 1 1 == 0 && fld x.2 55 55 == 1 && fld x.2 47 40 == w then
      some (x.1.2 * 2 ^ ptShift x.1.1, 2 ^ ptShift x.1.1)
    else none)

/-- The GLOBAL addresses of a COPY entry that is under way: first address and size of what it reads and writes. -/
def Work.spans (w : Work) : List (Nat × Nat) :=
  if w.copy.isSome then [8, 0x10].map (fun o => (fld (w.operand o) 56 0 % 2 ^ (if fld (w.operand o) 63 60 = 1 then 48 else 57), bAt w.bytes 0x18 8))
  else []

/-- A transfer of a job uses a window: a piece is unanswered, or a part of what it reads or writes lies there. -/
def State.windowUsed (s : State) (job w : Nat) : Bool :=
  let pages := (s.job job).windowPages w
  let spans := (s.works.filter (fun e => e.2.job == job)).flatMap (fun e => e.2.spans) ++
    (s.cells.filter (fun e => (s.launchOf e.1).job == job)).flatMap (fun e => e.2.copy.xfers.flatMap (s.spans e.1))
  s.winOps.any (fun x => x.job == job && x.window == w) ||
  spans.any (fun a => pages.any (fun p => decide (a.1 < p.1 + p.2 ∧ p.1 < a.1 + a.2)))

/-- WDEL: once no transfer uses the window. -/
def execWdel (session : Nat) (s : State) : Host.Outcome State Fault Refusal :=
  match s.request session 10 with
  | none => idle s
  | some (x, d) =>
    if s.windowUsed (x.job.getD 0) (bAt d 0 1) && d.length == 1 then idle s
    else
      s.hostDo session 10 (some false) (fun x d =>
        let job := x.job.getD 0
        let j := s.job job
        if d.length ≠ 1 then (s, 7, [])
        else if (j.windows.find (bAt d 0 1)).isNone then (s, 3, [])
        else ({ s with jobs := s.jobs.put job { j with windows := j.windows.del (bAt d 0 1) } }, 0, []))

/-- The answer to a piece of a transfer reaches whoever asked for it: a cell's engine or the copy unit of a work here, or
another device. -/
def State.pieceAnswer (s : State) (job dev cell seg : Nat) (ans : SegAns) : State :=
  if dev ≠ s.device then s.sendPiece dev job cell seg ans
  else if cell < 768 then s.segAnswer cell seg ans
  else
    s.updWork (cell - 768) (fun w =>
      { w with copy := w.copy.map (fun c =>
        { c with segs := c.segs.map (fun g => if g.id = seg ∧ g.answer = none then { g with answer := some ans } else g) }) })

/-- WACK: acknowledges a WINW segment or answers a WINR; it has no reply. -/
def execWack (session : Nat) (s : State) : Host.Outcome State Fault Refusal :=
  match s.request session 11 with
  | none => idle s
  | some (x, d) =>
    let s1 : State := { s with sessions := s.sessions.put session x.past }
    let data := d.drop 6
    if x.job.isNone then .next (s.answer session x.next 11 10 [])
    else if d.length < 6 then .next (s.answer session x.next 11 7 [])
    else
      match s.winOps.find? (fun w => w.session = session ∧ w.op = bAt d 0 4) with
      | none => .next s1
      | some w =>
        if bAt d 4 2 ≠ 0 ∨ data.length ≠ w.n.getD 0 then .next s1
        else
          .next (({ s1 with winOps := s1.winOps.erase w } : State).pieceAnswer w.job w.dev w.cell w.seg
            (.data (data.map (fun b => (b, false)))))

/-- HOST_WINDOW_TIMEOUT (19 R378): a segment of a host window without answer for 100 ms counts as refused with
UNREACHABLE. -/
def execHostWindowTimeout (cell seg : Nat) (s : State) : Host.Outcome State Fault Refusal :=
  match s.winOps.find? (fun w => w.cell = cell ∧ w.seg = seg ∧ w.sentAt + 100000000 ≤ s.ns) with
  | some w => .next (({ s with winOps := s.winOps.erase w } : State).pieceAnswer w.job w.dev cell seg (.refused 6))
  | none => idle s

/-! ## What the device tells of itself -/

/-- DESC (03 R57). -/
def execDesc (session : Nat) (s : State) : Host.Outcome State Fault Refusal :=
  match s.request session 12 with
  | none => idle s
  | some (x, d) =>
    if d ≠ [] then .next (s.answer session x.next 12 7 [])
    else .next (s.answerWith session x.next s.description)

/-- The bytes that the signature of a report covers (19 R385; log 14). -/
def reportBytes (measured : List (List Byte)) (nonce : List Byte) : List Byte :=
  Config.serial ++ natBytes 8 Config.securityVersion ++ measured.flatten ++ nonce

/-- ATTEST (19 R385). -/
def execAttest (session : Nat) (s : State) : Host.Outcome State Fault Refusal :=
  match s.request session 13 with
  | none => idle s
  | some (x, d) =>
    if d.length ≠ 32 then .next (s.answer session x.next 13 7 [])
    else
      .next (s.answerWith session x.next
        (.report Config.serial Config.securityVersion s.measured d (Config.signature (reportBytes s.measured d))))

/-- A die monitor (19 Table 19.5): what the model keeps, zero for the reserved ones, and a free value for the rest (log
18). -/
def State.dieMonitor (s : State) (die i : Nat) : Word :=
  if 29 ≤ i then 0
  else if i = 6 then w64 (s.jobs.foldl (fun n e => n + e.2.pins.length) 0)
  else if i = 24 then w64 ((s.dieMon.find (32 * die + i)).getD 0 + if s.half then s.now - s.stepAt else 0)
  else if [7, 8, 9, 10, 11, 12, 13, 14, 15, 21, 22, 23, 25, 28].contains i then w64 ((s.dieMon.find (32 * die + i)).getD 0)
  else Config.freeWord (s.fresh * 1024 + 32 * die + i)

/-- PMREAD (19 R384). -/
def execPmread (session : Nat) (s : State) : Host.Outcome State Fault Refusal :=
  s.hostDo session 14 none (fun _ d =>
    if d.length ≠ 1 then (s, 7, [])
    else if 3 < bAt d 0 1 then (s, 11, [])
    else (s, 0, ((upFrom 32 0).map (fun i => natBytes 8 (s.dieMonitor (bAt d 0 1) i).toNat)).flatten))

/-! ## Jobs (03 R58) -/

/-- JOBNEW's fields in range (03 Table 3.10). -/
def jobNewOk (d : List Byte) : Bool :=
  let id := bAt d 0 4
  1 ≤ id && id ≤ 4095 && bAt d 8 1 ≤ 3 && bAt d 9 1 ≤ 1 && bAt d 0xA 1 ≤ 2 && bAt d 0xB 1 ≤ 2 && bAt d 0xC 1 ≤ 192 &&
  6 ≤ bAt d 0xD 1 && bAt d 0xD 1 ≤ 16 && bAt d 0x48 8 % 65536 = 0 && bAt d 0x50 8 % 65536 = 0 &&
  bAt d 0x48 8 + bAt d 0x50 8 ≤ Config.memBytes && bAt d 0x58 8 % 256 = 0 && bAt d 0x60 8 % 256 = 0 &&
  bAt d 0x68 8 % 32 = 0 && bAt d 0x70 8 % 64 = 0 && bAt d 0x78 8 % 65536 = 0 &&
  (bAt d 9 1 = 1 || bAt d 0x78 8 = 0) && bAt d 0x58 8 < 2 ^ 57 && bAt d 0x68 8 < 2 ^ 57 && bAt d 0x70 8 < 2 ^ 57

/-- The job that a JOBNEW payload describes. -/
def jobOf (d : List Byte) (device : Nat) : Job :=
  { Job.zero with
    priority := bAt d 8 1
    preemptible := bAt d 9 1 = 1
    umbra := bAt d 0xA 1
    containment := bAt d 0xB 1
    quota := bAt d 0xC 1
    poisonN := bAt d 0xD 1
    digest := (d.drop 0x18).take 48
    allotBase := bAt d 0x48 8
    allotSize := bAt d 0x50 8
    poolBase := bAt d 0x58 8
    poolSize := bAt d 0x60 8
    poisonRing := bAt d 0x68 8
    poisonBlock := bAt d 0x70 8
    shadowSize := bAt d 0x78 8
    devSet := [device] }

/-- JOBNEW (03 R58, 15 R310). Which status it gets when several refusals apply is left open: the first of FORMAT, RANGE,
FULL, QUOTA (DESIGN CHOICE, log 75). -/
def execJobnew (session : Nat) (s : State) : Host.Outcome State Fault Refusal :=
  s.hostDo session 16 (some true) (fun _ d =>
    if d.length ≠ 128 ∨ bAt d 4 4 ≠ 0 ∨ bAt d 0xE 10 ≠ 0 then (s, 7, [])
    else if !jobNewOk d ∨ (s.jobs.find (bAt d 0 4)).isSome then (s, 11, [])
    else if 1024 ≤ s.jobs.length then (s, 2, [])
    else if 192 < s.jobs.foldl (fun n e => n + e.2.quota) 0 + bAt d 0xC 1 then (s, 9, [])
    else ({ s with jobs := s.jobs.put (bAt d 0 4) (jobOf d s.device) }, 0, []))

/-- Delete a job whose work is over (03 R58, 15 R319). -/
def State.deleteJob (s : State) (job : Nat) : State :=
  let s1 := s.endLeases job
  { s1 with
    jobs := s1.jobs.del job
    queues := s1.queues.filter (fun e => e.2.job != job)
    sessions := s1.sessions.filter (fun e => e.2.job != some job)
    phases := s1.phases.filter (fun p => p.job != job)
    invs := s1.invs.filter (fun e => e.2.job != job)
    tlbs := s1.tlbs.map (fun t => (t.1, t.2.filter (fun e => e.job != job))) }

/-- JOBDEL (03 R58): the cancel begins; the operation completes when all of it is done. -/
def execJobdel (session : Nat) (s : State) : Host.Outcome State Fault Refusal :=
  match s.sessions.find session with
  | none => idle s
  | some x =>
    match x.ready with
    | some (17, d) =>
      let job := bAt d 0 4
      if x.job.isSome then .next (s.answer session x.next 17 10 [])
      else if d.length ≠ 4 then .next (s.answer session x.next 17 7 [])
      else if (s.jobs.find job).isNone then .next (s.answer session x.next 17 3 [])
      else if !x.busy then
        .next (({ s with sessions := s.sessions.put session { x with busy := true } } : State).cancelJob job true)
      else if (s.job job).cancel || s.works.any (fun e => e.2.job == job) then idle s
      else .next ((s.deleteJob job).answer session x.next 17 0 [])
    | _ => idle s

/-! ## Page tables and pins (03 R58, 11 R231-R235) -/

/-- The number of 64 KiB units of a page of a level. -/
def pageUnits (level : Nat) : Nat := 2 ^ (ptShift level - 16)

/-- A table entry of a level for an address. -/
def Job.setPte (j : Job) (level va : Nat) (e : Word) : Job :=
  let key := (level, va / 2 ^ ptShift level)
  { j with pt := j.pt.filter (fun x => x.1 != key) ++ (if e = 0 then [] else [(key, e)]) }

/-- The leaf that maps an address, with its level. -/
def Job.leafLevel (j : Job) (va : Nat) : Option Nat := (j.walk va 3).map Prod.snd

/-- A page of a level meets a mapping of another page size. -/
def Job.clash (j : Job) (level va : Nat) : Bool :=
  (match j.leafLevel va with
    | some l => l != level
    | none => false) ||
  j.pt.any (fun x => x.1.1 < level && x.1.2 * 2 ^ ptShift x.1.1 / 2 ^ ptShift level == va / 2 ^ ptShift level &&
    fld x.2 0 0 == 1 && fld x.2 1 1 == 0)

/-- Write a leaf and the tables that it needs; where a table lies is not modelled (log 6). -/
def Job.mapPage (j : Job) (level va : Nat) (leaf : Word) : Job :=
  ((upFrom (3 - level) (level + 1)).foldl (fun (j : Job) l => j.setPte l va 3) j).setPte level va leaf

/-- A table change takes effect; pins that it covers are revoked; the operation completes with the invalidation. -/
def State.invalidate (s : State) (job va units session op code : Nat) (j : Job) : State :=
  let page := va / 65536
  let hit (p : Pin) : Bool := decide (p.page < page + units ∧ page < p.page + p.n) && !p.revoking
  let j1 : Job := { j with pins := j.pins.map (fun p => if hit p then { p with revoking := true } else p) }
  let s1 := s.countDies 7 (j.pins.filter hit).length
  let i : Inv := { job := job, page := page, n := units, session := session, op := op, code := code, old := (s.job job).pt }
  let s2 : State := { s1.newId with jobs := s1.jobs.put job j1, invs := s1.invs.put s1.nextId i }
  match s2.sessions.find session with
  | some x => { s2 with sessions := s2.sessions.put session { x with busy := true } }
  | none => s2

/-- Bytes of GLOBAL memory lie in the pages of an invalidation. -/
def Inv.covers (i : Inv) (va n : Nat) : Bool := decide (va < 65536 * (i.page + i.n) ∧ 65536 * i.page < va + n)

/-- The cells of the launches of a job. -/
def State.jobCells (s : State) (job : Nat) : List Nat :=
  (s.cells.filter (fun e => e.2.launch.isSome && (s.launchOf e.1).job == job)).map Prod.fst

/-- A chunk or an element that has begun uses a page of an invalidation: it counts on its pins (11 R235). -/
def State.unitsOn (s : State) (i : Inv) : Bool :=
  (s.jobCells i.job).any (fun c => (s.cell c).copy.xfers.any (fun x => (s.begunSpans c x).any (fun v => i.covers v.1 v.2)))

/-- What L1s hold of the pages of an invalidation is written back, by the old translation, and dropped: every store that
used it has then been performed (11 R234). -/
def State.flushPages (s : State) (i : Inv) : State :=
  (s.jobCells i.job).foldl (fun s c =>
    ((s.cell c).l1.filter (fun x => i.covers (64 * x.va) 64)).foldl (fun s x => s.evictL1 c x.va) s) s

/-- INVALIDATION_COMPLETE (11 R234, R235), once no unit that has begun uses the pages: every TLB has dropped them, every
access by the old translation has been performed, revoked pins are removed and the operation that waits completes. -/
def execInvalidationComplete (inv : Nat) (s : State) : Host.Outcome State Fault Refusal :=
  match s.invs.find inv with
  | none => idle s
  | some i =>
    if s.unitsOn i then idle s
    else
      let s1 := (s.flushPages i).tlbDrop i.job i.page i.n
      let j := s1.job i.job
      let gone (p : Pin) : Bool := p.revoking && decide (p.page < i.page + i.n ∧ i.page < p.page + p.n)
      let s2 : State :=
        { s1 with
          invs := s1.invs.del inv
          jobs := if (s1.jobs.find i.job).isSome then s1.jobs.put i.job { j with pins := j.pins.filter (fun p => !gone p) }
            else s1.jobs }
      .next (s2.answer i.session i.op i.code 0 [])

/-- A leaf that JOBMAP may write for a job: in its allotment, or in a host window (11 R231, 19 R378). -/
def Job.leafOk (j : Job) (level pa : Nat) : Bool :=
  let size := 2 ^ ptShift level
  if pa.testBit 55 then nfld pa 54 48 = 0 && pa % 2 ^ 40 + size ≤ 2 ^ 40
  else j.allotBase ≤ pa && pa + size ≤ j.allotBase + j.allotSize

/-- JOBMAP (03 R58). -/
def execJobmap (session : Nat) (s : State) : Host.Outcome State Fault Refusal :=
  match s.request session 18 with
  | none => idle s
  | some (x, d) =>
    let job := bAt d 0 4
    let level := bAt d 4 1
    let attr := bAt d 5 1
    let n := bAt d 8 4
    let va := bAt d 0xC 8
    let pa := bAt d 0x14 8
    let size := 2 ^ ptShift level
    let j := s.job job
    let answer (st : Nat) : Host.Outcome State Fault Refusal := .next (s.answer session x.next 18 st [])
    let pages := (upFrom n 0).map (fun i => (va + i * size, pa + i * size))
    if x.job.isSome then answer 10
    else if d.length ≠ 28 ∨ bAt d 6 2 ≠ 0 then answer 7
    else if (s.jobs.find job).isNone then answer 3
    else if 2 < level ∨ 7 < attr ∨ n = 0 ∨ va % size ≠ 0 ∨ pa % size ≠ 0 ∨ 2 ^ 57 < va + n * size ∨ 2 ^ 56 ≤ pa ∨
        pages.any (fun p => !j.leafOk level p.2 || p.2.testBit 55 != pa.testBit 55 || j.clash level p.1) then answer 11
    else
      let j1 := pages.foldl (fun (j : Job) p => j.mapPage level p.1 (w64 (p.2 + 4 * attr + 1))) j
      .next (s.invalidate job va (n * pageUnits level) session x.next 18 j1)

/-- JOBUNMAP (03 R58). -/
def execJobunmap (session : Nat) (s : State) : Host.Outcome State Fault Refusal :=
  match s.request session 19 with
  | none => idle s
  | some (x, d) =>
    let job := bAt d 0 4
    let level := bAt d 4 1
    let n := bAt d 8 4
    let va := bAt d 0xC 8
    let size := 2 ^ ptShift level
    let j := s.job job
    let answer (st : Nat) : Host.Outcome State Fault Refusal := .next (s.answer session x.next 19 st [])
    let pages := (upFrom n 0).map (fun i => va + i * size)
    if x.job.isSome then answer 10
    else if d.length ≠ 20 ∨ bAt d 5 3 ≠ 0 then answer 7
    else if (s.jobs.find job).isNone then answer 3
    else if 2 < level ∨ n = 0 ∨ va % size ≠ 0 ∨ 2 ^ 57 < va + n * size ∨ pages.any (fun p => j.clash level p) then answer 11
    else
      let j1 := pages.foldl (fun (j : Job) p => if j.leafLevel p = some level then j.setPte level p 0 else j) j
      .next (s.invalidate job va (n * pageUnits level) session x.next 19 j1)

/-- Whole mapped pages from an address: none where one is unmapped or the address is not its first byte. -/
def Job.pagesAt (j : Job) : Nat → Nat → Option (List Pin)
  | 0, _ => some []
  | n + 1, va =>
    match j.leafLevel va with
    | none => none
    | some l =>
      if va % 2 ^ ptShift l ≠ 0 then none
      else (Job.pagesAt j n (va + 2 ^ ptShift l)).map (fun r =>
        { page := va / 65536, n := pageUnits l, revoking := false } :: r)

/-- JOBPIN (03 R58, 11 R235): a page that is pinned again keeps one pin. -/
def execJobpin (session : Nat) (s : State) : Host.Outcome State Fault Refusal :=
  s.hostDo session 20 (some true) (fun _ d =>
    let job := bAt d 0 4
    let j := s.job job
    if d.length ≠ 20 ∨ bAt d 5 3 ≠ 0 then (s, 7, [])
    else if (s.jobs.find job).isNone then (s, 3, [])
    else if 1 < bAt d 4 1 then (s, 11, [])
    else
      match j.pagesAt (bAt d 8 4) (bAt d 0xC 8) with
      | none => (s, 4, [])
      | some l =>
        let rest := j.pins.filter (fun p => !l.any (fun q => q.page = p.page))
        if bAt d 4 1 = 1 then ({ s with jobs := s.jobs.put job { j with pins := rest } }, 0, [])
        else if 1024 < s.jobs.foldl (fun n e => if e.1 = job then n else n + e.2.pins.length) (rest.length + l.length) then
          (s, 2, [])
        else ({ s with jobs := s.jobs.put job { j with pins := rest ++ l } }, 0, []))

/-- JOBSET (03 R58). -/
def execJobset (session : Nat) (s : State) : Host.Outcome State Fault Refusal :=
  s.hostDo session 21 (some true) (fun _ d =>
    let job := bAt d 0 4
    let n := bAt d 6 2
    let j := s.job job
    let devs := (upFrom n 0).map (fun i => bAt d (8 + 2 * i) 2)
    if d.length < 8 ∨ bAt d 5 1 ≠ 0 ∨ d.length ≠ 8 + 2 * n then (s, 7, [])
    else if (s.jobs.find job).isNone then (s, 3, [])
    else if 15 < bAt d 4 1 ∨ n = 0 ∨ 2304 < n ∨ devs.any (fun x => 2303 < x) then (s, 11, [])
    else
      let sets := j.sets.put (bAt d 4 1) devs
      let all := sets.foldl (fun a e => e.2.foldl (fun a x => setAdd a x) a) [s.device]
      ({ s with jobs := s.jobs.put job { j with sets := sets, devSet := all } }, 0, []))

end Sys2Proof.Machine
end

