-- ==== Sys2Proof/Machine/EFabric.lean ====
section
/-!
DEFINITION. Frames of the Turob fabric as they arrive and are sent again, and reassemblies that are dropped (01 R22, 15
R307-R309).
-/

namespace Sys2Proof.Machine

open Sys2Proof

/-- The launch on this device that a request of another device belongs to. -/
def State.ctxLaunch (s : State) (ctx : RCtx) : Option Nat := ctx.key.bind s.byKey

/-- The launch, logical index and offset that an aperture 0xE address of a request names here (11 R219, 15 R309). -/
def State.farIdx (s : State) (ctx : RCtx) (a : Word) : Option (Nat × Nat × Nat) :=
  match s.ctxLaunch ctx with
  | some n =>
    let l := s.launch n
    if fld a 63 60 = 0xE ∧ fld a 29 20 < l.w * l.h then some (n, fld a 29 20, fld a 19 0) else none
  | none => none

/-- The cell and offset that such an address names, where its launch has a place. -/
def State.farCell (s : State) (ctx : RCtx) (a : Word) : Option (Nat × Nat) :=
  match s.farIdx ctx a with
  | some (n, i, off) => if (s.launch n).placed then some ((s.launch n).physIdx i, off) else none
  | none => none

/-- Change a cell of a saved launch in its record (17 R352). -/
def State.updSaved (s : State) (n i : Nat) (f : Cell → Cell) : State :=
  s.updLaunch n (fun l => { l with saved := l.saved.map (fun m =>
    { m with cells := match m.cells.find i with
      | some c => m.cells.put i (f c)
      | none => m.cells }) })

/-- A cell of a saved launch as its record holds it. -/
def State.savedCell (s : State) (n i : Nat) : Option Cell := ((s.launch n).saved).bind (fun m => m.cells.find i)

/-- A request that was posted to a cell before its launch was saved is performed there (17 R352). -/
def Spad.performSaved (p : Spad) (off : Nat) (op : MemOp) : Spad × AnsRes :=
  match op with
  | .fe f v =>
    match p.feOp off f v with
    | some r => (r.1, .ok r.2 false)
    | none => (p, .refused cXLATE)
  | op => p.perform off op

/-- Where a piece of a transfer of another device lies here, or the status of its refusal (13 R276). -/
def State.farBulk (s : State) (ctx : RCtx) (a : Word) (acc : Access) : Except Nat CPlace :=
  if s.fenced then .error 6
  else if fld a 63 60 = 0x1 then s.globalPlace ctx.job (fld a 47 0) acc
  else
    match s.farCell ctx a with
    | some p => s.spadPlace p.1 p.2
    | none => .error 6

/-- A memory request of another device enters this device's network on its way to its home; where it names nothing, or
the device is fenced, it is refused (15 R309, 18 R375). -/
def State.takeMem (s : State) (src : Nat) (r : MemReq) : State :=
  if s.fenced then s.memAnswer (.device src) r (.refused cXLATE)
  else
    if fld r.addr 63 60 = 0x1 then
      let p : MemPlace := .global (fld r.addr 47 0)
      s.send (.device src) (s.homeNode r.ctx.job p) .request (.mem { r with place := p })
    else
      match s.farIdx r.ctx r.addr with
      | some (n, i, off) =>
        match s.savedCell n i with
        | some c =>
          let x := c.spad.performSaved off r.op
          (s.updSaved n i (fun c => { c with spad := x.1 })).memAnswer (.device src) r x.2
        | none =>
          let c := (s.launch n).physIdx i
          if (s.launch n).placed then s.send (.device src) (.cell c) .request (.mem { r with place := .spad c off })
          else s.memAnswer (.device src) r (.refused cXLATE)
      | none => s.memAnswer (.device src) r (.refused cXLATE)

/-- A reservation of another device's message asks the target cell for a queue entry (12 R248), and waits with the record
of a saved cell; one that names nothing, or a fenced device, is refused (18 R375). -/
def State.takeReserve (s : State) (src : Nat) (m : AmMsg) : State :=
  let no : State := if m.buffered then s else s.sendFabric src .response (.amRefused m.who)
  if s.fenced then no
  else
    match s.farIdx m.ctx m.target with
    | some (n, i, _) =>
      let m1 : AmMsg := { m with toDev := s.device, toCell := (s.launch n).physIdx i }
      if (s.savedCell n i).isSome then s.updSaved n i (fun c => { c with amWaiting := c.amWaiting ++ [m1] })
      else if (s.launch n).placed then s.send (.device src) (.cell m1.toCell) .request (.amReserve m1)
      else no
    | none => no

/-- A message of another device goes to the entry that it has been granted (12 R248), in the record of a saved cell too. -/
def State.takeAm (s : State) (src : Nat) (m : AmMsg) (entry : Nat) : State :=
  match s.farIdx m.ctx m.target with
  | some (n, i, _) =>
    if (s.savedCell n i).isSome then
      let s1 := s.updSaved n i (fun c => c.putMessage m entry)
      if m.buffered then s1 else s1.sendFabric src .response (.amTaken m.who)
    else s.send (.device src) (.cell m.toCell) .request (.am m entry)
  | none => s

/-- A wait of another device is to be withdrawn here: it is, unless it has been answered or its message is still to come
(12 R243, 16 R323). -/
def State.takeWithdraw (s : State) (src : Nat) (w : Asker) : State :=
  let open_ := s.waitsHere w
  (if open_ then s.takeBack w else s).sendFabric src .response (.withdrawn w (open_ || s.fenced))

/-- A piece of a transfer is read for another device (15 R307). -/
def State.takeBulkRead (s : State) (src : Nat) (ctx : RCtx) (cell seg : Nat) (a : Word) (n : Nat) : State :=
  match s.farBulk ctx a .read with
  | .error e => s.sendPiece src ctx.job cell seg (.refused e)
  | .ok (.window w off) =>
    s.winSend ctx.job w src cell seg (.winr w off n)
  | .ok p => s.sendPiece src ctx.job cell seg (.data (s.placeRead p n))

/-- A piece of a transfer is written for another device; a HALO mailbox that it ends rises (13 R267, 15 R307). -/
def State.takeBulkWrite (s : State) (src : Nat) (ctx : RCtx) (cell seg : Nat) (a : Word) (d : List (Byte × Bool))
    (k : Option (KReg × Scope)) : State :=
  match s.farBulk ctx a .write with
  | .error e => s.sendPiece src ctx.job cell seg (.refused e)
  | .ok (.window w off) =>
    s.winSend ctx.job w src cell seg (.winw w off (d.map Prod.fst))
  | .ok p =>
    let s1 := s.placeWrite (s.ctxLaunch ctx) p d
    let s2 := match k, p with
      | some k, .spad c _ => s1.releaseBump c k.1 1 k.2
      | _, _ => s1
    s2.sendPiece src ctx.job cell seg (.data [])

/-! ## Exchange between the parts of a spread launch (14 R292-R296) -/

/-- The round of a launch with a number. -/
def State.roundOf (s : State) (n k : Nat) : Option Round := s.rounds.find? (fun r => r.launch = n ∧ r.n = k)

/-- The round of a launch with a number is over without having started here: it has been abandoned. -/
def State.roundGone (s : State) (n k : Nat) : Bool :=
  (s.launch n).cells.any (fun c => (s.cell c).role = k % 16 && decide (k / 16 < (s.cell c).exIssued)) &&
  !s.exch.any (fun x => x.req.launch == n && x.round == k && x.req.device == s.device)

/-- A Prism packet of another device: its round must have started here; none while it has not. -/
def State.takePacket (s : State) (src sub : Nat) (org : ExOrg) (slots : List (Nat × W32)) (b : Nat → MsgBody) :
    Option State :=
  match (org.key.bind s.byKey) with
  | none => some (s.sendFabric src .response (.exAck sub slots.length))
  | some n =>
    match s.roundOf n org.round with
    | some r =>
      let first := match r.slots.find? (fun sl => sl.dest = (slots.headD (0, 0)).1) with
        | some sl => sl.cell
        | none => (s.launch n).physIdx 0
      some (s.send (.device src) (.cell first) .exchange (b r.id))
    | none =>
      if s.roundGone n org.round then some (s.sendFabric src .response (.exAck sub slots.length)) else none

/-- A notice or a RETURN row of another device goes to the combiner of a logical index. -/
def State.takeRow (s : State) (src sub idx : Nat) (org : ExOrg) (b : Nat → MsgBody) : State :=
  match (org.key.bind s.byKey) with
  | none => s.sendFabric src .response (.exAck sub 1)
  | some n =>
    let c := (s.launch n).physIdx idx
    s.send (.device src) (.cell c) .exchange (b c)

/-- What became of a row of a FAST round at another device: the notice of its entry leaves (14 R294, R295). -/
def State.takeFast (s : State) (sub : Nat) (token : W32) (dest : Nat) (granted : Bool) : State :=
  match s.exSub sub, s.rounds.find? (fun r => r.subs.contains sub) with
  | some u, some r =>
    match r.ents.find? (fun e => e.state = .waiting ∧ e.ent.token = token ∧ e.dest = dest ∧ (r.subs[e.src]? = some sub)) with
    | some e => s.sendNotice u e (if granted then .granted else .dropped)
    | none => s.exPaid sub 1
  | _, _ => s.exPaid sub 1

/-- A DISPATCH of another part of a spread launch is known here under a number of its own. -/
def State.takeDemand (s : State) (key : Nat × Nat) (u : ExSub) : State :=
  match s.byKey key with
  | some n =>
    { s.newId with exch := s.exch ++ [{ u with id := s.nextId, req := { u.req with launch := n } }] }
  | none => s

/-- A round has been abandoned at another device: it is here too (14 R292). -/
def State.takeAbandon (s : State) (key : Nat × Nat) (round code x : Nat) : State :=
  match s.byKey key with
  | some n =>
    let subs := s.exch.filter (fun u => u.req.launch = n ∧ u.req.dispatch ∧ u.round = round ∧ !u.decided)
    let s1 := s.abandon subs code x
    { s1 with rounds := s1.rounds.filter (fun r => !(r.launch == n && r.n == round && r.phase != .decided)) }
  | none => s

/-- A launch of which a part has contributed to a group holds the group on this device too, unless another launch of the
job does (16 R337). -/
def State.claimGroup (s : State) (key : Nat × Nat) (group : Nat) : State :=
  match s.byKey key with
  | some n =>
    let k := 16 * (s.launch n).job + group
    if (s.groups.find k).isSome then s else { s with groups := s.groups.put k { launch := n, contribs := [] } }
  | none => s

/-! ## Phases and jobs across the domain (03 R49, R56) -/

/-- Another device is done with its part of a phase. -/
def State.takePhaseDone (s : State) (src job id n : Nat) (cancelled : Bool) : State :=
  match s.phase? job id with
  | some _ => (s.updPhase job id (fun p => { p with done := AMap.put p.done src n })).phaseSweep job id
  | none =>
    let p : Phase := { job := job, id := id, set := [], graphs := 0, told := false, done := [(src, n)], cancel := false }
    if cancelled then s else { s with phases := s.phases ++ [p] }

/-- A phase is cancelled at another device: it is here too; where it is not open, every device of its set hears that
nothing of it is left here (03 R56). -/
def State.takePhaseCancel (s : State) (job id : Nat) (set : List Nat) : State :=
  match s.phase? job id with
  | some _ => s.cancelPhase job id false
  | none =>
    (set.filter (fun d => d != s.device)).foldl (fun s d => s.sendFabric d .control (.phaseDone job id 0 true)) s

/-- Another device has nothing left of a job that is being cancelled. -/
def State.takeJobGone (s : State) (src job : Nat) : State :=
  match s.jobs.find job with
  | some j => ({ s with jobs := s.jobs.put job { j with gone := setAdd j.gone src } } : State).jobSweep job
  | none => s

/-! ## Delivery -/

/-- Keep a message of another device until its unit takes it. -/
def State.toInbox (s : State) (src : Nat) (b : MsgBody) : State :=
  { s with inbox := s.inbox ++ [{ src := src, body := b, since := s.ns }] }

/-- A request of a lease has arrived and has not been looked at. -/
def State.leaseComing (s : State) (src id : Nat) : Bool :=
  s.inbox.any (fun m => m.src == src && (match m.body with | .leaseReq j _ _ => j == id | _ => false))

/-- A message of another device reaches the unit that takes it; none while that unit cannot take it yet. -/
def State.takeFar (s : State) (src : Nat) (b : MsgBody) : Option State :=
  match b with
  | .mem r => some (s.takeMem src r)
  | .memAns a => some (s.send (.device src) (.cell a.who.cell) .response b)
  | .spawnAns w _ => some (s.send (.device src) (.cell w.cell) .response b)
  | .amTaken w => some (s.send (.device src) (.cell w.cell) .response b)
  | .amReply w _ => some (s.send (.device src) (.cell w.cell) .response b)
  | .amGrant m _ => some (s.send (.device src) (.cell m.who.cell) .response b)
  | .amReserve m => some (s.takeReserve src m)
  | .amRefused w => some (s.send (.device src) (.cell w.cell) .response b)
  | .am m entry => some (s.takeAm src m entry)
  | .withdraw w => some (s.takeWithdraw src w)
  | .withdrawn w ok => some (s.waitWithdrawn w ok)
  | .bulkRead ctx cell seg a n => some (s.takeBulkRead src ctx cell seg a n)
  | .bulkWrite ctx cell seg a d k => some (s.takeBulkWrite src ctx cell seg a d k)
  | .bulkAns job cell seg ans => some (s.pieceAnswer job s.device cell seg ans)
  | .leaseReq id _ _ => some (if s.fenced then s.sendFabric src .control (.leaseGrant id []) else s.toInbox src b)
  | .leaseGrant id pairs => some (s.leaseGranted src id pairs)
  | .leaseNotice id pair now => some (s.leaseNoticed id pair now)
  | .leaseFree pair => some (s.ingressFreed src pair)
  | .leaseCancel id => if s.leaseComing src id then none else some (s.ingressCancel src id)
  | .leaseUpdate id n => if s.leaseComing src id then none else some (s.ingressUpdate src id n)
  | .packet _ sub token seq bad byp origin dev slots row poison org =>
    s.takePacket src sub org slots (fun r => .packet r sub token seq bad byp origin dev slots row poison org)
  | .notice idx t ct n sub org => some (s.takeRow src sub idx org (fun c => .notice c t ct n sub org))
  | .retRow idx t ct token dest bad row poison sub org =>
    some (s.takeRow src sub idx org (fun c => .retRow c t ct token dest bad row poison sub org))
  | .exAck sub n => some (s.exPaid sub n)
  | .exFast _ sub token dest granted => some (s.takeFast sub token dest granted)
  | .exDemand key u => some (s.takeDemand key u)
  | .exSlots key round slots => some { s with farSlots := s.farSlots ++ [(key, round, src, slots)] }
  | .exAbandon key round code x => some (s.takeAbandon key round code x)
  | .contrib key group c => 
    some (({ s with farContribs := s.farContribs ++ [(key, group, c)] } : State).claimGroup key group)
  | .spReserve key _ _ _ _ _ _ _ _ _ =>
    some (if s.fenced then s.sendFabric src .control (.spDone key 10 (Config.fenceDetail 4 0) []) else s.toInbox src b)
  | .spHeld _ => some (s.toInbox src b)
  | .spNoroom _ => some (s.toInbox src b)
  | .spUndefined _ => some (s.toInbox src b)
  | .spCommit _ _ => some (s.toInbox src b)
  | .spRelease _ => some (s.partHears src b)
  | .spCancel _ => some (s.partHears src b)
  | .spPreempt _ => some (s.partHears src b)
  | .spStopped _ => some (s.partHears src b)
  | .spSaved _ => some (s.partHears src b)
  | .spDone _ _ _ _ => some (s.partHears src b)
  | .spUndone _ => some (s.partHears src b)
  | .phaseDone job id n cancelled => some (s.takePhaseDone src job id n cancelled)
  | .phaseCancel job id set => some (s.takePhaseCancel job id set)
  | .jobCancel job => some (if (s.jobs.find job).isSome then s.cancelJob job false else s)
  | .jobGone job => some (s.takeJobGone src job)
  | _ => some s

/-- The plane on which a frame leaves: that of its pair, or any for the shared wavelengths (15 R305, R307). -/
def State.framePlane (s : State) (f : FabricMsg) : Nat :=
  match f.pair with
  | some p => p % 16
  | none => Config.pick s.fresh 2 0 % 16

/-- A frame that this device keeps has been acknowledged, or has failed at the receiver (15 R308). -/
def State.frameAcked (s : State) (dev : Nat) (cls : MsgClass) (seq : Nat) (good : Bool) : State :=
  let it (k : KeptFrame) : Bool := k.frame.dev == dev && k.frame.cls == cls && k.frame.seq == seq
  { s with fabricKept :=
      if good then s.fabricKept.filter (fun k => !it k)
      else s.fabricKept.map (fun k => if it k then { k with failed := true } else k) }

/-- A message that would make a part work again that has told its origin that it is done: the part takes that back first,
and the message waits until the origin has heard it (19 R377; log 80). -/
def State.takeBackDone (s : State) (b : MsgBody) : Option State :=
  match b with
  | .amReserve m =>
    match m.ctx.key, m.ctx.key.bind s.byKey with
    | some key, some n =>
      if (s.launch n).work.isSome then none
      else if (s.launch n).doneBy.contains s.device then
        some ((s.updLaunch n (fun x => { x with doneBy := x.doneBy.filter (fun d => d != s.device) })).sendFabric key.1 .control
          (.spUndone key))
      else if s.fabricKept.any (fun k => k.frame.body == .spUndone key) then some s
      else none
    | _, _ => none
  | _ => none

/-- TUROB_FRAME_RECEIVE (15 R307, R308): frame `i` of those on their way arrives. One that fails its CRC is discarded, a
duplicate too; one that comes early waits for those before it in its series. Every other frame is acknowledged. -/
def execTurobFrameReceive (i : Nat) (s : State) : Host.Outcome State Fault Refusal :=
  match s.fabricIn[i]? with
  | none => idle s
  | some f =>
    let s1 : State := { s with fabricIn := s.fabricIn.eraseIdx i }
    match f.body with
    | .frameAck cls seq good => .next (if f.good then s1.frameAcked f.dev cls seq good else s1)
    | _ =>
      let key := 8 * f.dev + f.cls.code
      let next := (s.fabricSeqIn.find key).getD 0
      if !f.good || f.seq < next then .next (s1.ackFrame f f.good)
      else if next < f.seq then idle s
      else
        match s.takeBackDone f.body with
        | some t => .next t
        | none =>
        match ({ s1 with fabricSeqIn := s1.fabricSeqIn.put key (next + 1) } : State).takeFar f.dev f.body with
        | some t => .next (t.ackFrame f true)
        | none => idle s

/-- TUROB_FRAME_RESEND (15 R308): kept frame `i`, which has failed its CRC or has been without an answer for 4 µs, is sent
again under its number on any wavelength that its class may use now, and counted at the C-die of its plane (01 R8). -/
def execTurobFrameResend (i : Nat) (s : State) : Host.Outcome State Fault Refusal :=
  match s.fabricKept[i]? with
  | some k =>
    if k.failed || decide (k.sentAt + 4000 ≤ s.ns) then
      let f : FabricMsg := { k.frame with pair := s.pickPair k.frame.seq k.frame.dev k.frame.cls k.frame.body }
      .next (({ s with
        fabricOut := s.fabricOut ++ [f]
        fabricKept := s.fabricKept.set i { frame := f, sentAt := s.ns, failed := false, tries := k.tries + 1 } } : State).countDie
          (s.framePlane f / 4) 21 1)
    else idle s
  | none => idle s

end Sys2Proof.Machine
end

