-- ==== Sys2Proof/Machine/EPower.lean ====
section
/-!
DEFINITION. Errors, fencing, bring-up and power (11 R227, 18 R373, 19 R387, R388).
-/

namespace Sys2Proof.Machine

open Sys2Proof

/-! ## Errors that ECC cannot correct (11 R227, R230) -/

/-- The entry in the poison log for a sector of a cell's L1, when `s` held it unpoisoned (19 R382). -/
def State.l1Logged (s : State) (c va : Nat) (on : Bool) (t : State) : State :=
  let l := s.launchOf c
  if on && (s.cell c).l1.any (fun y => y.va == va && !y.poison) then
    t.poisonAppend l.job (s.cell c).launch (poisonEntry 3 s.device ((s.cell c).idx l) l.kernelId.toNat 0 0 0 (64 * va))
  else t

/-- UNCORRECTABLE_ERROR: a sector of a cell's scratchpad, or of device memory with no cell named, is poisoned, where it
was not, and the job concerned gets an entry in its poison log, with address 0 (no virtual address is known here; 19
R382, Table 19.3). Numbers past the scratchpad's sectors name the 256 segments of the v registers and the 512 rows of the
z tiles, which are poisoned without an entry (18 Table 18.9), and after these the sectors of the cell's L1 by virtual
address, which the entry names (11 R230). -/
def execUncorrectableError (cell : Option Nat) (sector : Nat) (s : State) : Host.Outcome State Fault Refusal :=
  match cell with
  | some c =>
    let i := sector - Config.spadBytes / 64
    if Config.cols * Config.rows ≤ c then idle s
    else if Config.spadBytes / 64 ≤ sector then
      .next (s.updCell c (fun x =>
        if i < 256 then
          let r : VReg := Fin.ofNat 32 (i / 8)
          { x with v := { x.v with vp := x.v.vp.set r (x.v.vp[r] ||| BitVec.ofNat 8 (2 ^ (i % 8))) } }
        else if i < 768 then
          let r : ZReg := Fin.ofNat 8 ((i - 256) / 64)
          let t : Tile := x.m.z[r]
          { x with m := { x.m with z := x.m.z.set r { t with poison := t.poison ||| BitVec.ofNat 64 (2 ^ ((i - 256) % 64)) } } }
        else { x with l1 := x.l1.map (fun y => if y.va = i - 768 then { y with poison := true } else y) })
        |> s.l1Logged c (i - 768) (768 ≤ i))
    else if (s.cell c).spad.poison.contains sector then idle s
    else
      let l := s.launchOf c
      let s1 := s.updCell c (fun x => { x with spad := { x.spad with poison := setAdd x.spad.poison sector } })
      .next (if (s.cell c).launch.isSome then
          s1.poisonAppend l.job (s.cell c).launch (poisonEntry 3 s.device ((s.cell c).idx l) l.kernelId.toNat 0 0 0 0)
        else s1)
  | none =>
    if Config.memBytes / 64 ≤ sector ∨ s.memPoison.contains sector then idle s
    else
      let s1 := ({ s with memPoison := setAdd s.memPoison sector } : State).countDie (stackOf (64 * sector) / 2) 9 1
      let of_ := s.jobs.filter (fun e => e.2.allotBase ≤ 64 * sector ∧ 64 * sector < e.2.allotBase + e.2.allotSize)
      .next (of_.foldl (fun s e => s.poisonAppend e.1 none (poisonEntry 3 s.device 0 0 0 0 0 0)) s1)

/-! ## Fencing (18 R373, R374) -/

/-- A launch that a fence reaches completes FENCED. -/
def State.fenceLaunches (s : State) (detail : Nat) (hit : Nat × Launch → Bool) : State :=
  (s.launches.filter hit).foldl (fun s e => s.killLaunch e.1 (some (.fenced detail))) s

/-- Launches hold a place that a fenced cell spoils: they look for another one (03 R53). -/
def State.spoilHolds (s : State) (c : Nat) : State :=
  { s with works := s.works.map (fun e =>
      (e.1, { e.2 with hold := e.2.hold.filter (fun r => !inRect r c) })) }

/-- Fence a cell: it is excluded and its launch fails. -/
def State.fenceCell (s : State) (c detail : Nat) : State :=
  let s1 : State := { s with excluded := setAdd s.excluded c }
  (s1.fenceLaunches detail (fun e => some e.1 == (s.cell c).launch)).spoilHolds c

/-- Fence the Turob port of a plane: pairs on it end as by revocation without notice, here and at the sources of what
ends here. -/
def State.fencePlane (s : State) (plane : Nat) : State :=
  let s1 := (s.leases.map Prod.fst).foldl State.leaseFenced s
  let lost := s1.inLeases.flatMap (fun l => (l.pairs.filter (fun p => p % 16 = plane)).map (fun p => (l, p)))
  let s2 : State :=
    { s1 with inLeases := s1.inLeases.map (fun l => { l with pairs := l.pairs.filter (fun p => p % 16 != plane) }) }
  lost.foldl (fun s x => s.sendFabric x.1.src .control (.leaseNotice x.1.id x.2 true)) s2

/-- Fence a function: kind 0 a cell, 1 a Router, 2 an Exchange Engine, 3 the Turob port of a plane, 4 the device. -/
def State.fence (s : State) (kind index : Nat) : State :=
  let d := Config.fenceDetail kind index
  let s1 : State := if kind = 0 then s else { s with fencedFns := s.fencedFns ++ [(kind, index)] }
  let s2 := match kind with
    | 0 => s1.fenceCell index d
    | 1 => s1.fenceLaunches d (fun e => (s.router index).launch == some e.1)
    | 2 => s1.fenceLaunches d (fun e => e.2.placed && e.2.flags.getLsbD 4 && e.2.dies.contains index)
    | 3 => s1.fencePlane index
    | _ =>
      { s1.fenceLaunches d (fun _ => true) with excluded := upFrom (Config.cols * Config.rows) 0 }
  s2.eventSend none 3 (natBytes 8 d)

/-- What a fence of a kind can name, that has not been fenced. -/
def State.mayFence (s : State) (kind index : Nat) : Bool :=
  match kind with
  | 0 => decide (index < Config.cols * Config.rows) && !s.excluded.contains index
  | 1 => decide (index < 4) && !s.fencedFns.contains (1, index)
  | 2 => decide (index < 4) && !s.fencedFns.contains (2, index)
  | 3 => decide (index < 16) && !s.fencedFns.contains (3, index)
  | 4 => index = 0 && !s.fenced
  | _ => false

/-- FUNCTION_FENCE (18 R373, R374). -/
def execFunctionFence (kind index : Nat) (s : State) : Host.Outcome State Fault Refusal :=
  if s.mayFence kind index then .next (s.fence kind index) else idle s

/-! ## Bring-up and power (19 R387, R388) -/

/-- The repair map names positions of the grid, at most 4 on each C-die (01 R15). -/
def repairOk : Bool :=
  Config.repairMap.all (fun c => decide (c < Config.cols * Config.rows)) &&
  (upFrom 4 0).all (fun d => decide (((Config.repairMap.foldl setAdd []).filter (fun c => dieOf c = d)).length ≤ 4))

/-- The step of bring-up that fails (19 R385, R387): 1 firmware whose signature is bad or whose security version is below
the stored one, 2 a repair map whose signature is bad or that breaks its bounds, 3 to 5 HBM, links, Brugus. -/
def bootStep : Option Nat :=
  if !Config.stageSigned 0 || decide (Config.securityVersion < Config.storedVersion) then some 1
  else if !Config.stageSigned 1 || !repairOk then some 2
  else Config.trainingFails.map (fun i => i.val + 3)

/-- Bring-up reaches a step. -/
def bootReaches (n : Nat) : Bool := match bootStep with
  | some k => decide (n ≤ k)
  | none => true

/-- The measurement of a stage, taken with SHA-384 before the stage runs; zero where boot does not reach it (19 R385). -/
def measurement (i : Nat) : List Byte :=
  if (i ≤ 1 && bootReaches 2) || bootReaches 3 then Config.sha384 (Config.stage i) else List.replicate 48 0

/-- POWER_GOOD (19 R387): boot, repair map, device number, memory scrubbed to zero with clear poison, links, Brugus. What
the outside has sent and the order of turns stay. -/
def execPowerGood (s : State) : Host.Outcome State Fault Refusal :=
  .next { State.reset with
    agenda := s.agenda
    fresh := s.fresh
    nextId := s.nextId
    fabricIn := s.fabricIn
    device := if bootReaches 3 then Config.deviceNumber else 0
    excluded := if bootReaches 3 then Config.repairMap.foldl setAdd [] else []
    up := true
    bootFailed := bootStep
    measured := (upFrom 4 0).map measurement
    form := if bootReaches 5 then some (b2n Config.twoTiers) else none
    sources := if bootReaches 3 then Config.sourceFilter else none
    cap := 1000 + Config.capSet % 2201 }

/-- Move to a power step; a change is told to every session (19 R380). -/
def State.powerStep (s : State) (half : Bool) : State :=
  if s.half == half then s
  else
    (({ s with half := half, stepAt := s.now, sevenths := s.time7 } : State).countDies 24
      (if s.half then s.now - s.stepAt else 0)).eventSend none 4 [BitVec.ofNat 8 (b2n half)]

/-- POWER_CAP_EXCEED (19 R388): the end of a window of 1 ms, whose power is a free value: above the cap it forces the half
step, and from 90 % of the cap on it keeps the device there. -/
def execPowerCapExceed (s : State) : Host.Outcome State Fault Refusal :=
  let power := Config.windowPower s.fresh + 1
  let s1 : State := { s with warmAt := s.ns }
  if s.cap < power then .next ((s1.countDies 25 1).powerStep true)
  else if 9 * s.cap ≤ 10 * power then .next s1
  else idle s

/-- POWER_STEP_UP (19 R388): after 100 ms without a window of 90 % of the cap or more, nor a thermal limit (log 82). -/
def execPowerStepUp (s : State) : Host.Outcome State Fault Refusal :=
  if s.warmAt + 100000000 ≤ s.ns then .next (s.powerStep false) else idle s

/-- THERMAL_LIMIT (19 R388): above 95 °C the half step is forced; at 110 °C the device is fenced. -/
def execThermalLimit (fence : Bool) (s : State) : Host.Outcome State Fault Refusal :=
  let s1 := ({ s with warmAt := s.ns } : State).powerStep true
  if fence && s1.mayFence 4 0 then .next (s1.fence 4 0) else .next s1

end Sys2Proof.Machine
end

