-- ==== Sys2Proof/Machine/SArith.lean ====
section
/-!
DEFINITION. The S stream's arithmetic, constants and compact arithmetic forms (06 R109-R113, R128).
-/

namespace Sys2Proof.Machine

open Sys2Proof

/-- A register-register word: rd := v, complete in `lat` CCLK (06 R108, Table 6.1). -/
def aluWord (d : GReg) (v : Word) (len lat : Nat) (s : State) : Host.Outcome State Fault Refusal :=
  .next (s.writeRd d v len lat)

/-- ADD (06 Table 6.2). -/
def execAdd (d a b : GReg) (s : State) : Host.Outcome State Fault Refusal :=
  aluWord d (s.g a + s.g b) 4 1 s

/-- SUB (06 Table 6.2). -/
def execSub (d a b : GReg) (s : State) : Host.Outcome State Fault Refusal :=
  aluWord d (s.g a - s.g b) 4 1 s

/-- MUL (06 Table 6.2). -/
def execMul (d a b : GReg) (s : State) : Host.Outcome State Fault Refusal :=
  aluWord d (s.g a * s.g b) 4 3 s

/-- MULH (06 Table 6.2). -/
def execMulh (d a b : GReg) (s : State) : Host.Outcome State Fault Refusal :=
  aluWord d (mulHi (s.g a) (s.g b)) 4 3 s

/-- MULHU (06 Table 6.2). -/
def execMulhu (d a b : GReg) (s : State) : Host.Outcome State Fault Refusal :=
  aluWord d (mulHiU (s.g a) (s.g b)) 4 3 s

/-- DIV (06 R110). -/
def execDiv (d a b : GReg) (s : State) : Host.Outcome State Fault Refusal :=
  aluWord d (divS (s.g a) (s.g b)) 4 34 s

/-- DIVU (06 R110). -/
def execDivu (d a b : GReg) (s : State) : Host.Outcome State Fault Refusal :=
  aluWord d (divU (s.g a) (s.g b)) 4 34 s

/-- REM (06 R110). -/
def execRem (d a b : GReg) (s : State) : Host.Outcome State Fault Refusal :=
  aluWord d (remS (s.g a) (s.g b)) 4 34 s

/-- REMU (06 R110). -/
def execRemu (d a b : GReg) (s : State) : Host.Outcome State Fault Refusal :=
  aluWord d (remU (s.g a) (s.g b)) 4 34 s

/-- AND (06 Table 6.2). -/
def execAnd (d a b : GReg) (s : State) : Host.Outcome State Fault Refusal :=
  aluWord d (s.g a &&& s.g b) 4 1 s

/-- OR (06 Table 6.2). -/
def execOr (d a b : GReg) (s : State) : Host.Outcome State Fault Refusal :=
  aluWord d (s.g a ||| s.g b) 4 1 s

/-- XOR (06 Table 6.2). -/
def execXor (d a b : GReg) (s : State) : Host.Outcome State Fault Refusal :=
  aluWord d (s.g a ^^^ s.g b) 4 1 s

/-- ANDN (06 Table 6.2). -/
def execAndn (d a b : GReg) (s : State) : Host.Outcome State Fault Refusal :=
  aluWord d (s.g a &&& ~~~ (s.g b)) 4 1 s

/-- SHL (06 Table 6.2). -/
def execShl (d a b : GReg) (s : State) : Host.Outcome State Fault Refusal :=
  aluWord d (s.g a <<< shAmt (s.g b)) 4 1 s

/-- SHR (06 Table 6.2). -/
def execShr (d a b : GReg) (s : State) : Host.Outcome State Fault Refusal :=
  aluWord d (s.g a >>> shAmt (s.g b)) 4 1 s

/-- SRA (06 Table 6.2). -/
def execSra (d a b : GReg) (s : State) : Host.Outcome State Fault Refusal :=
  aluWord d ((s.g a).sshiftRight (shAmt (s.g b))) 4 1 s

/-- ROL (06 Table 6.2). -/
def execRol (d a b : GReg) (s : State) : Host.Outcome State Fault Refusal :=
  aluWord d (rolW (s.g a) (shAmt (s.g b))) 4 1 s

/-- MIN (06 Table 6.2). -/
def execMin (d a b : GReg) (s : State) : Host.Outcome State Fault Refusal :=
  aluWord d (minS (s.g a) (s.g b)) 4 1 s

/-- MAX (06 Table 6.2). -/
def execMax (d a b : GReg) (s : State) : Host.Outcome State Fault Refusal :=
  aluWord d (maxS (s.g a) (s.g b)) 4 1 s

/-- MINU (06 Table 6.2). -/
def execMinu (d a b : GReg) (s : State) : Host.Outcome State Fault Refusal :=
  aluWord d (minU (s.g a) (s.g b)) 4 1 s

/-- MAXU (06 Table 6.2). -/
def execMaxu (d a b : GReg) (s : State) : Host.Outcome State Fault Refusal :=
  aluWord d (maxU (s.g a) (s.g b)) 4 1 s

/-- SLT (06 Table 6.2). -/
def execSlt (d a b : GReg) (s : State) : Host.Outcome State Fault Refusal :=
  aluWord d (boolW ((s.g a).slt (s.g b))) 4 1 s

/-- SLTU (06 Table 6.2). -/
def execSltu (d a b : GReg) (s : State) : Host.Outcome State Fault Refusal :=
  aluWord d (boolW ((s.g a).ult (s.g b))) 4 1 s

/-- SEQ (06 Table 6.2). -/
def execSeq (d a b : GReg) (s : State) : Host.Outcome State Fault Refusal :=
  aluWord d (boolW (s.g a == s.g b)) 4 1 s

/-- CLZ (06 Table 6.2). -/
def execClz (d a : GReg) (s : State) : Host.Outcome State Fault Refusal :=
  aluWord d (w64 (clzFrom (s.g a) 64)) 4 1 s

/-- CTZ (06 Table 6.2). -/
def execCtz (d a : GReg) (s : State) : Host.Outcome State Fault Refusal :=
  aluWord d (w64 (ctzFrom (s.g a) 0 64)) 4 1 s

/-- POPC (06 Table 6.2). -/
def execPopc (d a : GReg) (s : State) : Host.Outcome State Fault Refusal :=
  aluWord d (w64 (popFrom (s.g a) 64)) 4 1 s

/-- SEXT (06 Table 6.2). -/
def execSext (d a : GReg) (z : ExtSize) (s : State) : Host.Outcome State Fault Refusal :=
  aluWord d (sextW z (s.g a)) 4 1 s

/-- ZEXT (06 Table 6.2). -/
def execZext (d a : GReg) (z : ExtSize) (s : State) : Host.Outcome State Fault Refusal :=
  aluWord d (zextW z (s.g a)) 4 1 s

/-- ADDI (06 R111). -/
def execAddi (d a : GReg) (i : BitVec 19) (s : State) : Host.Outcome State Fault Refusal :=
  aluWord d (s.g a + imm19W i) 4 1 s

/-- ANDI (06 R111). -/
def execAndi (d a : GReg) (i : BitVec 19) (s : State) : Host.Outcome State Fault Refusal :=
  aluWord d (s.g a &&& imm19W i) 4 1 s

/-- ORI (06 R111). -/
def execOri (d a : GReg) (i : BitVec 19) (s : State) : Host.Outcome State Fault Refusal :=
  aluWord d (s.g a ||| imm19W i) 4 1 s

/-- XORI (06 R111). -/
def execXori (d a : GReg) (i : BitVec 19) (s : State) : Host.Outcome State Fault Refusal :=
  aluWord d (s.g a ^^^ imm19W i) 4 1 s

/-- SLTI (06 R111). -/
def execSlti (d a : GReg) (i : BitVec 19) (s : State) : Host.Outcome State Fault Refusal :=
  aluWord d (boolW ((s.g a).slt (imm19W i))) 4 1 s

/-- SLTIU (06 R111). -/
def execSltiu (d a : GReg) (i : BitVec 19) (s : State) : Host.Outcome State Fault Refusal :=
  aluWord d (boolW ((s.g a).ult (imm19W i))) 4 1 s

/-- SHLI (06 R112). -/
def execShli (n : BitVec 6) (d a : GReg) (s : State) : Host.Outcome State Fault Refusal :=
  aluWord d (s.g a <<< n.toNat) 4 1 s

/-- SHRI (06 R112). -/
def execShri (n : BitVec 6) (d a : GReg) (s : State) : Host.Outcome State Fault Refusal :=
  aluWord d (s.g a >>> n.toNat) 4 1 s

/-- SRAI (06 R112). -/
def execSrai (n : BitVec 6) (d a : GReg) (s : State) : Host.Outcome State Fault Refusal :=
  aluWord d ((s.g a).sshiftRight n.toNat) 4 1 s

/-- ROLI (06 R112). -/
def execRoli (n : BitVec 6) (d a : GReg) (s : State) : Host.Outcome State Fault Refusal :=
  aluWord d (rolW (s.g a) n.toNat) 4 1 s

/-- LI (06 R113). -/
def execLi (d : GReg) (i : BitVec 19) (s : State) : Host.Outcome State Fault Refusal :=
  aluWord d (imm19W i) 4 1 s

/-- LIK (06 R113). -/
def execLik (i : BitVec 16) (d : GReg) (k : Fin 4) (s : State) : Host.Outcome State Fault Refusal :=
  aluWord d (putHalf (s.g d) i k) 4 1 s

/-- NOP (06 R127). -/
def execNop (s : State) : Host.Outcome State Fault Refusal := .next (s.finish 4 1)

/-- Compact MOV: OR gA, gB, gB (06 Table 6.6). -/
def execMovC16 (a b : GReg) (s : State) : Host.Outcome State Fault Refusal :=
  aluWord a (s.g b ||| s.g b) 2 1 s

/-- Compact ADD: gA := gB op gC (06 Table 6.6). -/
def execAddC16 (a b c : GReg) (s : State) : Host.Outcome State Fault Refusal :=
  aluWord a (s.g b + s.g c) 2 1 s

/-- Compact SUB: gA := gB op gC (06 Table 6.6). -/
def execSubC16 (a b c : GReg) (s : State) : Host.Outcome State Fault Refusal :=
  aluWord a (s.g b - s.g c) 2 1 s

/-- Compact AND: gA := gB op gC (06 Table 6.6). -/
def execAndC16 (a b c : GReg) (s : State) : Host.Outcome State Fault Refusal :=
  aluWord a (s.g b &&& s.g c) 2 1 s

/-- Compact OR: gA := gB op gC (06 Table 6.6). -/
def execOrC16 (a b c : GReg) (s : State) : Host.Outcome State Fault Refusal :=
  aluWord a (s.g b ||| s.g c) 2 1 s

/-- Compact XOR: gA := gB op gC (06 Table 6.6). -/
def execXorC16 (a b c : GReg) (s : State) : Host.Outcome State Fault Refusal :=
  aluWord a (s.g b ^^^ s.g c) 2 1 s

/-- Compact ADDI: imm4 is signed (06 Table 6.6). -/
def execAddiC16 (a b : GReg) (i : BitVec 4) (s : State) : Host.Outcome State Fault Refusal :=
  aluWord a (s.g b + i.signExtend 64) 2 1 s

/-- Compact SHLI (06 Table 6.6). -/
def execShliC16 (a b : GReg) (n : BitVec 4) (s : State) : Host.Outcome State Fault Refusal :=
  aluWord a (s.g b <<< n.toNat) 2 1 s

/-- Compact SHRI (06 Table 6.6). -/
def execShriC16 (a b : GReg) (n : BitVec 4) (s : State) : Host.Outcome State Fault Refusal :=
  aluWord a (s.g b >>> n.toNat) 2 1 s

/-- Compact LI: imm7 is zero-extended (06 Table 6.6). -/
def execLiC16 (a : GReg) (i : BitVec 7) (s : State) : Host.Outcome State Fault Refusal :=
  aluWord a (i.setWidth 64) 2 1 s

/-- Compact NOP (06 Table 6.6). -/
def execNopC16 (s : State) : Host.Outcome State Fault Refusal := .next (s.finish 2 1)

end Sys2Proof.Machine
end

