-- ==== Sys2Proof/Machine/Dispatch.lean ====
section
/-!
DEFINITION. The meaning of every instruction: one arm per row of the opcode table.
-/

namespace Sys2Proof.Machine

open Sys2Proof

/-- What an instruction does. -/
def exec (i : Instr) (s : State) : Host.Outcome State Fault Refusal :=
  match i with
  | .blk x0 x1 x2 => Sys2Proof.Machine.execBlk x0 x1 x2 s
  | .add x0 x1 x2 => Sys2Proof.Machine.execAdd x0 x1 x2 s
  | .sub x0 x1 x2 => Sys2Proof.Machine.execSub x0 x1 x2 s
  | .mul x0 x1 x2 => Sys2Proof.Machine.execMul x0 x1 x2 s
  | .mulh x0 x1 x2 => Sys2Proof.Machine.execMulh x0 x1 x2 s
  | .mulhu x0 x1 x2 => Sys2Proof.Machine.execMulhu x0 x1 x2 s
  | .div x0 x1 x2 => Sys2Proof.Machine.execDiv x0 x1 x2 s
  | .divu x0 x1 x2 => Sys2Proof.Machine.execDivu x0 x1 x2 s
  | .rem x0 x1 x2 => Sys2Proof.Machine.execRem x0 x1 x2 s
  | .remu x0 x1 x2 => Sys2Proof.Machine.execRemu x0 x1 x2 s
  | .and x0 x1 x2 => Sys2Proof.Machine.execAnd x0 x1 x2 s
  | .or x0 x1 x2 => Sys2Proof.Machine.execOr x0 x1 x2 s
  | .xor x0 x1 x2 => Sys2Proof.Machine.execXor x0 x1 x2 s
  | .andn x0 x1 x2 => Sys2Proof.Machine.execAndn x0 x1 x2 s
  | .shl x0 x1 x2 => Sys2Proof.Machine.execShl x0 x1 x2 s
  | .shr x0 x1 x2 => Sys2Proof.Machine.execShr x0 x1 x2 s
  | .sra x0 x1 x2 => Sys2Proof.Machine.execSra x0 x1 x2 s
  | .rol x0 x1 x2 => Sys2Proof.Machine.execRol x0 x1 x2 s
  | .min x0 x1 x2 => Sys2Proof.Machine.execMin x0 x1 x2 s
  | .max x0 x1 x2 => Sys2Proof.Machine.execMax x0 x1 x2 s
  | .minu x0 x1 x2 => Sys2Proof.Machine.execMinu x0 x1 x2 s
  | .maxu x0 x1 x2 => Sys2Proof.Machine.execMaxu x0 x1 x2 s
  | .slt x0 x1 x2 => Sys2Proof.Machine.execSlt x0 x1 x2 s
  | .sltu x0 x1 x2 => Sys2Proof.Machine.execSltu x0 x1 x2 s
  | .seq x0 x1 x2 => Sys2Proof.Machine.execSeq x0 x1 x2 s
  | .clz x0 x1 => Sys2Proof.Machine.execClz x0 x1 s
  | .ctz x0 x1 => Sys2Proof.Machine.execCtz x0 x1 s
  | .popc x0 x1 => Sys2Proof.Machine.execPopc x0 x1 s
  | .sext x0 x1 x2 => Sys2Proof.Machine.execSext x0 x1 x2 s
  | .zext x0 x1 x2 => Sys2Proof.Machine.execZext x0 x1 x2 s
  | .addi x0 x1 x2 => Sys2Proof.Machine.execAddi x0 x1 x2 s
  | .andi x0 x1 x2 => Sys2Proof.Machine.execAndi x0 x1 x2 s
  | .ori x0 x1 x2 => Sys2Proof.Machine.execOri x0 x1 x2 s
  | .xori x0 x1 x2 => Sys2Proof.Machine.execXori x0 x1 x2 s
  | .slti x0 x1 x2 => Sys2Proof.Machine.execSlti x0 x1 x2 s
  | .sltiu x0 x1 x2 => Sys2Proof.Machine.execSltiu x0 x1 x2 s
  | .shli x0 x1 x2 => Sys2Proof.Machine.execShli x0 x1 x2 s
  | .shri x0 x1 x2 => Sys2Proof.Machine.execShri x0 x1 x2 s
  | .srai x0 x1 x2 => Sys2Proof.Machine.execSrai x0 x1 x2 s
  | .roli x0 x1 x2 => Sys2Proof.Machine.execRoli x0 x1 x2 s
  | .li x0 x1 => Sys2Proof.Machine.execLi x0 x1 s
  | .lik x0 x1 x2 => Sys2Proof.Machine.execLik x0 x1 x2 s
  | .j x0 => Sys2Proof.Machine.execJ x0 s
  | .jal x0 => Sys2Proof.Machine.execJal x0 s
  | .jr x0 x1 => Sys2Proof.Machine.execJr x0 x1 s
  | .jalr x0 x1 x2 => Sys2Proof.Machine.execJalr x0 x1 x2 s
  | .beq x0 x1 x2 => Sys2Proof.Machine.execBeq x0 x1 x2 s
  | .bne x0 x1 x2 => Sys2Proof.Machine.execBne x0 x1 x2 s
  | .blt x0 x1 x2 => Sys2Proof.Machine.execBlt x0 x1 x2 s
  | .bge x0 x1 x2 => Sys2Proof.Machine.execBge x0 x1 x2 s
  | .bltu x0 x1 x2 => Sys2Proof.Machine.execBltu x0 x1 x2 s
  | .bgeu x0 x1 x2 => Sys2Proof.Machine.execBgeu x0 x1 x2 s
  | .bz x0 x1 => Sys2Proof.Machine.execBz x0 x1 s
  | .bnz x0 x1 => Sys2Proof.Machine.execBnz x0 x1 s
  | .ld x0 x1 x2 x3 => Sys2Proof.Machine.execLd x0 x1 x2 x3 s
  | .st x0 x1 x2 x3 => Sys2Proof.Machine.execSt x0 x1 x2 x3 s
  | .ldacq x0 x1 x2 x3 => Sys2Proof.Machine.execLdacq x0 x1 x2 x3 s
  | .strel x0 x1 x2 x3 => Sys2Proof.Machine.execStrel x0 x1 x2 x3 s
  | .ldfeTake x0 x1 x2 => Sys2Proof.Machine.execLdfeTake x0 x1 x2 s
  | .ldfePeek x0 x1 x2 => Sys2Proof.Machine.execLdfePeek x0 x1 x2 s
  | .ldfeTag x0 x1 x2 => Sys2Proof.Machine.execLdfeTag x0 x1 x2 s
  | .stfePut x0 x1 x2 => Sys2Proof.Machine.execStfePut x0 x1 x2 s
  | .stfeForce x0 x1 x2 => Sys2Proof.Machine.execStfeForce x0 x1 x2 s
  | .stfeClear x0 x1 => Sys2Proof.Machine.execStfeClear x0 x1 s
  | .aadd x0 x1 x2 x3 x4 x5 x6 => Sys2Proof.Machine.execAadd x0 x1 x2 x3 x4 x5 x6 s
  | .amin x0 x1 x2 x3 x4 x5 x6 => Sys2Proof.Machine.execAmin x0 x1 x2 x3 x4 x5 x6 s
  | .amax x0 x1 x2 x3 x4 x5 x6 => Sys2Proof.Machine.execAmax x0 x1 x2 x3 x4 x5 x6 s
  | .aminu x0 x1 x2 x3 x4 x5 x6 => Sys2Proof.Machine.execAminu x0 x1 x2 x3 x4 x5 x6 s
  | .amaxu x0 x1 x2 x3 x4 x5 x6 => Sys2Proof.Machine.execAmaxu x0 x1 x2 x3 x4 x5 x6 s
  | .aand x0 x1 x2 x3 x4 x5 x6 => Sys2Proof.Machine.execAand x0 x1 x2 x3 x4 x5 x6 s
  | .aor x0 x1 x2 x3 x4 x5 x6 => Sys2Proof.Machine.execAor x0 x1 x2 x3 x4 x5 x6 s
  | .axor x0 x1 x2 x3 x4 x5 x6 => Sys2Proof.Machine.execAxor x0 x1 x2 x3 x4 x5 x6 s
  | .aswp x0 x1 x2 x3 x4 x5 x6 => Sys2Proof.Machine.execAswp x0 x1 x2 x3 x4 x5 x6 s
  | .afadd x0 x1 x2 x3 x4 x5 x6 => Sys2Proof.Machine.execAfadd x0 x1 x2 x3 x4 x5 x6 s
  | .acas x0 x1 x2 x3 x4 x5 => Sys2Proof.Machine.execAcas x0 x1 x2 x3 x4 x5 s
  | .amsend x0 x1 x2 x3 x4 x5 => Sys2Proof.Machine.execAmsend x0 x1 x2 x3 x4 x5 s
  | .amreply x0 => Sys2Proof.Machine.execAmreply x0 s
  | .deleg x0 x1 x2 x3 x4 => Sys2Proof.Machine.execDeleg x0 x1 x2 x3 x4 s
  | .spawn x0 x1 => Sys2Proof.Machine.execSpawn x0 x1 s
  | .pusht x0 => Sys2Proof.Machine.execPusht x0 s
  | .tend => Sys2Proof.Machine.execTend s
  | .yield => Sys2Proof.Machine.execYield s
  | .fibid x0 => Sys2Proof.Machine.execFibid x0 s
  | .forkv x0 => Sys2Proof.Machine.execForkv x0 s
  | .forkm x0 => Sys2Proof.Machine.execForkm x0 s
  | .kinc x0 x1 => Sys2Proof.Machine.execKinc x0 x1 s
  | .kwait x0 x1 => Sys2Proof.Machine.execKwait x0 x1 s
  | .kwaitn x0 x1 => Sys2Proof.Machine.execKwaitn x0 x1 s
  | .kset x0 x1 => Sys2Proof.Machine.execKset x0 x1 s
  | .krd x0 x1 => Sys2Proof.Machine.execKrd x0 x1 s
  | .fenceAcq x0 => Sys2Proof.Machine.execFenceAcq x0 s
  | .fenceRel x0 => Sys2Proof.Machine.execFenceRel x0 s
  | .fenceAr x0 => Sys2Proof.Machine.execFenceAr x0 s
  | .fenceSc x0 => Sys2Proof.Machine.execFenceSc x0 s
  | .csend x0 x1 => Sys2Proof.Machine.execCsend x0 x1 s
  | .crecv x0 x1 => Sys2Proof.Machine.execCrecv x0 x1 s
  | .cgrant x0 x1 => Sys2Proof.Machine.execCgrant x0 x1 s
  | .calt x0 x1 => Sys2Proof.Machine.execCalt x0 x1 s
  | .cpyq => Sys2Proof.Machine.execCpyq s
  | .cpyqNb x0 => Sys2Proof.Machine.execCpyqNb x0 s
  | .cpya x0 x1 x2 x3 => Sys2Proof.Machine.execCpya x0 x1 x2 x3 s
  | .cpycQ x0 x1 => Sys2Proof.Machine.execCpycQ x0 x1 s
  | .cpycX x0 x1 => Sys2Proof.Machine.execCpycX x0 x1 s
  | .gath x0 => Sys2Proof.Machine.execGath x0 s
  | .scat x0 => Sys2Proof.Machine.execScat x0 s
  | .gateq x0 x1 x2 => Sys2Proof.Machine.execGateq x0 x1 x2 s
  | .binput x0 x1 x2 => Sys2Proof.Machine.execBinput x0 x1 x2 s
  | .exsend x0 => Sys2Proof.Machine.execExsend x0 s
  | .expoll x0 x1 => Sys2Proof.Machine.execExpoll x0 x1 s
  | .cinj x0 x1 x2 => Sys2Proof.Machine.execCinj x0 x1 x2 s
  | .cext x0 x1 => Sys2Proof.Machine.execCext x0 x1 s
  | .lease x0 x1 x2 => Sys2Proof.Machine.execLease x0 x1 x2 s
  | .lrel x0 => Sys2Proof.Machine.execLrel x0 s
  | .lqry x0 x1 => Sys2Proof.Machine.execLqry x0 x1 s
  | .cvtg x0 x1 => Sys2Proof.Machine.execCvtg x0 x1 s
  | .apt x0 x1 => Sys2Proof.Machine.execApt x0 x1 s
  | .cflush x0 x1 => Sys2Proof.Machine.execCflush x0 x1 s
  | .cinv x0 x1 => Sys2Proof.Machine.execCinv x0 x1 s
  | .pref x0 x1 => Sys2Proof.Machine.execPref x0 x1 s
  | .mfs x0 x1 => Sys2Proof.Machine.execMfs x0 x1 s
  | .mts x0 x1 => Sys2Proof.Machine.execMts x0 x1 s
  | .mtsRouter x0 => Sys2Proof.Machine.execMtsRouter x0 s
  | .mtsBinbase x0 => Sys2Proof.Machine.execMtsBinbase x0 s
  | .mtsSeed x0 => Sys2Proof.Machine.execMtsSeed x0 s
  | .mtsTrappc x0 => Sys2Proof.Machine.execMtsTrappc x0 s
  | .trap x0 => Sys2Proof.Machine.execTrap x0 s
  | .brk x0 => Sys2Proof.Machine.execBrk x0 s
  | .rtt => Sys2Proof.Machine.execRtt s
  | .rttDrop => Sys2Proof.Machine.execRttDrop s
  | .nop => Sys2Proof.Machine.execNop s
  | .movC16 x0 x1 => Sys2Proof.Machine.execMovC16 x0 x1 s
  | .addC16 x0 x1 x2 => Sys2Proof.Machine.execAddC16 x0 x1 x2 s
  | .subC16 x0 x1 x2 => Sys2Proof.Machine.execSubC16 x0 x1 x2 s
  | .andC16 x0 x1 x2 => Sys2Proof.Machine.execAndC16 x0 x1 x2 s
  | .orC16 x0 x1 x2 => Sys2Proof.Machine.execOrC16 x0 x1 x2 s
  | .xorC16 x0 x1 x2 => Sys2Proof.Machine.execXorC16 x0 x1 x2 s
  | .addiC16 x0 x1 x2 => Sys2Proof.Machine.execAddiC16 x0 x1 x2 s
  | .shliC16 x0 x1 x2 => Sys2Proof.Machine.execShliC16 x0 x1 x2 s
  | .shriC16 x0 x1 x2 => Sys2Proof.Machine.execShriC16 x0 x1 x2 s
  | .liC16 x0 x1 => Sys2Proof.Machine.execLiC16 x0 x1 s
  | .lddC16 x0 x1 x2 => Sys2Proof.Machine.execLddC16 x0 x1 x2 s
  | .stdC16 x0 x1 x2 => Sys2Proof.Machine.execStdC16 x0 x1 x2 s
  | .bzC16 x0 x1 => Sys2Proof.Machine.execBzC16 x0 x1 s
  | .bnzC16 x0 x1 => Sys2Proof.Machine.execBnzC16 x0 x1 s
  | .kincC16 x0 => Sys2Proof.Machine.execKincC16 x0 s
  | .kwaitC16 x0 => Sys2Proof.Machine.execKwaitC16 x0 s
  | .tendC16 => Sys2Proof.Machine.execTendC16 s
  | .yieldC16 => Sys2Proof.Machine.execYieldC16 s
  | .nopC16 => Sys2Proof.Machine.execNopC16 s
  | .tok x0 x1 => Sys2Proof.Machine.execTok x0 x1 s
  | .sadd x0 x1 x2 => Sys2Proof.Machine.execSadd x0 x1 x2 s
  | .ssub x0 x1 x2 => Sys2Proof.Machine.execSsub x0 x1 x2 s
  | .smul x0 x1 x2 => Sys2Proof.Machine.execSmul x0 x1 x2 s
  | .sand x0 x1 x2 => Sys2Proof.Machine.execSand x0 x1 x2 s
  | .sor x0 x1 x2 => Sys2Proof.Machine.execSor x0 x1 x2 s
  | .sxor x0 x1 x2 => Sys2Proof.Machine.execSxor x0 x1 x2 s
  | .sshl x0 x1 x2 => Sys2Proof.Machine.execSshl x0 x1 x2 s
  | .sshr x0 x1 x2 => Sys2Proof.Machine.execSshr x0 x1 x2 s
  | .saddi x0 x1 x2 => Sys2Proof.Machine.execSaddi x0 x1 x2 s
  | .sli x0 x1 x2 => Sys2Proof.Machine.execSli x0 x1 x2 s
  | .sbr x0 x1 x2 x3 => Sys2Proof.Machine.execSbr x0 x1 x2 x3 s
  | .shalt => Sys2Proof.Machine.execShalt s
  | .snop => Sys2Proof.Machine.execSnop s
  | .skinc x0 x1 => Sys2Proof.Machine.execSkinc x0 x1 s
  | .skincReg x0 x1 => Sys2Proof.Machine.execSkincReg x0 x1 s
  | .skwait x0 x1 => Sys2Proof.Machine.execSkwait x0 x1 s
  | .skwaitReg x0 x1 => Sys2Proof.Machine.execSkwaitReg x0 x1 s
  | .smfs x0 x1 => Sys2Proof.Machine.execSmfs x0 x1 s
  | .smts x0 x1 => Sys2Proof.Machine.execSmts x0 x1 s
  | .vfadd x0 x1 x2 x3 x4 => Sys2Proof.Machine.execVfadd x0 x1 x2 x3 x4 s
  | .vfsub x0 x1 x2 x3 x4 => Sys2Proof.Machine.execVfsub x0 x1 x2 x3 x4 s
  | .vfmul x0 x1 x2 x3 x4 => Sys2Proof.Machine.execVfmul x0 x1 x2 x3 x4 s
  | .vfmin x0 x1 x2 x3 x4 => Sys2Proof.Machine.execVfmin x0 x1 x2 x3 x4 s
  | .vfmax x0 x1 x2 x3 x4 => Sys2Proof.Machine.execVfmax x0 x1 x2 x3 x4 s
  | .vfdiv x0 x1 x2 x3 x4 => Sys2Proof.Machine.execVfdiv x0 x1 x2 x3 x4 s
  | .vfsqrt x0 x1 x2 x3 => Sys2Proof.Machine.execVfsqrt x0 x1 x2 x3 s
  | .vfabs x0 x1 x2 x3 => Sys2Proof.Machine.execVfabs x0 x1 x2 x3 s
  | .vfneg x0 x1 x2 x3 => Sys2Proof.Machine.execVfneg x0 x1 x2 x3 s
  | .vfcpys x0 x1 x2 x3 x4 => Sys2Proof.Machine.execVfcpys x0 x1 x2 x3 x4 s
  | .vfma x0 x1 x2 x3 x4 => Sys2Proof.Machine.execVfma x0 x1 x2 x3 x4 s
  | .vfms x0 x1 x2 x3 x4 => Sys2Proof.Machine.execVfms x0 x1 x2 x3 x4 s
  | .vfnma x0 x1 x2 x3 x4 => Sys2Proof.Machine.execVfnma x0 x1 x2 x3 x4 s
  | .vexp2 x0 x1 x2 => Sys2Proof.Machine.execVexp2 x0 x1 x2 s
  | .vlog2 x0 x1 x2 => Sys2Proof.Machine.execVlog2 x0 x1 x2 s
  | .vrcp x0 x1 x2 => Sys2Proof.Machine.execVrcp x0 x1 x2 s
  | .vrsqrt x0 x1 x2 => Sys2Proof.Machine.execVrsqrt x0 x1 x2 s
  | .vsinpi x0 x1 x2 => Sys2Proof.Machine.execVsinpi x0 x1 x2 s
  | .vcospi x0 x1 x2 => Sys2Proof.Machine.execVcospi x0 x1 x2 s
  | .vtanh x0 x1 x2 => Sys2Proof.Machine.execVtanh x0 x1 x2 s
  | .vsigm x0 x1 x2 => Sys2Proof.Machine.execVsigm x0 x1 x2 s
  | .vadd x0 x1 x2 x3 x4 => Sys2Proof.Machine.execVadd x0 x1 x2 x3 x4 s
  | .vsub x0 x1 x2 x3 x4 => Sys2Proof.Machine.execVsub x0 x1 x2 x3 x4 s
  | .vmul x0 x1 x2 x3 x4 => Sys2Proof.Machine.execVmul x0 x1 x2 x3 x4 s
  | .vmulh x0 x1 x2 x3 x4 => Sys2Proof.Machine.execVmulh x0 x1 x2 x3 x4 s
  | .vand x0 x1 x2 x3 x4 => Sys2Proof.Machine.execVand x0 x1 x2 x3 x4 s
  | .vor x0 x1 x2 x3 x4 => Sys2Proof.Machine.execVor x0 x1 x2 x3 x4 s
  | .vxor x0 x1 x2 x3 x4 => Sys2Proof.Machine.execVxor x0 x1 x2 x3 x4 s
  | .vshl x0 x1 x2 x3 x4 => Sys2Proof.Machine.execVshl x0 x1 x2 x3 x4 s
  | .vshr x0 x1 x2 x3 x4 => Sys2Proof.Machine.execVshr x0 x1 x2 x3 x4 s
  | .vsra x0 x1 x2 x3 x4 => Sys2Proof.Machine.execVsra x0 x1 x2 x3 x4 s
  | .vmin x0 x1 x2 x3 x4 => Sys2Proof.Machine.execVmin x0 x1 x2 x3 x4 s
  | .vmax x0 x1 x2 x3 x4 => Sys2Proof.Machine.execVmax x0 x1 x2 x3 x4 s
  | .vabs x0 x1 x2 x3 => Sys2Proof.Machine.execVabs x0 x1 x2 x3 s
  | .vcmp x0 x1 x2 x3 x4 x5 => Sys2Proof.Machine.execVcmp x0 x1 x2 x3 x4 x5 s
  | .vcvt x0 x1 x2 x3 x4 x5 x6 => Sys2Proof.Machine.execVcvt x0 x1 x2 x3 x4 x5 x6 s
  | .vqcvt x0 x1 x2 x3 x4 => Sys2Proof.Machine.execVqcvt x0 x1 x2 x3 x4 s
  | .vqadd x0 x1 x2 x3 => Sys2Proof.Machine.execVqadd x0 x1 x2 x3 s
  | .vqsub x0 x1 x2 x3 => Sys2Proof.Machine.execVqsub x0 x1 x2 x3 s
  | .vqtof x0 x1 x2 x3 x4 => Sys2Proof.Machine.execVqtof x0 x1 x2 x3 x4 s
  | .vsclf x0 x1 x2 x3 => Sys2Proof.Machine.execVsclf x0 x1 x2 x3 s
  | .vscla x0 x1 x2 x3 => Sys2Proof.Machine.execVscla x0 x1 x2 x3 s
  | .vredsum x0 x1 x2 x3 => Sys2Proof.Machine.execVredsum x0 x1 x2 x3 s
  | .vredmax x0 x1 x2 x3 => Sys2Proof.Machine.execVredmax x0 x1 x2 x3 s
  | .vredmin x0 x1 x2 x3 => Sys2Proof.Machine.execVredmin x0 x1 x2 x3 s
  | .vargmax x0 x1 x2 x3 => Sys2Proof.Machine.execVargmax x0 x1 x2 x3 s
  | .vargmin x0 x1 x2 x3 => Sys2Proof.Machine.execVargmin x0 x1 x2 x3 s
  | .vscan x0 x1 x2 x3 => Sys2Proof.Machine.execVscan x0 x1 x2 x3 s
  | .vscanx x0 x1 x2 x3 => Sys2Proof.Machine.execVscanx x0 x1 x2 x3 s
  | .vperm x0 x1 x2 x3 => Sys2Proof.Machine.execVperm x0 x1 x2 x3 s
  | .vsldu x0 x1 x2 x3 x4 => Sys2Proof.Machine.execVsldu x0 x1 x2 x3 x4 s
  | .vsldd x0 x1 x2 x3 x4 => Sys2Proof.Machine.execVsldd x0 x1 x2 x3 x4 s
  | .vbcst x0 x1 x2 x3 => Sys2Proof.Machine.execVbcst x0 x1 x2 x3 s
  | .vsel x0 x1 x2 x3 x4 => Sys2Proof.Machine.execVsel x0 x1 x2 x3 x4 s
  | .vcmprs x0 x1 x2 x3 => Sys2Proof.Machine.execVcmprs x0 x1 x2 x3 s
  | .vexpnd x0 x1 x2 x3 => Sys2Proof.Machine.execVexpnd x0 x1 x2 x3 s
  | .vmov x0 x1 x2 x3 => Sys2Proof.Machine.execVmov x0 x1 x2 x3 s
  | .mand x0 x1 x2 x3 => Sys2Proof.Machine.execMand x0 x1 x2 x3 s
  | .mor x0 x1 x2 x3 => Sys2Proof.Machine.execMor x0 x1 x2 x3 s
  | .mxor x0 x1 x2 x3 => Sys2Proof.Machine.execMxor x0 x1 x2 x3 s
  | .mnot x0 x1 x2 => Sys2Proof.Machine.execMnot x0 x1 x2 s
  | .mpop x0 x1 x2 => Sys2Proof.Machine.execMpop x0 x1 x2 s
  | .mset x0 x1 x2 => Sys2Proof.Machine.execMset x0 x1 x2 s
  | .mfirst x0 x1 x2 => Sys2Proof.Machine.execMfirst x0 x1 x2 s
  | .vld x0 x1 x2 x3 => Sys2Proof.Machine.execVld x0 x1 x2 x3 s
  | .vst x0 x1 x2 x3 => Sys2Proof.Machine.execVst x0 x1 x2 x3 s
  | .vlds x0 x1 x2 x3 => Sys2Proof.Machine.execVlds x0 x1 x2 x3 s
  | .vsts x0 x1 x2 x3 => Sys2Proof.Machine.execVsts x0 x1 x2 x3 s
  | .vldx x0 x1 x2 x3 => Sys2Proof.Machine.execVldx x0 x1 x2 x3 s
  | .vstx x0 x1 x2 x3 => Sys2Proof.Machine.execVstx x0 x1 x2 x3 s
  | .vldz x0 x1 x2 x3 => Sys2Proof.Machine.execVldz x0 x1 x2 x3 s
  | .vstz x0 x1 x2 x3 => Sys2Proof.Machine.execVstz x0 x1 x2 x3 s
  | .vmrgKz x0 x1 x2 x3 => Sys2Proof.Machine.execVmrgKz x0 x1 x2 x3 s
  | .vmrgDz x0 x1 x2 x3 => Sys2Proof.Machine.execVmrgDz x0 x1 x2 x3 s
  | .vmrgc x0 x1 x2 x3 x4 => Sys2Proof.Machine.execVmrgc x0 x1 x2 x3 x4 s
  | .vstrm x0 x1 => Sys2Proof.Machine.execVstrm x0 x1 s
  | .vstrmx x0 => Sys2Proof.Machine.execVstrmx x0 s
  | .vfaddC16 x0 x1 x2 => Sys2Proof.Machine.execVfaddC16 x0 x1 x2 s
  | .vfmulC16 x0 x1 x2 => Sys2Proof.Machine.execVfmulC16 x0 x1 x2 s
  | .vfmaC16 x0 x1 x2 => Sys2Proof.Machine.execVfmaC16 x0 x1 x2 s
  | .vaddC16 x0 x1 x2 => Sys2Proof.Machine.execVaddC16 x0 x1 x2 s
  | .vmovC16 x0 x1 => Sys2Proof.Machine.execVmovC16 x0 x1 s
  | .vldC16 x0 x1 x2 => Sys2Proof.Machine.execVldC16 x0 x1 x2 s
  | .vstC16 x0 x1 x2 => Sys2Proof.Machine.execVstC16 x0 x1 x2 s
  | .saddiC16 x0 x1 x2 => Sys2Proof.Machine.execSaddiC16 x0 x1 x2 s
  | .snopC16 => Sys2Proof.Machine.execSnopC16 s
  | .skincC16 x0 => Sys2Proof.Machine.execSkincC16 x0 s
  | .skwaitC16 x0 => Sys2Proof.Machine.execSkwaitC16 x0 s
  | .mma x0 x1 x2 x3 x4 => Sys2Proof.Machine.execMma x0 x1 x2 x3 x4 s
  | .mmac x0 x1 x2 x3 x4 x5 x6 => Sys2Proof.Machine.execMmac x0 x1 x2 x3 x4 x5 x6 s
  | .mmas x0 x1 x2 x3 => Sys2Proof.Machine.execMmas x0 x1 x2 x3 s
  | .mma24 x0 x1 x2 x3 x4 => Sys2Proof.Machine.execMma24 x0 x1 x2 x3 x4 s
  | .mmg x0 x1 x2 x3 => Sys2Proof.Machine.execMmg x0 x1 x2 x3 s
  | .mzero x0 => Sys2Proof.Machine.execMzero x0 s
  | .mzst x0 x1 x2 x3 x4 x5 => Sys2Proof.Machine.execMzst x0 x1 x2 x3 x4 x5 s
  | .mzstCmap x0 x1 x2 x3 x4 x5 x6 => Sys2Proof.Machine.execMzstCmap x0 x1 x2 x3 x4 x5 x6 s
  | .mzld x0 x1 => Sys2Proof.Machine.execMzld x0 x1 s
  | .mcfg x0 => Sys2Proof.Machine.execMcfg x0 s
  | .mcfgRd x0 => Sys2Proof.Machine.execMcfgRd x0 s
  | .mprog x0 => Sys2Proof.Machine.execMprog x0 s
  | .mxpMov x0 x1 => Sys2Proof.Machine.execMxpMov x0 x1 s
  | .mxpTrn x0 x1 => Sys2Proof.Machine.execMxpTrn x0 x1 s
  | .mxpAdd x0 x1 => Sys2Proof.Machine.execMxpAdd x0 x1 s
  | .mzpoiRd x0 x1 => Sys2Proof.Machine.execMzpoiRd x0 x1 s
  | .mzpoiWr x0 x1 => Sys2Proof.Machine.execMzpoiWr x0 x1 s
  | .mzpoiOr x0 x1 => Sys2Proof.Machine.execMzpoiOr x0 x1 s
  | .mmaC16 x0 x1 x2 => Sys2Proof.Machine.execMmaC16 x0 x1 x2 s
  | .mmaClrC16 x0 x1 x2 => Sys2Proof.Machine.execMmaClrC16 x0 x1 x2 s
  | .mzeroC16 x0 => Sys2Proof.Machine.execMzeroC16 x0 s
  | .hostOpen x0 => Sys2Proof.Machine.execHostOpen x0 s
  | .close x0 => Sys2Proof.Machine.execClose x0 s
  | .write x0 => Sys2Proof.Machine.execWrite x0 s
  | .read x0 => Sys2Proof.Machine.execRead x0 s
  | .qreg x0 => Sys2Proof.Machine.execQreg x0 s
  | .qdel x0 => Sys2Proof.Machine.execQdel x0 s
  | .append x0 => Sys2Proof.Machine.execAppend x0 s
  | .cancel x0 => Sys2Proof.Machine.execCancel x0 s
  | .wreg x0 => Sys2Proof.Machine.execWreg x0 s
  | .wdel x0 => Sys2Proof.Machine.execWdel x0 s
  | .wack x0 => Sys2Proof.Machine.execWack x0 s
  | .desc x0 => Sys2Proof.Machine.execDesc x0 s
  | .attest x0 => Sys2Proof.Machine.execAttest x0 s
  | .pmread x0 => Sys2Proof.Machine.execPmread x0 s
  | .jobnew x0 => Sys2Proof.Machine.execJobnew x0 s
  | .jobdel x0 => Sys2Proof.Machine.execJobdel x0 s
  | .jobmap x0 => Sys2Proof.Machine.execJobmap x0 s
  | .jobunmap x0 => Sys2Proof.Machine.execJobunmap x0 s
  | .jobpin x0 => Sys2Proof.Machine.execJobpin x0 s
  | .jobset x0 => Sys2Proof.Machine.execJobset x0 s
  | .brugusSegmentReceive x0 => Sys2Proof.Machine.execBrugusSegmentReceive x0 s
  | .brugusAck x0 x1 x2 => Sys2Proof.Machine.execBrugusAck x0 x1 x2 s
  | .brugusRetransmit x0 => Sys2Proof.Machine.execBrugusRetransmit x0 s
  | .invalidationComplete x0 => Sys2Proof.Machine.execInvalidationComplete x0 s
  | .queueMap x0 => Sys2Proof.Machine.execQueueMap x0 s
  | .priorityAge x0 => Sys2Proof.Machine.execPriorityAge x0 s
  | .queueUnmapBlocked x0 => Sys2Proof.Machine.execQueueUnmapBlocked x0 s
  | .queueRotate => Sys2Proof.Machine.execQueueRotate s
  | .drainStart x0 => Sys2Proof.Machine.execDrainStart x0 s
  | .entryTake x0 => Sys2Proof.Machine.execEntryTake x0 s
  | .phaseComplete x0 => Sys2Proof.Machine.execPhaseComplete x0 s
  | .semRecheck x0 => Sys2Proof.Machine.execSemRecheck x0 s
  | .semSignal x0 => Sys2Proof.Machine.execSemSignal x0 s
  | .entryCopy x0 => Sys2Proof.Machine.execEntryCopy x0 s
  | .graphReplayStart x0 => Sys2Proof.Machine.execGraphReplayStart x0 s
  | .graphNodeStart x0 x1 => Sys2Proof.Machine.execGraphNodeStart x0 x1 s
  | .launchAdmit x0 => Sys2Proof.Machine.execLaunchAdmit x0 s
  | .launchSave x0 => Sys2Proof.Machine.execLaunchSave x0 s
  | .spreadReserve x0 => Sys2Proof.Machine.execSpreadReserve x0 s
  | .spreadNoroomTimeout x0 => Sys2Proof.Machine.execSpreadNoroomTimeout x0 s
  | .spreadAnswer x0 => Sys2Proof.Machine.execSpreadAnswer x0 s
  | .spreadCommit x0 => Sys2Proof.Machine.execSpreadCommit x0 s
  | .spreadStart x0 => Sys2Proof.Machine.execSpreadStart x0 s
  | .spreadRetry x0 => Sys2Proof.Machine.execSpreadRetry x0 s
  | .cellRetire x0 => Sys2Proof.Machine.execCellRetire x0 s
  | .launchComplete x0 => Sys2Proof.Machine.execLaunchComplete x0 s
  | .taskPop x0 => Sys2Proof.Machine.execTaskPop x0 s
  | .coldEndPromote x0 => Sys2Proof.Machine.execColdEndPromote x0 s
  | .stealSend x0 => Sys2Proof.Machine.execStealSend x0 s
  | .stealServe x0 => Sys2Proof.Machine.execStealServe x0 s
  | .stealAnswerArrive x0 => Sys2Proof.Machine.execStealAnswerArrive x0 s
  | .stealBackoffExpire x0 => Sys2Proof.Machine.execStealBackoffExpire x0 s
  | .spawnRecordArrive x0 => Sys2Proof.Machine.execSpawnRecordArrive x0 s
  | .spawnAnswerArrive x0 => Sys2Proof.Machine.execSpawnAnswerArrive x0 s
  | .amReserveArrive x0 => Sys2Proof.Machine.execAmReserveArrive x0 s
  | .amGrantArrive x0 => Sys2Proof.Machine.execAmGrantArrive x0 s
  | .amMessageArrive x0 => Sys2Proof.Machine.execAmMessageArrive x0 s
  | .handlerStart x0 => Sys2Proof.Machine.execHandlerStart x0 s
  | .delegRoutineStart x0 => Sys2Proof.Machine.execDelegRoutineStart x0 s
  | .handlerBudgetExpire x0 x1 => Sys2Proof.Machine.execHandlerBudgetExpire x0 x1 s
  | .amReplyArrive x0 => Sys2Proof.Machine.execAmReplyArrive x0 s
  | .remoteRequestServe x0 => Sys2Proof.Machine.execRemoteRequestServe x0 s
  | .feRequestServe x0 => Sys2Proof.Machine.execFeRequestServe x0 s
  | .loadReplyArrive x0 => Sys2Proof.Machine.execLoadReplyArrive x0 s
  | .postedAnswerArrive x0 => Sys2Proof.Machine.execPostedAnswerArrive x0 s
  | .lateRefusalArrive x0 => Sys2Proof.Machine.execLateRefusalArrive x0 s
  | .lateTrapDeliver x0 x1 => Sys2Proof.Machine.execLateTrapDeliver x0 x1 s
  | .reassemblyReserve x0 => Sys2Proof.Machine.execReassemblyReserve x0 s
  | .messageDeliver x0 => Sys2Proof.Machine.execMessageDeliver x0 s
  | .injectionHold => Sys2Proof.Machine.execInjectionHold s
  | .reassemblyDrop x0 => Sys2Proof.Machine.execReassemblyDrop x0 s
  | .waitLimitExpire x0 x1 => Sys2Proof.Machine.execWaitLimitExpire x0 x1 s
  | .taskBudgetExpire x0 x1 => Sys2Proof.Machine.execTaskBudgetExpire x0 x1 s
  | .trapHandlerStart x0 => Sys2Proof.Machine.execTrapHandlerStart x0 s
  | .streamStart x0 x1 => Sys2Proof.Machine.execStreamStart x0 x1 s
  | .streamWordComplete x0 x1 x2 => Sys2Proof.Machine.execStreamWordComplete x0 x1 x2 s
  | .armedSlotFire x0 => Sys2Proof.Machine.execArmedSlotFire x0 s
  | .vstrmVectorFetch x0 x1 => Sys2Proof.Machine.execVstrmVectorFetch x0 x1 s
  | .mmacChainStart x0 => Sys2Proof.Machine.execMmacChainStart x0 s
  | .transferStart x0 => Sys2Proof.Machine.execTransferStart x0 s
  | .copyChunkPerform x0 x1 => Sys2Proof.Machine.execCopyChunkPerform x0 x1 s
  | .copyChunkReissue x0 x1 => Sys2Proof.Machine.execCopyChunkReissue x0 x1 s
  | .gathElementReply x0 x1 x2 => Sys2Proof.Machine.execGathElementReply x0 x1 x2 s
  | .transferComplete x0 x1 => Sys2Proof.Machine.execTransferComplete x0 x1 s
  | .umbraGathDeadline x0 x1 => Sys2Proof.Machine.execUmbraGathDeadline x0 x1 s
  | .hostWindowTimeout x0 x1 => Sys2Proof.Machine.execHostWindowTimeout x0 x1 s
  | .routerTokenDecide x0 => Sys2Proof.Machine.execRouterTokenDecide x0 s
  | .dispatchRoundStart x0 => Sys2Proof.Machine.execDispatchRoundStart x0 s
  | .permitRound x0 => Sys2Proof.Machine.execPermitRound x0 s
  | .secondRound x0 => Sys2Proof.Machine.execSecondRound x0 s
  | .prismPacketArrive x0 => Sys2Proof.Machine.execPrismPacketArrive x0 s
  | .noticeArrive x0 => Sys2Proof.Machine.execNoticeArrive x0 s
  | .returnRowArrive x0 => Sys2Proof.Machine.execReturnRowArrive x0 s
  | .exchangeComplete x0 => Sys2Proof.Machine.execExchangeComplete x0 s
  | .channelSlotArrive x0 => Sys2Proof.Machine.execChannelSlotArrive x0 s
  | .channelGrantArrive x0 => Sys2Proof.Machine.execChannelGrantArrive x0 s
  | .eventLineStoreApply x0 => Sys2Proof.Machine.execEventLineStoreApply x0 s
  | .parentArrival x0 => Sys2Proof.Machine.execParentArrival x0 s
  | .parentReleaseArrive x0 => Sys2Proof.Machine.execParentReleaseArrive x0 s
  | .combineResultArrive x0 x1 => Sys2Proof.Machine.execCombineResultArrive x0 x1 s
  | .combineRedo x0 x1 => Sys2Proof.Machine.execCombineRedo x0 x1 s
  | .leaseRequestArrive x0 => Sys2Proof.Machine.execLeaseRequestArrive x0 s
  | .leaseReclaimRetry => Sys2Proof.Machine.execLeaseReclaimRetry s
  | .leaseNoticeExpire x0 x1 => Sys2Proof.Machine.execLeaseNoticeExpire x0 x1 s
  | .leaseGrantSettle x0 => Sys2Proof.Machine.execLeaseGrantSettle x0 s
  | .leaseTermExpire x0 => Sys2Proof.Machine.execLeaseTermExpire x0 s
  | .leasePairDrained x0 => Sys2Proof.Machine.execLeasePairDrained x0 s
  | .turobFrameReceive x0 => Sys2Proof.Machine.execTurobFrameReceive x0 s
  | .turobFrameResend x0 => Sys2Proof.Machine.execTurobFrameResend x0 s
  | .uncorrectableError x0 x1 => Sys2Proof.Machine.execUncorrectableError x0 x1 s
  | .functionFence x0 x1 => Sys2Proof.Machine.execFunctionFence x0 x1 s
  | .powerGood => Sys2Proof.Machine.execPowerGood s
  | .powerCapExceed => Sys2Proof.Machine.execPowerCapExceed s
  | .powerStepUp => Sys2Proof.Machine.execPowerStepUp s
  | .thermalLimit x0 => Sys2Proof.Machine.execThermalLimit x0 s
  | .sInstructionCompletion x0 x1 => Sys2Proof.Machine.execSInstructionCompletion x0 x1 s
  | .mmasChunkBoundary x0 => Sys2Proof.Machine.execMmasChunkBoundary x0 s
  | .mmgEntryBoundary x0 => Sys2Proof.Machine.execMmgEntryBoundary x0 s

end Sys2Proof.Machine
end

