-- ==== Sys2Proof/Machine/Issue.lean ====
section
/-!
DEFINITION. Fetch, the checks before a word issues, the Sequencer and the turns (04 R63-R64; 05 R73-R78, R84, R88).
-/

namespace Sys2Proof.Machine

open Sys2Proof

/-! ## Fetch and the checks before a word (05 R74, R75, R77, R84) -/

/-- What stands at a stream's PC. -/
inductive Fetched where
  /-- The word traps with a class and a detail. -/
  | trap (cls : Nat) (detail : Word)
  | word (i : Instr)
  deriving DecidableEq, Repr

/-- The bytes are a word of major 63 (05 R76). -/
def isBlkWord (b : List Byte) : Bool := b.length = 4 && bytesNat b / 2 ^ 9 % 64 = 63

/-- A fetched word decodes, or is illegal at its address (05 R84). -/
noncomputable def decodeAt (st : Stream) (pc : Word) (b : List Byte) : Fetched :=
  match decodeBytes st b with
  | .instr i _ => .word i
  | _ => .trap cILLEGAL pc

/-- Where no block is open only a header at a multiple of 4 may stand; inside a body, no header and no word that crosses
the body's end (05 R77). `branch` is the branch whose target this is: it is the detail of what goes wrong there (06
R117). -/
noncomputable def blockCheck (st : Stream) (pc : Word) (blk : Option Block) (branch : Option Word) (b : List Byte) :
    Fetched :=
  match blk with
  | none => if isBlkWord b && fld pc 1 0 = 0 then decodeAt st pc b else .trap cBLOCK (branch.getD pc)
  | some k =>
    if b.length = 4 ∧ (k.fin - pc).toNat < 4 then .trap cBLOCK pc
    else if isBlkWord b then .trap cILLEGAL pc
    else decodeAt st pc b

/-- A word of a body as an engine's loop buffer holds it. -/
def Engine.buffered (e : Engine) (blk : Option Block) (pc : Word) : Option (List Byte) :=
  match e.loop, blk with
  | some l, some b => if l.start = b.start then (l.words.find? (fun w => w.1 = pc)).map Prod.snd else none
  | _, _ => none

/-- The bytes of the word of a stream at an address: from the loop buffer of its engine (05 R78), or fetched. -/
def State.codeWord (s : State) (st : Stream) (job : Nat) (pc : Word) (blk : Option Block) : Except Nat (List Byte) :=
  match (if st = .s then none else (s.here.engOf st).buffered blk pc) with
  | some b => .ok b
  | none => s.fetchWord job pc

/-- An engine's loop buffer takes in the word at which its stream stands, in a body of at most 128 halfwords; a header
begins anew (05 R78). -/
def Engine.capture (e : Engine) (w : List Byte) : Engine :=
  match e.run with
  | none => e
  | some p =>
    match p.blk with
    | none => { e with loop := none }
    | some b =>
      if 256 < (b.fin - b.start).toNat ∨ (e.buffered p.blk p.pc).isSome then e
      else
        let old := match e.loop with
          | some l => if l.start = b.start then l.words else []
          | none => []
        { e with loop := some { start := b.start, words := old ++ [(p.pc, w)] } }

/-- The acting engine captures the word at which it stands. -/
def State.capture (s : State) (st : Stream) (job : Nat) (p : StreamPos) : State :=
  match s.codeWord st job p.pc p.blk with
  | .ok w => s.updEng (fun e => e.capture w)
  | .error _ => s

/-- Fetch the word of a stream and make the checks that precede its issue. -/
noncomputable def State.fetch (s : State) (st : Stream) (job : Nat) (pc : Word) (blk : Option Block)
    (branch : Option Word) : Fetched :=
  match s.codeWord st job pc blk with
  | .error c => .trap c (branch.getD pc)
  | .ok b => blockCheck st pc blk branch b

/-- A word that TOK may not precede (05 R88). -/
def isTok : Instr → Bool
  | .tok _ _ => true
  | _ => false

/-- The class with which TOK traps because of the word that follows it, if it does (05 R88). -/
noncomputable def State.tokFault (s : State) (st : Stream) (job : Nat) (pc : Word) (blk : Option Block) : Option Nat :=
  if (blk.map (·.fin)) = some (pc + 4) then some cILLEGAL
  else
    match s.codeWord st job (pc + 4) blk with
    | .error c => some c
    | .ok b =>
      if isBlkWord b then some cILLEGAL
      else
        match decodeAt st (pc + 4) b with
        | .trap c _ => some c
        | .word i => if isTok i then some cILLEGAL else none

/-- As `fetch`, with the check of TOK. -/
noncomputable def State.fetchStream (s : State) (st : Stream) (job : Nat) (p : StreamPos) : Fetched :=
  match s.fetch st job p.pc p.blk p.branch with
  | .trap c d => .trap c d
  | .word i =>
    if isTok i then
      match s.tokFault st job p.pc p.blk with
      | some c => .trap c p.pc
      | none => .word i
    else .word i

/-! ## The Sequencer (04 R61, R63, R64) -/

/-- The condition of a wait holds, and no other fibre goes first: the word issues again. A pending refusal is delivered
while the fibre waits on OUTST (18 R365). -/
def State.holds (s : State) (c slot : Nat) (f : Fibre) (q : Cond) : Bool :=
  let me : State := { s with cur := { cell := c, slot := slot, stream := .s } }
  let x := s.cell c
  match q with
  | .outst0 => f.body.outst == 0 || !f.body.refusals.isEmpty
  | .outstLow => decide (f.body.outst < Config.maxOutst)
  | .forkV => decide (x.v.eng.forks.length < 4) && !me.behind q
  | .forkM => decide (x.m.eng.forks.length < 4) && !me.behind q
  | .allowance e => decide (0 < (x.chans[e]).count) && !me.behind q
  | .filled e => decide (0 < (x.chans[e]).filled) && !me.behind q
  | .calt m => (maskEps m).any x.epReady
  | .inject g => decide (grpCount x.injected g.val - grpCount x.extracted g.val < 4) && !me.behind q
  | .extract g => (x.result g.val (grpCount x.extracted g.val)).isSome && !me.behind q
  | .ready => !x.readyQ.isEmpty
  | .routerRoom => decide ((s.router (dieOf c)).queue.length < 64) && !me.behind q

/-- A fibre of a cell may issue as far as its launch is concerned: a launch that is being cancelled lets its running
handlers finish (03 R56), a fenced cell issues nothing. -/
def State.mayRun (s : State) (c : Nat) (f : Fibre) : Bool :=
  (s.cell c).launch.isSome && (s.launchOf c).stage == .running && !s.excluded.contains c &&
  (!(s.launchOf c).cancel || f.body.kind.isHandler)

/-- A fibre is READY (04 R61). -/
def State.isReady (s : State) (c slot : Nat) (f : Fibre) : Bool :=
  s.mayRun c f &&
  match f.status with
  | .ready => !f.body.stop
  | .issued t => decide (t ≤ s.now)
  | .parked (.retry q _ _) _ => s.holds c slot f q
  | _ => false

/-- The slots of a cell's READY fibres, ascending, with the start order of each. -/
def State.readySlots (s : State) (c : Nat) : List (Nat × Nat) :=
  ((s.cell c).fibres.filter (fun e => s.isReady c e.1 e.2)).map (fun e => (e.1, e.2.body.order))

/-- The handler slot whose fibre started earliest. -/
def firstHandler (l : List (Nat × Nat)) : Option Nat :=
  ((l.filter (fun e => e.1 < 16)).foldl (fun (b : Option (Nat × Nat)) e =>
    match b with
    | none => some e
    | some y => if e.2 < y.2 then some e else b) none).map Prod.fst

/-- The next task slot in rotation. -/
def nextTask (last : Nat) (l : List (Nat × Nat)) : Option Nat :=
  let t := (l.filter (fun e => 17 ≤ e.1)).map Prod.fst
  match t.find? (fun i => last < i) with
  | some i => some i
  | none => t.head?

/-- Handlers and the server are held back: a task is READY and they have issued 16 times in the last 256 CCLK (04
R63). -/
def State.capped (s : State) (c : Nat) (l : List (Nat × Nat)) : Bool :=
  l.any (fun e => 17 ≤ e.1) &&
  decide (16 ≤ ((s.cell c).handlerIssues.filter (fun t => decide (s.now - t < 256))).length)

/-- The slot that the Sequencer of a cell issues from (04 R63). -/
def State.pickSlot (s : State) (c : Nat) : Option Nat :=
  let l := s.readySlots c
  if s.capped c l then nextTask (s.cell c).lastTask l
  else
    match firstHandler l with
    | some i => some i
    | none => if l.any (fun e => e.1 = 16) then some 16 else nextTask (s.cell c).lastTask l

/-- The earliest completion of an instruction in flight in a cell. -/
def State.nextDone (s : State) (c : Nat) : Option Nat :=
  (s.cell c).fibres.foldl (fun (b : Option Nat) e =>
    match e.2.status with
    | .issued t => if s.mayRun c e.2 then some (match b with | some y => min t y | none => t) else b
    | _ => b) none

/-- The CCLK that this step takes: one, and as many more as it is (log 4). -/
def State.stepTime (s : State) : Nat := Config.elapsed s.fresh + 1

/-- A handler's budget does not count while the cap holds it back (04 R64). -/
def State.holdBudgets (s : State) (c : Nat) : State :=
  if s.capped c (s.readySlots c) then
    s.updCell c (fun x =>
      { x with fibres := x.fibres.map (fun e =>
          if e.1 < 16 && s.isReady c e.1 e.2 then
            (e.1, { e.2 with body := { e.2.body with since := e.2.body.since.map (fun t => t + s.stepTime) } })
          else e) })
  else s

/-- The CCLK of a step in which the array of a cell is busy, and in which each stream waits at a TOK (19 Table 19.4). -/
def Cell.countStep (c : Cell) (now dt : Nat) : Cell :=
  let parts : Bool := match c.m.word? with
    | some (.mmas _ _ _ _ _ _ _ _ halted _) => !halted
    | some (.mmg _ _ _ _ _ _ _) => true
    | _ => false
  let array := if parts then dt else min dt (c.m.arrFree - now)
  let atTok (e : Engine) : Nat := match e.wait with
    | some (.tok _) => dt
    | _ => 0
  let tok := atTok c.v.eng + atTok c.m.eng
  let c1 := if array = 0 then c else c.count 4 array
  if tok = 0 then c1 else c1.count 7 tok

/-- The end of a step: what reached the counters is tested, budgets that are held back stand still, the words in the arrays
keep what they may read, the torus carries its flits on, time goes on and the free values of this step are used up. -/
def State.tick (s : State) : State :=
  let s1 := s.closeCclk
  let s2 := (s1.cells.map Prod.fst).foldl State.holdBudgets s1
  let s3 : State := { s2 with cells := s2.cells.map (fun e => (e.1, e.2.watch.countStep s2.now s2.stepTime)) }
  { s3.torusStep s2.stepTime with now := s2.now + s2.stepTime, fresh := s2.fresh + 1 }

/-- A fibre whose handler budget counts from its first issue (04 R64, 18 Table 18.5). -/
def FKind.budgeted : FKind → Bool
  | .handler _ => true
  | .completion _ => true
  | .trap .fibre => false
  | .trap _ => true
  | _ => false

/-- The Sequencer has chosen a fibre: it acts. -/
def State.begin (s : State) (c slot : Nat) : State :=
  let f := (s.cell c).fibre slot
  let since := if f.body.kind.budgeted && f.body.since.isNone then some s.now else f.body.since
  let s1 : State := { s with cur := { cell := c, slot := slot, stream := .s } }
  (s1.updHere (fun x =>
    { x with
      lastTask := if 17 ≤ slot then slot else x.lastTask
      handlerIssues := if slot < 17 then (s.now :: x.handlerIssues).take 16 else x.handlerIssues })).updFibre
    (fun f => { f with status := .ready, body := { f.body with since := since } })

/-- The budget of the fibre that acts is exhausted: a task's (18 R360), or that of a handler or an engine's or unit's
trap handler (04 R64, 18 R359). -/
def State.overBudget (s : State) (b : FBody) : Bool :=
  match b.kind with
  | .task => decide (s.myLaunch.budget ≤ b.usedAt s.now) && !s.myLaunch.cancel
  | k => k.budgeted && decide (Config.handlerBudget ≤ b.usedAt s.now)

/-- The fibre that acts issues its word: pending refusals come first (18 R365), then the end of a task that is ending, an
exhausted budget, the checks before the word, and the word. -/
noncomputable def State.issueWord (s : State) : Host.Outcome State Fault Refusal :=
  let b := s.fibre.body
  if b.refusals ≠ [] then .next (s.lateTrap s.cur.cell s.cur.slot)
  else if b.ending then .next s.tend
  else if s.overBudget b then
    (if b.kind = .task then execTaskBudgetExpire s.cur.cell s.cur.slot s
    else execHandlerBudgetExpire s.cur.cell s.cur.slot s)
  else
    match s.fetch .s s.myLaunch.job b.pc b.blk b.branch with
    | .trap cls d => .next (s.trap cls d)
    | .word i => exec i (s.count s.cur.cell 2 1)

/-- The Sequencer of a cell issues from the fibre that 04 R63 chooses; when all its instructions are in flight, time goes
on to the first completion. -/
noncomputable def State.issueSeq (s : State) (c : Nat) : Host.Outcome State Fault Refusal :=
  match s.pickSlot c with
  | some slot => (s.begin c slot).issueWord
  | none =>
    match s.nextDone c with
    | some t =>
      let s1 : State := { s with now := max s.now t }
      match s1.pickSlot c with
      | some slot => (s1.begin c slot).issueWord
      | none => .next s1
    | none => .next s

/-! ## The V and M streams (05 R87) -/

/-- An engine issues: a stream runs on it, no trap holds it, and its launch lets it; a TOK and its word are one unit (05
R90), so with a TOK done the word follows. -/
def State.engineRuns (s : State) (c : Nat) (st : Stream) : Bool :=
  let e := (s.cell c).engOf st
  let l := s.launchOf c
  (s.cell c).launch.isSome && l.stage == .running && !s.excluded.contains c && e.run.isSome && !e.stopped &&
  ((!l.preempt && !l.cancel) || e.tok.isSome)

/-- The engine waits for something that comes to it. -/
def EWait.passive : EWait → Bool
  | .tok _ => true
  | .skwait _ _ _ => true
  | .chain _ _ _ _ _ _ _ _ => true
  | _ => false

/-- The clock of an engine is device time, and the words of its stream whose bound has passed complete (05 R87). -/
def State.streamDue (s : State) (c : Nat) (st : Stream) : State :=
  (s.updCell c (fun x => x.updEngOf st (fun e => { e with clk := max e.clk s.now }))).retireDue c st 64

/-- A V or M stream issues its word. -/
noncomputable def State.issueStream (s : State) (c : Nat) (st : Stream) : Host.Outcome State Fault Refusal :=
  let s1 : State := { s with cur := { cell := c, slot := 0, stream := st } }
  let e := s1.eng
  match e.run with
  | none => .next s1
  | some p =>
    if !s1.engineRuns c st || e.wait.any EWait.passive then .next s1
    else
      match s1.fetchStream st s1.myLaunch.job p with
      | .trap cls d => .next (s1.etrap cls d)
      | .word i =>
        let s2 := s1.capture st s1.myLaunch.job p
        exec i (match st with | .v => s2.count c 3 1 | _ => s2)

/-! ## Turns (log 3) -/

/-- The word that the Sequencer of a cell issues next, with its slot. -/
noncomputable def State.nextWord (s : State) (c : Nat) : Option (Nat × Instr) :=
  match s.pickSlot c with
  | some slot =>
    let b := ((s.cell c).fibre slot).body
    match ({ s with cur := { cell := c, slot := slot, stream := .s } } : State).fetch .s (s.launchOf c).job b.pc b.blk b.branch with
    | .word i => some (slot, i)
    | .trap _ _ => none
  | none => none

/-- A word increments or sets a counter: it comes before the tests of its CCLK (16 R321). -/
noncomputable def addsToCounter : Instr → Bool
  | .kinc _ _ => true
  | .kincC16 _ => true
  | .kset _ _ => true
  | _ => false

/-- A word tests a counter: it takes its place among the fibres' tests of its CCLK (16 R321). -/
noncomputable def testsCounter : Instr → Bool
  | .kwait _ _ => true
  | .kwaitC16 _ => true
  | .kwaitn _ _ => true
  | .crecv _ _ => true
  | _ => false

/-- The Sequencer of a cell takes its turn after the tests of the CCLK that come before its word's (16 R321): none before
KINC and KSET, those of the streams and of lower slots before a test of its own, all before any other word. -/
noncomputable def State.seqTurn (s : State) (c : Nat) : Host.Outcome State Fault Refusal :=
  match s.nextWord c with
  | some (slot, i) =>
    if addsToCounter i then s.issueSeq c
    else if testsCounter i then (s.testBelow c slot).issueSeq c
    else (s.testAll c).issueSeq c
  | none => (s.testAll c).issueSeq c

/-- A turn. -/
noncomputable def State.turn (s : State) (t : Turn) : Host.Outcome State Fault Refusal :=
  match t with
  | .seq c => s.seqTurn c
  | .issueV c => (s.testM c).issueStream c .v
  | .issueM c => s.issueStream c .m
  | .event i => if i.layout.isSome then .fault .badTurn else exec i s
  | .evict c va => .next (s.evictL1 c va)
  | .codeFill c va => .next (s.fillCode c va)
  | .codeDrop c sector => .next (s.dropCode c sector)
  | .corrected (some c) _ => .next (if (s.cells.find c).isSome then s.count c 12 1 else s)
  | .corrected none d => .next (if d < 4 then s.countDie d 8 1 else s)

/-- Turns one after the other, each with free values of its own. -/
noncomputable def State.turns (s : State) : List Turn → Host.Outcome State Fault Refusal
  | [] => .next s
  | [t] => s.turn t
  | t :: r =>
    match s.turn t with
    | .next u => State.turns { u with fresh := u.fresh + 1 } r
    | x => x

/-- The stream that a turn issues. -/
def Turn.stream? : Turn → Option (Nat × Stream)
  | .seq c => some (c, .s)
  | .issueV c => some (c, .v)
  | .issueM c => some (c, .m)
  | _ => none

/-- A wait reaches its limit. -/
def Turn.expiry : Turn → Bool
  | .event (.waitLimitExpire _ _) => true
  | _ => false

/-- Turns after others of the same CCLK, with free values of their own. -/
noncomputable def State.furtherTurns (s : State) (before after : List Turn) : Host.Outcome State Fault Refusal :=
  match before, after with
  | _, [] => .next s
  | [], l => s.turns l
  | _, l => State.turns { s with fresh := s.fresh + 1 } l

/-- The turns of one CCLK (05 R87, R89, 16 R321): what the units do, the words whose bound has passed, then the words that
issue: KINC and KSET, the M streams, the V streams, the other words of the Sequencers. Each stream issues at most one. Waits
that reach their limit come last: what serves them in the same CCLK does so first (24 R394). -/
noncomputable def State.cclk (s : State) (l : List Turn) : Host.Outcome State Fault Refusal :=
  let of (st : Stream) : List Turn := (l.filter (fun t => (t.stream?.map Prod.snd) = some st)).eraseDups
  let units := l.filter (fun t => t.stream?.isNone && !t.expiry)
  match s.turns units with
  | .next s1 =>
    let due (s : State) (t : Turn) : State := match t.stream? with
      | some (c, st) => s.streamDue c st
      | none => s
    let s2 := (of .v).foldl due ((of .m).foldl due s1)
    let first := (of .s).filter (fun t => (t.stream?.bind (fun x => s2.nextWord x.1)).any (fun w => addsToCounter w.2))
    let words := first ++ of .m ++ of .v ++ (of .s).filter (fun t => !first.contains t)
    match s2.furtherTurns units words with
    | .next s3 => s3.furtherTurns (units ++ words) (l.filter Turn.expiry)
    | x => x
  | x => x

end Sys2Proof.Machine
end

