-- ==== Sys2Proof/Machine/Auto.lean ====
section
/-!
DEFINITION. Which agent moves next: the agenda, and what moves when it is empty (log 3).
-/

namespace Sys2Proof.Machine

open Sys2Proof

/-- The step that serves a message at its destination. -/
noncomputable def Msg.server (m : Msg) : Option Instr :=
  match m.body with
  | .mem r => some (match r.op with | .fe _ _ => .feRequestServe m.id | _ => .remoteRequestServe m.id)
  | .memAns a => some (
      if a.posted then (match a.res with | .ok _ _ => .postedAnswerArrive m.id | .refused _ => .lateRefusalArrive m.id)
      else .loadReplyArrive m.id)
  | .spawn _ _ => some (.spawnRecordArrive m.id)
  | .spawnAns _ _ => some (.spawnAnswerArrive m.id)
  | .amReserve _ => some (.amReserveArrive m.id)
  | .amGrant _ _ => some (.amGrantArrive m.id)
  | .am _ _ => some (.amMessageArrive m.id)
  | .amTaken _ => some (.amReplyArrive m.id)
  | .amReply _ _ => some (.amReplyArrive m.id)
  | .amRefused _ => some (.amReplyArrive m.id)
  | .slot _ _ _ _ _ => some (.channelSlotArrive m.id)
  | .grant _ _ _ => some (.channelGrantArrive m.id)
  | .eventStore _ _ _ _ _ _ => some (.eventLineStoreApply m.id)
  | .packet _ _ _ _ _ _ _ _ _ _ _ _ => some (.prismPacketArrive m.id)
  | .notice _ _ _ _ _ _ => some (.noticeArrive m.id)
  | .retRow _ _ _ _ _ _ _ _ _ _ => some (.returnRowArrive m.id)
  | .lineArrive _ => some (.parentArrival m.id)
  | .lineRelease _ => some (.parentReleaseArrive m.id)
  | _ => none

/-- The next step of a message: its space is reserved, it is delivered, it is served (01 R19, R20). -/
noncomputable def Msg.advance (m : Msg) : Option Turn :=
  match m.stage with
  | .asked => some (.event (.reassemblyReserve m.id))
  | .landed => m.server.map .event
  | _ => some (.event (.messageDeliver m.id))

/-! ## Units that can move by themselves -/

/-- The operation that a session performs next. -/
noncomputable def hostStep (session code : Nat) : Option Instr :=
  match code with
  | 2 => some (.close session)
  | 3 => some (.write session)
  | 4 => some (.read session)
  | 5 => some (.qreg session)
  | 6 => some (.qdel session)
  | 7 => some (.append session)
  | 8 => some (.cancel session)
  | 9 => some (.wreg session)
  | 10 => some (.wdel session)
  | 11 => some (.wack session)
  | 12 => some (.desc session)
  | 13 => some (.attest session)
  | 14 => some (.pmread session)
  | 16 => some (.jobnew session)
  | 17 => some (.jobdel session)
  | 18 => some (.jobmap session)
  | 19 => some (.jobunmap session)
  | 20 => some (.jobpin session)
  | 21 => some (.jobset session)
  | _ => none

/-- The host's side: OPENs, the operations of the sessions, invalidations (03 R43, R58, 11 R234). -/
noncomputable def State.hostUnits (s : State) : List Instr :=
  (upFrom s.opens.length 0).map .hostOpen ++
  s.sessions.filterMap (fun e => e.2.ready.bind (fun r => hostStep e.1 r.1)) ++
  s.invs.map (fun e => .invalidationComplete e.1)

/-- The Launch Scheduler (03). -/
noncomputable def State.schedUnits (s : State) : List Instr :=
  s.queues.flatMap (fun e => [.queueMap e.1, .entryTake e.1, .queueUnmapBlocked e.1, .priorityAge e.1]) ++ [.queueRotate] ++
  s.works.flatMap (fun e =>
    [.drainStart e.1, .launchAdmit e.1, .semRecheck e.1, .semSignal e.1, .entryCopy e.1, .graphReplayStart e.1,
      .phaseComplete e.1, .spreadRetry e.1] ++
    (match e.2.replay with
      | some r => (upFrom r.nodes.length 0).map (fun i => .graphNodeStart e.1 i)
      | none => [])) ++
  s.launches.flatMap (fun e => [.spreadStart e.1, .launchSave e.1, .launchComplete e.1, .dispatchRoundStart e.1])

/-- What time may end for the fibre in a slot, and the completion of its instruction when the launch stops. -/
noncomputable def fibreUnits (c : Nat) (stopping : Bool) (e : Nat × Fibre) : List Instr :=
  match e.2.status with
  | .issued _ => if stopping || e.2.body.stop then [.sInstructionCompletion c e.1] else []
  | .parked _ _ => [.lateTrapDeliver c e.1, .waitLimitExpire c e.1, .handlerBudgetExpire c e.1]
  | _ => []

/-- The words of a stream that may complete, its start, its wait limit. -/
noncomputable def engineUnits (c : Nat) (st : Stream) (slot : Nat) (e : Engine) : List Instr :=
  (upFrom e.flights.length 0).map (fun i => .streamWordComplete c st i) ++
  (if e.forks.isEmpty then [] else [.streamStart c st]) ++ (if e.wait.isSome then [.waitLimitExpire c slot] else [])

/-- The units of a cell (04, 08-13). -/
noncomputable def State.cellUnits (s : State) (c : Nat) : List Instr :=
  let x := s.cell c
  let l := s.launchOf c
  x.fibres.flatMap (fibreUnits c (l.cancel || l.preempt)) ++ engineUnits c .v 256 x.v.eng ++ engineUnits c .m 257 x.m.eng ++
  [.trapHandlerStart c, .handlerStart c, .delegRoutineStart c, .coldEndPromote c, .taskPop c, .mmacChainStart c,
    .mmgEntryBoundary c, .mmasChunkBoundary c, .armedSlotFire c, .transferStart c] ++
  x.v.binds.map (fun b => .vstrmVectorFetch c (Fin.ofNat 32 b.1)) ++
  x.copy.xfers.flatMap (fun t =>
    [.copyChunkPerform c t.id] ++ t.pending.map (fun p => .gathElementReply c t.id p.t) ++
    [.transferComplete c t.id, .umbraGathDeadline c t.id]) ++
  [.stealAnswerArrive c, .stealServe c, .stealBackoffExpire c, .stealSend c, .cellRetire c]

/-- Messages, each at its next step, and frames of other devices. -/
noncomputable def State.netUnits (s : State) : List Instr :=
  s.net.filterMap (fun m => match m.advance with
    | some (.event i) => some i
    | _ => none) ++
  s.net.map (fun m => .reassemblyDrop m.id) ++ [.injectionHold] ++
  (upFrom s.fabricIn.length 0).map .turobFrameReceive ++ (upFrom s.fabricKept.length 0).map .turobFrameResend ++
  (upFrom s.inbox.length 0).flatMap (fun i => [.leaseRequestArrive i, .spreadReserve i, .spreadAnswer i, .spreadCommit i])

/-- Routers, Exchange Engines, the combining network, the Lease Controller (14, 15, 16). -/
noncomputable def State.dieUnits (s : State) : List Instr :=
  s.routers.map (fun e => .routerTokenDecide e.1) ++
  s.rounds.flatMap (fun r => [.permitRound r.id, .secondRound r.id]) ++
  s.exch.map (fun x => .exchangeComplete x.id) ++
  s.groups.flatMap (fun e => e.2.contribs.map (fun k => .combineResultArrive e.1 k.m)) ++
  s.leases.flatMap (fun e =>
    [.leaseGrantSettle e.1, .leaseTermExpire e.1] ++ e.2.notice.map (fun p => .leaseNoticeExpire e.1 p.1)) ++
  s.draining.map (fun p => .leasePairDrained p.1) ++ [.leaseReclaimRetry]

/-- Every step without an encoding that a unit of the device may take by itself. -/
noncomputable def State.units (s : State) : List Instr :=
  s.hostUnits ++ s.schedUnits ++ (s.cells.filter (fun e => e.2.launch.isSome)).flatMap (fun e => s.cellUnits e.1) ++
  s.netUnits ++ s.dieUnits

/-- A step changes something. -/
def State.changes (s : State) (i : Instr) : Bool :=
  match exec i s with
  | .next t => decide (t ≠ s)
  | _ => false

/-! ## The choice -/

/-- The Sequencer of a cell has something to do. -/
def State.seqBusy (s : State) (c : Nat) : Bool := (s.pickSlot c).isSome || (s.nextDone c).isSome

/-- The engine of a cell issues when it is asked to. -/
def State.engBusy (s : State) (c : Nat) (st : Stream) : Bool :=
  s.engineRuns c st && !(((s.cell c).engOf st).wait.any EWait.passive)

/-- The streams of a cell that can go on. -/
def State.streamTurns (s : State) (c : Nat) : List (Stream × Turn) :=
  (if s.seqBusy c then [(.s, .seq c)] else []) ++ (if s.engBusy c .v then [(.v, .issueV c)] else []) ++
  (if s.engBusy c .m then [(.m, .issueM c)] else [])

/-- A list from its `k`-th entry on, then its start. -/
def rotate {α : Type} (k : Nat) (l : List α) : List α := l.drop k ++ l.take k

/-- The stream that issues next: those of the acting cell that come after the acting one, those of the cells after it,
then the others. -/
def State.nextStream (s : State) : Option Turn :=
  let busy := s.cells.filter (fun e => e.2.launch.isSome)
  let all := busy.flatMap (fun e => (s.streamTurns e.1).map (fun x => (e.1, x.1, x.2)))
  let later (x : Nat × Stream × Turn) : Bool :=
    s.cur.cell < x.1 || (s.cur.cell == x.1 && (match s.cur.stream, x.2.1 with
      | .s, .s => false
      | .s, _ => true
      | .v, .m => true
      | _, _ => false))
  ((all.filter later ++ all.filter (fun x => !later x)).head?).map (fun x => x.2.2)

/-- The unit that moves next: the first that changes something, from a place in the list that moves on with every
step. -/
noncomputable def State.nextUnit (s : State) : Option Turn :=
  let l := s.units
  ((rotate (s.fresh % (l.length + 1)) l).find? s.changes).map .event

/-- What moves when the agenda is empty (log 3): streams and units by turns; where nothing else can move, a RESERVE that
finds no room is answered. -/
noncomputable def State.autoTurn (s : State) : Option Turn :=
  let late := (((upFrom s.inbox.length 0).map .spreadNoroomTimeout).find? s.changes).map Turn.event
  if s.fresh % 2 = 0 then (s.nextStream.or s.nextUnit).or late
  else (s.nextUnit.or s.nextStream).or late

/-- One step: the next CCLK of the agenda, or what moves when it is empty. -/
noncomputable def State.move (s : State) : Host.Outcome State Fault Refusal :=
  match s.agenda with
  | l :: r => ({ s with agenda := r } : State).cclk l
  | [] => s.cclk s.autoTurn.toList

end Sys2Proof.Machine
end

