-- ==== Sys2Proof/Machine/Step.lean ====
section
/-!
DEFINITION. One step of the machine, and a state whose next step runs a given word.
-/

namespace Sys2Proof.Machine

open Sys2Proof

/-- One step: a turn, and time goes on. -/
noncomputable def step (s : State) : Host.Outcome State Fault Refusal :=
  match s.move with
  | .next t => .next t.tick
  | .fault r => .fault r
  | .refused r => .refused r

/-- The position at a word of code: a header stands outside a body, any other word inside one. -/
def wordBlock (nbits w : Nat) (pc : Word) : Option Block :=
  if isBlkWord (wordBytes nbits w) then none else some { start := pc, fin := pc + 64, left := 1 }

/-- A state whose next step fetches and runs a word (log 9): a launch of one cell of a job with one page of code, the
word at its start, and the stream that the word belongs to standing there with the next turn. -/
noncomputable def State.withFetchWord (s : State) (nbits w : Nat) : State :=
  let st := tableStream nbits w
  let pc : Word := 0x10000
  let blk := wordBlock nbits w pc
  let pos : StreamPos := { pc := pc, blk := blk, branch := none }
  let job : Job := Job.zero.mapPage 0 0x10000 0xD
  let fibre : Fibre := { Fibre.zero with body := { FBody.zero with pc := pc, blk := blk } }
  let eng : Engine := { Engine.idle with run := some pos }
  let cell0 : Cell := { Cell.idle with launch := some 0 }
  let cell : Cell := match st with
    | .s => cell0.setFibre 17 fibre
    | .v => { cell0 with v := { cell0.v with eng := eng } }
    | .m => { cell0 with m := { cell0.m with eng := eng } }
  let turn : Turn := match st with
    | .s => .seq 0
    | .v => .issueV 0
    | .m => .issueM 0
  { s with
    cur := { cell := 0, slot := 17, stream := st }
    agenda := [[turn]]
    mem := Mem.writeBytes s.mem 0 (natBytes 4 w)
    memPoison := setDel s.memPoison 0
    excluded := setDel s.excluded 0
    cells := s.cells.put 0 cell
    launches := s.launches.put 0 { Launch.zero with job := 1, roles := [0], nosteal := [false], budget := 140000, waitlim := 16777216 }
    jobs := s.jobs.put 1 job }

end Sys2Proof.Machine
end

