-- ==== Sys2Proof/Safety.lean ====
section
/-!
DEFINITION. What counts as a safe run, and the terms in which statements say what a word does and what it leaves alone.
-/

namespace Sys2Proof.Machine

open Sys2Proof

/-! ## What every step keeps -/

/-- Device memory is in canonical form: addresses rise and no listed byte is 0. -/
def State.MemWf (s : State) : Prop := Memory.wf s.mem = true

/-- The tables of a cell are in order: keys rise, and its scratchpad is in canonical form. -/
def Cell.TablesWf (c : Cell) : Prop :=
  AMap.wf c.fibres = true ∧ AMap.wf c.comb = true ∧ AMap.wf c.copy.slots = true ∧ Memory.wf c.spad.bytes = true

/-- The tables that the statements lean on are in order, in the cells and in the contexts of saved launches too. -/
structure State.TablesWf (s : State) : Prop where
  cells : AMap.wf s.cells = true
  works : AMap.wf s.works = true
  queues : AMap.wf s.queues = true
  launches : AMap.wf s.launches = true
  sessions : AMap.wf s.sessions = true
  authors : AMap.wf s.authors = true
  each : ∀ e ∈ s.cells, e.2.TablesWf
  saved : ∀ e ∈ s.launches, ∀ v, e.2.saved = some v → ∀ x ∈ v.cells, x.2.TablesWf

/-- A step goes on: it neither faults nor refuses. -/
def State.Goes (s : State) : Prop := ∃ t, step s = .next t

/-! ## Frames -/

/-- `t` differs from `s` in nothing but the cell that acts: no byte of device memory, no other cell, no launch, job,
queue, message or unit outside the cells differs. -/
structure State.OnlyHere (s t : State) : Prop where
  rest : t = { s with cells := t.cells }
  cells : ∀ c, c ≠ s.cur.cell → t.cell c = s.cell c
  memory : ∀ a, Mem.read t.mem a = Mem.read s.mem a

/-- `t` differs from `s` in nothing but the fibre that acts: in its cell no counter, no special register, no byte of the
scratchpad, no register of the V and M units and no other fibre differs. -/
structure State.OnlyFibre (s t : State) : Prop extends State.OnlyHere s t where
  here : t.here = { s.here with fibres := t.here.fibres }
  slots : ∀ n, n ≠ s.cur.slot → t.here.fibre n = s.here.fibre n

/-- The fibre that acts stands in `t` past its word of `len` bytes, which completes in `lat` CCLK: nothing of the fibre
but its g registers, its place and its status has changed. -/
def State.PastWord (s t : State) (len lat : Nat) : Prop :=
  t.fibre =
    { s.fibre with
      body := { s.fibre.body.past len with g := t.fibre.body.g }
      status := .issued (s.now + lat)
      parkSeq := none }

/-- The word of `len` bytes has written `v` to rd and nothing else but the fibre's place. -/
structure State.Wrote (s t : State) (d : GReg) (v : Word) (len lat : Nat) : Prop extends State.OnlyFibre s t where
  value : t.g d = v
  kept : ∀ r, r ≠ d → t.g r = s.g r
  past : s.PastWord t len lat

/-- The word of `len` bytes has written no register; what else it has changed lies in the cell that acts. -/
structure State.WroteNone (s t : State) (len lat : Nat) : Prop where
  kept : ∀ r, t.g r = s.g r
  past : s.PastWord t len lat

/-- An S word answers a next state in which rd has the value and the fibre stands past the word. -/
def State.Writes (s : State) (i : Instr) (d : GReg) (v : Word) (len lat : Nat) : Prop :=
  ∃ t, exec i s = .next t ∧ s.Wrote t d v len lat

/-- An S word answers a next state in which only the fibre's place has changed. -/
def State.OnlyGoesOn (s : State) (i : Instr) (len lat : Nat) : Prop :=
  ∃ t, exec i s = .next t ∧ s.OnlyFibre t ∧ s.WroteNone t len lat

/-- An S word takes an exact trap at its word (18 R354): nothing but what taking the trap does. -/
def State.TrapsWith (s : State) (i : Instr) (cls : Nat) (detail : Word) : Prop := exec i s = .next (s.trap cls detail)

end Sys2Proof.Machine
end

