-- ==== Sys2Proof/Certificates/Slice0/Obligations.lean ====
section
/-!
DEFINITION. The statements for the provers. Each says what an instruction or the machine does by the numbered rules of the
spec; where one rests on a choice of the model, its text says so and names the log entry.
-/

open Sys2Proof Sys2Proof.Machine

/-- A message whose copy stands at the network interface of its source and of which nothing has left (01 R19). -/
def Sys2Proof.Machine.stagedMsg (id : Nat) (src dst : Node) (cls : MsgClass) (body : MsgBody) : Msg :=
  { id := id, src := src, dst := dst, cls := cls, body := body, stage := .staged, part := 0, sent := 0, got := 0, since := 0 }

/-- `t` has sent one frame with `body` to device `d` after those of `s`, and keeps it until it is acknowledged (15 R308). -/
def Sys2Proof.Machine.State.SendsFrame (s t : State) (d : Nat) (cls : MsgClass) (body : MsgBody) : Prop :=
  ∃ f, t.fabricOut = s.fabricOut ++ [f] ∧ f.dev = d ∧ f.cls = cls ∧ f.body = body ∧ f.good = true ∧
    f.seq = (s.fabricSeqOut.find (8 * d + cls.code)).getD 0 ∧
    t.fabricKept = s.fabricKept ++ [{ frame := f, sentAt := s.ns, failed := false, tries := 0 }] ∧
    t.fabricSeqOut = s.fabricSeqOut.put (8 * d + cls.code) (f.seq + 1)
/-! ## Scalar arithmetic (06) -/

/-- The value of every two-source function of 06 Table 6.2 but division, its time of 06 Table 6.1, and its frame: rd is
written, every other register and all else is as before. -/
def Sys2Proof.Says.ScalarRegisterWords : Prop :=
  ∀ (s : State) (d a b : GReg),
    let x := s.g a
    let y := s.g b
    s.Writes (.add d a b) d (x + y) 4 1 ∧
    s.Writes (.sub d a b) d (x - y) 4 1 ∧
    s.Writes (.mul d a b) d (x * y) 4 3 ∧
    s.Writes (.mulh d a b) d ((x.signExtend 128 * y.signExtend 128).extractLsb' 64 64) 4 3 ∧
    s.Writes (.mulhu d a b) d ((x.setWidth 128 * y.setWidth 128).extractLsb' 64 64) 4 3 ∧
    s.Writes (.and d a b) d (x &&& y) 4 1 ∧
    s.Writes (.or d a b) d (x ||| y) 4 1 ∧
    s.Writes (.xor d a b) d (x ^^^ y) 4 1 ∧
    s.Writes (.andn d a b) d (x &&& ~~~ y) 4 1 ∧
    s.Writes (.shl d a b) d (x <<< (y.extractLsb' 0 6).toNat) 4 1 ∧
    s.Writes (.shr d a b) d (x >>> (y.extractLsb' 0 6).toNat) 4 1 ∧
    s.Writes (.sra d a b) d (x.sshiftRight (y.extractLsb' 0 6).toNat) 4 1 ∧
    s.Writes (.rol d a b) d (x.rotateLeft (y.extractLsb' 0 6).toNat) 4 1 ∧
    s.Writes (.min d a b) d (if x.toInt ≤ y.toInt then x else y) 4 1 ∧
    s.Writes (.max d a b) d (if x.toInt ≤ y.toInt then y else x) 4 1 ∧
    s.Writes (.minu d a b) d (if x.toNat ≤ y.toNat then x else y) 4 1 ∧
    s.Writes (.maxu d a b) d (if x.toNat ≤ y.toNat then y else x) 4 1 ∧
    s.Writes (.slt d a b) d (if x.toInt < y.toInt then 1 else 0) 4 1 ∧
    s.Writes (.sltu d a b) d (if x.toNat < y.toNat then 1 else 0) 4 1 ∧
    s.Writes (.seq d a b) d (if x = y then 1 else 0) 4 1 ∧
    s.Writes (.sext d a .b) d ((x.extractLsb' 0 8).signExtend 64) 4 1 ∧
    s.Writes (.sext d a .h) d ((x.extractLsb' 0 16).signExtend 64) 4 1 ∧
    s.Writes (.sext d a .w) d ((x.extractLsb' 0 32).signExtend 64) 4 1 ∧
    s.Writes (.zext d a .b) d ((x.extractLsb' 0 8).setWidth 64) 4 1 ∧
    s.Writes (.zext d a .h) d ((x.extractLsb' 0 16).setWidth 64) 4 1 ∧
    s.Writes (.zext d a .w) d ((x.extractLsb' 0 32).setWidth 64) 4 1

/-- Division never traps (06 R110): by zero the quotient is all ones and the remainder the dividend; the most negative
number by −1 gives itself and 0; otherwise the quotient is rounded toward zero and the remainder is what is left. -/
def Obligations.ScalarDivision : Prop :=
  ∀ (s : State) (d a b : GReg),
    let x := s.g a
    let y := s.g b
    ∃ q r qu ru : Word,
      s.Writes (.div d a b) d q 4 34 ∧ s.Writes (.rem d a b) d r 4 34 ∧
      s.Writes (.divu d a b) d qu 4 34 ∧ s.Writes (.remu d a b) d ru 4 34 ∧
      (y = 0 → q = 0xFFFFFFFFFFFFFFFF ∧ r = x ∧ qu = 0xFFFFFFFFFFFFFFFF ∧ ru = x) ∧
      (x = 0x8000000000000000 ∧ y = 0xFFFFFFFFFFFFFFFF → q = 0x8000000000000000 ∧ r = 0) ∧
      (y ≠ 0 ∧ ¬(x = 0x8000000000000000 ∧ y = 0xFFFFFFFFFFFFFFFF) →
        x.toInt = q.toInt * y.toInt + r.toInt ∧ r.toInt.natAbs < y.toInt.natAbs ∧
        (r.toInt = 0 ∨ (r.toInt < 0 ↔ x.toInt < 0))) ∧
      (y ≠ 0 → x.toNat = qu.toNat * y.toNat + ru.toNat ∧ ru.toNat < y.toNat)

/-- CLZ, CTZ and POPC (06 Table 6.2): the counts, 64 for a word of zeros. -/
def Sys2Proof.Says.ScalarBitCounts : Prop :=
  ∀ (s : State) (d a : GReg),
    let x := s.g a
    (∃ n, n ≤ 64 ∧ s.Writes (.clz d a) d (w64 n) 4 1 ∧
      (∀ i, i < 64 → 64 ≤ i + n → x.getLsbD i = false) ∧ (n < 64 → x.getLsbD (63 - n) = true)) ∧
    (∃ n, n ≤ 64 ∧ s.Writes (.ctz d a) d (w64 n) 4 1 ∧
      (∀ i, i < n → x.getLsbD i = false) ∧ (n < 64 → x.getLsbD n = true)) ∧
    s.Writes (.popc d a) d (w64 ((List.range 64).filter (fun i => x.getLsbD i)).length) 4 1

/-- Immediate forms (06 R111, R112) and constants (06 R113): the value, the time and the frame of each, and the words of
the shifts by a constant. -/
def Sys2Proof.Says.ScalarImmediates : Prop :=
  ∀ (s : State) (d a : GReg) (i : BitVec 19) (n : BitVec 6) (h : BitVec 16) (k : Fin 4),
    let x := s.g a
    let m := i.signExtend 64
    s.Writes (.addi d a i) d (x + m) 4 1 ∧
    s.Writes (.andi d a i) d (x &&& m) 4 1 ∧
    s.Writes (.ori d a i) d (x ||| m) 4 1 ∧
    s.Writes (.xori d a i) d (x ^^^ m) 4 1 ∧
    s.Writes (.slti d a i) d (if x.toInt < m.toInt then 1 else 0) 4 1 ∧
    s.Writes (.sltiu d a i) d (if x.toNat < m.toNat then 1 else 0) 4 1 ∧
    s.Writes (.shli n d a) d (x <<< n.toNat) 4 1 ∧
    s.Writes (.shri n d a) d (x >>> n.toNat) 4 1 ∧
    s.Writes (.srai n d a) d (x.sshiftRight n.toNat) 4 1 ∧
    s.Writes (.roli n d a) d (x.rotateLeft n.toNat) 4 1 ∧
    (∀ w, w < 2 ^ 32 →
      let at_ (k : Nat) : Prop := w = 0x8E00 + 64 * d.val + 8 * a.val + 2 ^ 16 * n.toNat + 2 ^ 22 * k
      (decodeIn .s 32 w = some (.shli n d a) ↔ at_ 0) ∧ (decodeIn .s 32 w = some (.shri n d a) ↔ at_ 1) ∧
      (decodeIn .s 32 w = some (.srai n d a) ↔ at_ 2) ∧ (decodeIn .s 32 w = some (.roli n d a) ↔ at_ 3)) ∧
    s.Writes (.li d i) d m 4 1 ∧
    (∃ v : Word, s.Writes (.lik h d k) d v 4 1 ∧
      ∀ j, j < 64 → v.getLsbD j = if j / 16 = k.val then h.getLsbD (j % 16) else (s.g d).getLsbD j) ∧
    s.OnlyGoesOn .nop 4 1

/-- Compact arithmetic forms (06 R128, Table 6.6): the effect and the time of the word that each equals, over 2 bytes. -/
def Sys2Proof.Says.CompactArithmetic : Prop :=
  ∀ (s : State) (a b c : GReg) (i n : BitVec 4) (j : BitVec 7),
    s.Writes (.movC16 a b) a (s.g b) 2 1 ∧
    s.Writes (.addC16 a b c) a (s.g b + s.g c) 2 1 ∧
    s.Writes (.subC16 a b c) a (s.g b - s.g c) 2 1 ∧
    s.Writes (.andC16 a b c) a (s.g b &&& s.g c) 2 1 ∧
    s.Writes (.orC16 a b c) a (s.g b ||| s.g c) 2 1 ∧
    s.Writes (.xorC16 a b c) a (s.g b ^^^ s.g c) 2 1 ∧
    s.Writes (.addiC16 a b i) a (s.g b + i.signExtend 64) 2 1 ∧
    s.Writes (.shliC16 a b n) a (s.g b <<< n.toNat) 2 1 ∧
    s.Writes (.shriC16 a b n) a (s.g b >>> n.toNat) 2 1 ∧
    s.Writes (.liC16 a j) a (j.setWidth 64) 2 1 ∧
    s.OnlyGoesOn .nopC16 2 1

/-! ## Blocks, jumps and branches (05 R76, R77; 06 R114-R117) -/

/-- Where a header at `h` with length field `l` and count `n` leads: past its body when the count is 0, otherwise to the
body's first word, with the body's bounds and the repeats that are left. -/
def Sys2Proof.Machine.headerLeads (h : Word) (l : BitVec 9) (n : Word) : Word × Option Block :=
  let start := h + 4
  let fin := start + 2 * l.setWidth 64
  if n = 0 then (fin, none) else (start, some { start := start, fin := fin, left := n })

/-- A block header in each stream (05 R76, R77): the count is N, or the named register when N is 0; nothing but the place
of the stream changes. -/
def Sys2Proof.Says.BlockHeaders : Prop :=
  ∀ (s : State) (n : BitVec 12) (c : Fin 16) (l : BitVec 9),
    (s.cur.stream = .s →
      let p := headerLeads s.fibre.body.pc l (if n = 0 then s.g (Fin.ofNat 8 c.val) else n.setWidth 64)
      ∃ t, exec (.blk n c l) s = .next t ∧ s.OnlyFibre t ∧
        t.fibre = { s.fibre with body := { s.fibre.body with pc := p.1, blk := p.2, branch := none },
                                 status := .issued (s.now + 1), parkSeq := none }) ∧
    (s.cur.stream = .v →
      let p := headerLeads s.epc l (if n = 0 then s.sr c else n.setWidth 64)
      ∃ t, exec (.blk n c l) s = .next t ∧ s.OnlyHere t ∧
        t.here = { s.here with v := { s.here.v with eng := { s.here.v.eng with
          run := some { pc := p.1, blk := p.2, branch := none }, clk := s.here.v.eng.clk + 1, wait := none } } }) ∧
    (s.cur.stream = .m →
      let p := headerLeads s.epc l (if n = 0 then s.sr c else n.setWidth 64)
      ∃ t, exec (.blk n c l) s = .next t ∧ s.OnlyHere t ∧
        t.here = { s.here with m := { s.here.m with eng := { s.here.m.eng with
          run := some { pc := p.1, blk := p.2, branch := none }, clk := s.here.m.eng.clk + 1, wait := none } } })

/-- The fibre goes to `t` with the registers `g`: the remaining repeats are abandoned, and the branch is remembered for
the check at the target. -/
def Sys2Proof.Machine.State.JumpsTo (s : State) (i : Instr) (t : Word) (g : Vector Word 8) : Prop :=
  ∃ u, exec i s = .next u ∧ s.OnlyFibre u ∧
    u.fibre = { s.fibre with
      body := { s.fibre.body with g := g, pc := t, blk := none, branch := some s.fibre.body.pc }
      status := .issued (s.now + 3)
      parkSeq := none }

/-- A taken jump checks its target at the branch (06 R117): a target that is no multiple of 4 traps with BLOCK and the
target as detail, and nothing is written. -/
def Sys2Proof.Machine.State.TakenTo (s : State) (i : Instr) (t : Word) (g : Vector Word 8) : Prop :=
  (t.extractLsb' 0 2 = 0 → s.JumpsTo i t g) ∧ (t.extractLsb' 0 2 ≠ 0 → s.TrapsWith i cBLOCK t)

/-- J, JAL, JR and JALR (06 R114, R115): the targets, the link (the bend of the current block), the end of the task on
a target of 0. -/
def Sys2Proof.Says.Jumps : Prop :=
  ∀ (s : State) (k : Block) (off : BitVec 25) (o : BitVec 16) (d a : GReg), s.fibre.body.blk = some k →
    let pc := s.fibre.body.pc
    let g := s.fibre.body.g
    let t := s.g a + o.signExtend 64 * 4
    s.TakenTo (.j off) (pc + off.signExtend 64 * 4) g ∧
    s.TakenTo (.jal off) (pc + off.signExtend 64 * 4) (g.set 7 k.fin) ∧
    (t ≠ 0 → s.TakenTo (.jr o a) t g ∧ s.TakenTo (.jalr o d a) t (g.set d k.fin)) ∧
    (t = 0 → exec (.jr o a) s = exec .tend s ∧ exec (.jalr o d a) s = exec .tend s)

/-- A conditional branch of `len` bytes: taken to its target when the condition holds, otherwise on to the next word in
1 CCLK. -/
def Sys2Proof.Machine.State.BranchesIf (s : State) (i : Instr) (c : Prop) (t : Word) (len : Nat) : Prop :=
  (c → s.TakenTo i t s.fibre.body.g) ∧ (¬c → s.OnlyGoesOn i len 1)

/-- Conditional branches (06 R116) and the compact BZ and BNZ (06 Table 6.6). -/
def Sys2Proof.Says.Branches : Prop :=
  ∀ (s : State) (o : BitVec 16) (j : BitVec 7) (a b : GReg),
    let t := s.fibre.body.pc + o.signExtend 64 * 4
    let tc := s.fibre.body.pc + j.signExtend 64 * 4
    let x := s.g a
    let y := s.g b
    s.BranchesIf (.beq o a b) (x = y) t 4 ∧
    s.BranchesIf (.bne o a b) (x ≠ y) t 4 ∧
    s.BranchesIf (.blt o a b) (x.toInt < y.toInt) t 4 ∧
    s.BranchesIf (.bge o a b) (y.toInt ≤ x.toInt) t 4 ∧
    s.BranchesIf (.bltu o a b) (x.toNat < y.toNat) t 4 ∧
    s.BranchesIf (.bgeu o a b) (y.toNat ≤ x.toNat) t 4 ∧
    s.BranchesIf (.bz o a) (x = 0) t 4 ∧
    s.BranchesIf (.bnz o a) (x ≠ 0) t 4 ∧
    s.BranchesIf (.bzC16 a j) (x = 0) tc 2 ∧
    s.BranchesIf (.bnzC16 a j) (x ≠ 0) tc 2

/-! ## Tasks and fibres (06 R118-R122) -/

/-- The end of a fibre (06 R118, 11 R222): with posted requests open the word parks; the end of a task makes its slot
FREE and gives its private region back to its launch, and nothing else changes. -/
def Sys2Proof.Machine.State.EndsFibre (s : State) (i : Instr) : Prop :=
  (s.fibre.body.outst ≠ 0 → ∃ t, exec i s = .next t ∧ s.OnlyHere t ∧ t.fibre.body = s.fibre.body ∧
    t.fibre.status = .parked (.retry .outst0 15 (w64 s.fibre.body.outst)) s.now) ∧
  (s.fibre.body.outst = 0 → s.fibre.body.kind = .task → s.here.fibres.wf = true →
    ∃ t, exec i s = .next t ∧
      t.here.fibres.find s.cur.slot = none ∧
      (∀ n, n ≠ s.cur.slot → t.here.fibres.find n = s.here.fibres.find n) ∧
      t.here = { s.here with fibres := t.here.fibres } ∧
      (∀ c, c ≠ s.cur.cell → t.cell c = s.cell c) ∧
      t = { s with cells := t.cells, launches := t.launches } ∧
      (s.fibre.body.priv = none → t.launches = s.launches) ∧
      (∀ base l, s.fibre.body.priv = some base → s.here.launch = some l →
        (t.launch l).regions = (s.launch l).regions.erase base))

/-- YIELD of `len` bytes (06 R119): a task is saved past the word when a pre-empt request stands, otherwise the word only
goes on. -/
def Sys2Proof.Machine.State.Yields (s : State) (i : Instr) (len : Nat) : Prop :=
  ∃ t, exec i s = .next t ∧ s.OnlyFibre t ∧ (∀ r, t.g r = s.g r) ∧
    t.fibre.body.pc = (s.fibre.body.past len).pc ∧ t.fibre.body.blk = (s.fibre.body.past len).blk ∧
    t.fibre.status =
      if s.myLaunch.preempt = true ∧ s.fibre.body.kind = .task then .saved else .issued (s.now + 1)

/-- TEND, YIELD, their compact forms, and the fields that FIBID writes (06 R118-R120, Table 6.3). -/
def Sys2Proof.Says.EndAndYield : Prop :=
  ∀ (s : State) (d : GReg),
    s.EndsFibre .tend ∧ s.EndsFibre .tendC16 ∧ s.Yields .yield 4 ∧ s.Yields .yieldC16 2 ∧
    (s.here.idx s.myLaunch < 1024 → s.here.role < 16 → s.cur.slot < 256 →
      ∃ v : Word, s.Writes (.fibid d) d v 4 1 ∧
        v.extractLsb' 32 32 = s.fibre.body.startNo ∧ (v.extractLsb' 26 6).toNat = 0 ∧
        (v.extractLsb' 16 10).toNat = s.here.idx s.myLaunch ∧ (v.extractLsb' 12 4).toNat = 0 ∧
        (v.extractLsb' 8 4).toNat = s.here.role ∧ (v.extractLsb' 0 8).toNat = s.cur.slot)

/-- The state after a release at a scope has been performed, where no posted request of the fibre is open (12 R254). -/
abbrev Sys2Proof.Machine.State.afterRelease (s : State) (sc : Scope) : State := s.relL1 sc

/-- The record that PUSHT or SPAWN hands on: the child's PC and g0-g3 (06 R121). -/
def Sys2Proof.Machine.State.childOf (s : State) (pc : Word) : TaskRec := { pc := pc, a0 := s.g 0, a1 := s.g 1, a2 := s.g 2, a3 := s.g 3 }

/-- `t` is `r` with a record pushed at the hot end of the deque of the cell that acts and the fibre past its word; on a
full deque the child runs inline: it has the arguments, the link to the bend in g7, and the fibre goes to the child
(04 R66, R69). -/
def Sys2Proof.Machine.State.PushedOrInline (r t : State) (x : TaskRec) : Prop :=
  r.OnlyHere t ∧
  (r.here.deque.length < 64 →
    t.here.deque = r.here.deque ++ [{ task := x, entered := r.now }] ∧ r.WroteNone t 4 1 ∧
    t.here = { r.here with deque := t.here.deque, fibres := t.here.fibres } ∧
    ∀ n, n ≠ r.cur.slot → t.here.fibre n = r.here.fibre n) ∧
  (64 ≤ r.here.deque.length →
    t.here.deque = r.here.deque ∧ t.g 0 = x.a0 ∧ t.g 1 = x.a1 ∧ t.g 2 = x.a2 ∧ t.g 3 = x.a3 ∧
    t.g 4 = r.g 4 ∧ t.g 5 = r.g 5 ∧ t.g 6 = r.g 6 ∧ t.g 7 = r.fibre.body.bend ∧
    t.fibre.body.pc = x.pc ∧ t.fibre.body.blk = none ∧ t.fibre.status = .issued (r.now + 3))

/-- PUSHT and SPAWN (06 R121, 04 R66-R69): the traps in their order; the release; the record at the hot end of this
cell's deque, or inline when it is full; a SPAWN to another cell sends the record there and parks. -/
def Sys2Proof.Says.PushAndSpawn : Prop :=
  ∀ (s : State) (a b : GReg),
    let pc := s.g a
    let r := s.afterRelease .device
    (pc.extractLsb' 60 4 ≠ 0 → s.TrapsWith (.pusht a) cAPERTURE pc ∧ s.TrapsWith (.spawn a b) cAPERTURE pc) ∧
    (pc.extractLsb' 60 4 = 0 → pc.extractLsb' 0 2 ≠ 0 →
      s.TrapsWith (.pusht a) cALIGN pc ∧ s.TrapsWith (.spawn a b) cALIGN pc) ∧
    (pc.extractLsb' 60 4 = 0 → pc.extractLsb' 0 2 = 0 →
      (s.fibre.body.outst = 0 → ∃ t, exec (.pusht a) s = .next t ∧ r.PushedOrInline t (s.childOf pc)) ∧
      (s.fibre.body.outst ≠ 0 → ∃ t, exec (.pusht a) s = .next t ∧ t.here.deque = s.here.deque ∧
        t.fibre.status = .parked (.retry .outst0 15 (w64 s.fibre.body.outst)) s.now) ∧
      (s.spawnTarget (s.g b) = none → s.TrapsWith (.spawn a b) cAPERTURE (s.g b)) ∧
      (s.fibre.body.outst = 0 → s.spawnTarget (s.g b) = some s.cur.cell →
        ∃ t, exec (.spawn a b) s = .next t ∧ r.PushedOrInline t (s.childOf pc)) ∧
      (∀ c, s.fibre.body.outst = 0 → s.spawnTarget (s.g b) = some c → c ≠ s.cur.cell →
        ∃ t m, exec (.spawn a b) s = .next t ∧ t.net = r.net ++ [m] ∧ m.dst = .cell c ∧
          m.body = .spawn { dev := s.device, cell := s.cur.cell, slot := s.cur.slot, fid := s.fibre.body.fid, id := r.nextId }
            (s.childOf pc) ∧
          t.fibre.status = .parked (.spawn r.nextId (s.g b) (s.childOf pc) 4) s.now ∧
          t.fibre.body = s.fibre.body ∧ t.mem = r.mem ∧ ∀ x, x ≠ s.cur.cell → t.cell x = r.cell x))

/-- FORKV and FORKM (06 R122): the traps, the wait for room, and the request at the tail of the engine's queue. -/
def Sys2Proof.Says.Forks : Prop :=
  ∀ (s : State) (a : GReg) (st : Stream), st ≠ .s →
    let i : Instr := if st = .m then .forkm a else .forkv a
    let q : Cond := if st = .m then .forkM else .forkV
    let e := s.here.engOf st
    let x := s.g a
    (x.extractLsb' 60 4 ≠ 0 → s.TrapsWith i cAPERTURE x) ∧
    (x.extractLsb' 60 4 = 0 → x.extractLsb' 0 2 ≠ 0 → s.TrapsWith i cALIGN x) ∧
    (x.extractLsb' 60 4 = 0 → x.extractLsb' 0 2 = 0 →
      (e.forks.length < 4 → s.behind q = false →
        ∃ t, exec i s = .next t ∧ s.OnlyHere t ∧ s.WroteNone t 4 1 ∧
          t.here.engOf st = { e with forks := e.forks ++ [{ pc := x, a0 := s.g 0, a1 := s.g 1, a2 := s.g 2, a3 := s.g 3 }] } ∧
          t.here.spad = s.here.spad ∧ t.here.k = s.here.k ∧ ∀ n, n ≠ s.cur.slot → t.here.fibre n = s.here.fibre n) ∧
      (4 ≤ e.forks.length → ∃ t, exec i s = .next t ∧ s.OnlyHere t ∧ t.here.engOf st = e ∧
        t.fibre.status = .parked (.retry q 12 x) s.now ∧ t.fibre.body = s.fibre.body))

/-! ## Special registers (06 R123-R126) -/

/-- The word changes the acting cell to `x`, the fibre going on past the word's 4 bytes; no other fibre changes. -/
def Sys2Proof.Machine.State.SetsCell (s : State) (i : Instr) (x : Cell) (lat : Nat) : Prop :=
  ∃ t, exec i s = .next t ∧ s.OnlyHere t ∧ s.WroteNone t 4 lat ∧ t.here = { x with fibres := t.here.fibres } ∧
    ∀ n, n ≠ s.cur.slot → t.here.fibre n = s.here.fibre n

/-- What a word that issues sees in register `r` of its cell: the value `new`, or shortly after a write the one before it
(06 R126). -/
def Sys2Proof.Machine.State.Sees (s : State) (r : Nat) (new w : Word) : Prop :=
  w = new ∨ ∃ e ∈ s.here.late, e.reg = r ∧ s.now < e.till ∧ w = e.old

/-- No write of register `r` is so recent that a word may not see it (06 R126). -/
def Sys2Proof.Machine.State.Settled (s : State) (r : Nat) : Prop := ∀ e ∈ s.here.late, e.reg = r → e.till ≤ s.now

/-- A PMC of the cell that acts as it stands now, for every source of 19 Table 19.4 but source 5, which reads as a free
value (log 18): source 1 counts CCLK. -/
def Sys2Proof.Machine.State.pmcValue (s : State) (i : Fin 4) : Word :=
  if s.here.pmCode i = 1 then s.here.pmc[i] + w64 (s.now - s.here.pmSince[i]) else s.here.pmc[i]

/-- The values that words may still see once register `r`, which held `old`, has been written by a word that lasts `lat`
CCLK (06 R126): none from a write whose 4 CCLK after completion are over. -/
def Sys2Proof.Machine.State.lateWith (s : State) (r : Nat) (old : Word) (lat : Nat) : List LateVal :=
  s.here.late.filter (fun e => s.now < e.till) ++ [{ reg := r, till := s.now + lat + 4, old := old }]

/-- MFS (06 R123, R126, Tables 6.4 and 6.5): what each special register reads as, shortly after a write either value, and
PRIV for a number that Table 6.4 does not list. That a server fibre's TASKLEFT and PMC source 5 are free values is the
model's choice (logs 17, 18). -/
def Sys2Proof.Says.SpecialRegisterReads : Prop :=
  ∀ (s : State) (d : GReg),
    let c := s.cur.cell
    let x := s.here
    let l := s.myLaunch
    let f := s.fibre
    s.Writes (.mfs 0x00 d) d (w64 ((x.x + x.y * l.w) * 2 ^ 16 + x.y * 2 ^ 8 + x.x)) 4 1 ∧
    s.Writes (.mfs 0x01 d) d
      (w64 (l.kernelId.toNat * 2 ^ 32 + x.role * 2 ^ 24 + l.roleCount * 2 ^ 16 + l.h * 2 ^ 8 + l.w)) 4 1 ∧
    s.Writes (.mfs 0x02 d) d
      (w64 (s.device * 2 ^ 32 + memberOf c * 2 ^ 26 + dieOf c * 2 ^ 24 + clusterOf c * 2 ^ 16 + c / 24 * 2 ^ 8 + c % 24))
      4 1 ∧
    s.Writes (.mfs 0x03 d) d (w64 (s.now - x.cbase)) 4 1 ∧
    (∃ w, s.Sees 0x04 (x.seed.setWidth 64) w ∧ s.Writes (.mfs 0x04 d) d w 4 1) ∧
    (∃ w, s.Sees 0x05 (if x.qovf then 1 else 0) w ∧ s.Writes (.mfs 0x05 d) d w 4 1) ∧
    (∃ w, s.Sees 0x06 (if l.flags.getLsbD 3 then l.router else 0) w ∧ s.Writes (.mfs 0x06 d) d w 4 1) ∧
    (∃ w, s.Sees 0x07 (x.binbase.setWidth 64) w ∧ s.Writes (.mfs 0x07 d) d w 4 1) ∧
    s.Writes (.mfs 0x08 d) d f.trap.code 4 1 ∧
    s.Writes (.mfs 0x09 d) d f.trap.pc 4 1 ∧
    s.Writes (.mfs 0x0A d) d f.trap.detail 4 1 ∧
    s.Writes (.mfs 0x0B d) d f.trap.seq 4 1 ∧
    s.Writes (.mfs 0x0C d) d f.trap.stream 4 1 ∧
    s.Writes (.mfs 0x0D d) d (w64 f.body.outst) 4 1 ∧
    s.Writes (.mfs 0x0E d) d (x.reqseq.setWidth 64) 4 1 ∧
    (f.body.kind = .task → s.Writes (.mfs 0x0F d) d (w64 (l.budget - f.body.usedAt s.now)) 4 1) ∧
    (f.body.kind.isHandler = true → s.Writes (.mfs 0x0F d) d (w64 (4096 - f.body.usedAt s.now)) 4 1) ∧
    s.Writes (.mfs 0x10 d) d (w64 l.waitlim) 4 1 ∧
    s.Writes (.mfs 0x11 d) d (w64 ((if l.preempt then 1 else 0) + (if l.cancel then 2 else 0))) 4 1 ∧
    s.Writes (.mfs 0x12 d) d (if l.umbra then 1 else 0) 4 1 ∧
    s.Writes (.mfs 0x13 d) d s.routeEmpty 4 1 ∧
    (∀ i : Fin 4, s.Settled (0x20 + i.val) → x.pmCode i ≠ 5 →
      s.Writes (.mfs (BitVec.ofNat 8 (0x20 + i.val)) d) d (s.pmcValue i) 4 1) ∧
    (∀ i : Fin 4, ∃ w, s.Writes (.mfs (BitVec.ofNat 8 (0x20 + i.val)) d) d w 4 1) ∧
    (∃ w, s.Writes (.mfs 0x0F d) d w 4 1) ∧
    (∃ w, s.Sees 0x24 (x.pmsel.setWidth 64) w ∧ s.Writes (.mfs 0x24 d) d w 4 1) ∧
    (∀ r : BitVec 8, 0x14 ≤ r.toNat → (r.toNat < 0x20 ∨ 0x24 < r.toNat) → s.TrapsWith (.mfs r d) cPRIV (w64 r.toNat))

/-- MTS (06 R123-R126): the registers that a program may write, the bits that are discarded, and PRIV for the others; a
word that issues less than 4 CCLK after the write completes may see the value from before it. -/
def Sys2Proof.Says.SpecialRegisterWrites : Prop :=
  ∀ (s : State) (a : GReg),
    let v := s.g a
    let x := s.here
    s.SetsCell (.mts 0x05 a) { x with qovf := v.getLsbD 0, late := s.lateWith 0x05 (if x.qovf then 1 else 0) 1 } 1 ∧
    (∀ i : Fin 4, ∃ late, s.SetsCell (.mts (BitVec.ofNat 8 (0x20 + i.val)) a)
        { x with pmc := x.pmc.set i v, pmSince := x.pmSince.set i s.now, late := late } 1 ∧
      (∀ e : LateVal, e.reg ≠ 0x20 + i.val → (e ∈ late ↔ e ∈ x.late ∧ s.now < e.till)) ∧
      (x.pmCode i ≠ 5 → ∀ e ∈ late, e.reg = 0x20 + i.val → ∃ b, e.old = b - v ∧
        ((b = s.pmcValue i ∧ e.till = s.now + 5) ∨
          ∃ y ∈ x.late, y.reg = e.reg ∧ y.till = e.till ∧ s.now < y.till ∧ b = s.pmcValue i + y.old))) ∧
    (∃ p q, s.SetsCell (.mts 0x24 a)
        { x with pmsel := v.setWidth 32, pmc := p, pmSince := q, late := s.lateWith 0x24 (x.pmsel.setWidth 64) 1 } 1 ∧
      ∀ i : Fin 4, p[i] = s.pmcValue i ∧ q[i] = s.now) ∧
    s.SetsCell (.mtsSeed a)
      { x with seed := if v.extractLsb' 0 32 = 0 then 1 else v.extractLsb' 0 32
               late := s.lateWith 0x04 (x.seed.setWidth 64) 1 } 1 ∧
    (∀ r : BitVec 8, (r.toNat < 0x04 ∨ (0x07 < r.toNat ∧ r.toNat < 0x20) ∨ 0x24 < r.toNat) → r ≠ 0x09 →
      s.TrapsWith (.mts r a) cPRIV (w64 (256 + r.toNat))) ∧
    (s.fibre.body.kind.isTrap = true → ∃ t, exec (.mtsTrappc a) s = .next t ∧ s.OnlyFibre t ∧
      t.fibre.trap = { s.fibre.trap with pc := v, written := true } ∧ (∀ r, t.g r = s.g r) ∧
      t.fibre.body = s.fibre.body.past 4) ∧
    (s.fibre.body.kind.isTrap = false → s.OnlyGoesOn (.mtsTrappc a) 4 1) ∧
    (s.here.launch = none ∨ s.myLaunch.flags.getLsbD 3 = false → s.TrapsWith (.mtsRouter a) cPRIV (w64 (256 + 6))) ∧
    (∀ l, s.here.launch = some l → s.myLaunch.flags.getLsbD 3 = true → (∀ e ∈ s.routers, e.2.hist = []) →
      ∃ t, exec (.mtsRouter a) s = .next t ∧ (t.launch l).router = v &&& 0xFFFFFFFFFFFFF000 ∧
        (∀ die, (s.router die).launch = some l → (t.router die).loaded = none) ∧ t.mem = s.mem ∧
        t.here = { s.here with fibres := t.here.fibres, late := s.lateWith 0x06 s.myLaunch.router 1 } ∧
        s.WroteNone t 4 1 ∧ ∀ c, c ≠ s.cur.cell → t.cell c = s.cell c) ∧
    (∀ l, s.here.launch = some l → s.myLaunch.flags.getLsbD 3 = true →
      ∃ t, exec (.mtsRouter a) s = .next t ∧ (t.launch l).router = v &&& 0xFFFFFFFFFFFFF000 ∧ s.WroteNone t 4 1 ∧
        ∀ die, (s.router die).launch = some l → (t.router die).loaded = none ∧ (t.router die).hist = [])

/-- A load of the bin table (14 R287): the shadow holds the descriptors from the offset up to the first that is not
VALID, as they stand in the scratchpad; a descriptor that breaks the checks of Table 14.4 traps with ROUTE code 6 and its
index, and leaves the shadow empty; a load that reaches the hardware-managed area traps with APERTURE (11 R226). -/
def Sys2Proof.Says.BinTableLoad : Prop :=
  ∀ (s : State) (a : GReg),
    let v := (s.g a).extractLsb' 0 20 &&& 0xFFFF0
    (∀ l, loadBins s.here.spad 1024 v.toNat 0 = .ok l →
      s.SetsCell (.mtsBinbase a)
        { s.here with binbase := v, bins := l
                      late := s.lateWith 0x07 (s.here.binbase.setWidth 64) (1 + l.length) } (1 + l.length) ∧
      ∀ i (h : i < l.length), l[i] = BitVec.ofNat 128 (s.here.spad.read (v.toNat + 16 * i) 16) ∧
        (l[i]).getLsbD 96 = true ∧ binCount l[i] ≤ binCapacity l[i] ∧
        binBuffer l[i] + 32 * binCapacity l[i] ≤ 0xF0000) ∧
    (∀ i, loadBins s.here.spad 1024 v.toNat 0 = .bad i →
      ∃ r, s.OnlyHere r ∧ r.here = { s.here with bins := [] } ∧
        exec (.mtsBinbase a) s = .next (r.trap cROUTE (w64 (i % 65536 * 65536 + 6)))) ∧
    (∀ o, loadBins s.here.spad 1024 v.toNat 0 = .outside o → 0xF0000 ≤ o ∧
      ∃ r, s.OnlyHere r ∧ r.here = { s.here with bins := [] } ∧
        exec (.mtsBinbase a) s = .next (r.trap cAPERTURE (w64 o)))

/-! ## Traps (18) -/

/-- What a trap handler over the fibre that acts finds (18 R357, R359): the five trap registers, the same in g0 to g4 and 0
in g5 to g7, the handler's PC, and the trapped fibre as `b` in its frame. -/
def Sys2Proof.Machine.State.EntersHandler (s t : State) (code detail pc stream : Word) (b : FBody) : Prop :=
  (∀ c, c ≠ s.cur.cell → t.cell c = s.cell c) ∧ t = { s with cells := t.cells, nextId := s.nextId + 1 } ∧
  t.here = { s.here with fibres := t.here.fibres, nextOrder := s.here.nextOrder + 1 } ∧
  (∀ n, n ≠ s.cur.slot → t.here.fibre n = s.here.fibre n) ∧
  t.fibre.trap = { code := code, pc := pc, detail := detail, seq := 0, stream := stream, written := false } ∧
  t.g 0 = code ∧ t.g 1 = detail ∧ t.g 2 = pc ∧ t.g 3 = 0 ∧ t.g 4 = stream ∧ t.g 5 = 0 ∧ t.g 6 = 0 ∧ t.g 7 = 0 ∧
  t.fibre.body.pc = s.myLaunch.handlerPc ∧ t.fibre.body.blk = none ∧ t.fibre.body.kind = .trap .fibre ∧
  t.fibre.body.priv = none ∧ t.fibre.status = .ready ∧
  t.fibre.frame = some { b with used := b.usedAt s.now, since := none }

/-- The launch of the acting cell fails (18 R366): it is cancelled, and the first trap's record is kept; of memory nothing
changes but bytes that the launch wrote, which are undefined (03 R56). -/
def Sys2Proof.Machine.State.FailsLaunch (s t : State) (rec : List Byte) : Prop :=
  ∀ l x, s.here.launch = some l → s.launches.find l = some x → x.cancel = false → x.key = none →
    (∀ a, (a, l) ∉ s.authors → Mem.read t.mem a = Mem.read s.mem a) ∧
    t = { s with mem := t.mem, launches := s.launches.put l { x with
      cancel := true, preempt := false, ended := if x.ended.isNone then some (.trapped rec) else x.ended } }

/-- A trap record (18 Table 18.6) of the acting fibre. -/
def Sys2Proof.Machine.State.recordOf (s : State) (code detail pc stream : Word) (flags : Nat) : List Byte :=
  natBytes 8 code.toNat ++ natBytes 8 detail.toNat ++ natBytes 8 0 ++ natBytes 8 stream.toNat ++ natBytes 8 pc.toNat ++
  natBytes 4 0 ++ natBytes 4 s.myLaunch.kernelId.toNat ++ natBytes 2 (s.here.x + s.here.y * s.myLaunch.w) ++
  natBytes 1 s.cur.slot ++ natBytes 1 flags ++ natBytes 4 s.device ++ natBytes 8 (w64 (s.now - s.here.cbase)).toNat

/-- TRAPSTREAM of an exact trap of the fibre that acts (18 Table 18.3). -/
def Sys2Proof.Machine.State.exactStream (s : State) : Word := (s.fibre.body.pc >>> 1) <<< 8

/-- The exact trap of a fibre by the action of its class (18 R354-R359, R366): HANDLER enters the handler at the word,
ABORT fails the launch, and in a trap handler any trap fails the launch as nested. -/
def Sys2Proof.Says.ExactTrapEntry : Prop :=
  ∀ (s : State) (cls : Nat) (detail : Word), cls < 32 →
    let pc := s.fibre.body.pc
    let act := fld s.myLaunch.actions (2 * cls + 1) (2 * cls)
    let k := s.fibre.body.kind
    (act = 1 → k = .task ∨ (∃ e, k = .server e) →
      s.EntersHandler (s.trap cls detail) (w64 cls) detail pc s.exactStream s.fibre.body) ∧
    (act ≠ 1 → k = .task ∨ (∃ e, k = .server e) →
      s.FailsLaunch (s.trap cls detail) (s.recordOf (w64 cls) detail pc s.exactStream 0)) ∧
    (∀ src, k = .trap src →
      s.FailsLaunch (s.trap cls detail)
        (s.recordOf (w64 cls) detail pc s.exactStream (1 + if s.cur.slot < 16 then 2 else 0)))

/-- TRAP and BRK (18 R362, 06 R127): the words of TRAP; USER with the operand, BREAK with the code, taken past the word; under IGNORE they
act as NOP (18 R356). -/
def Sys2Proof.Says.SoftwareTraps : Prop :=
  ∀ (s : State) (a : GReg) (c : BitVec 8) (i : Instr) (cls : Nat) (detail : Word),
    (i = .trap a ∧ cls = 0x18 ∧ detail = s.g a) ∨ (i = .brk c ∧ cls = 0x17 ∧ detail = c.setWidth 64) →
    let act := fld s.myLaunch.actions (2 * cls + 1) (2 * cls)
    let b := s.fibre.body.past 4
    s.fibre.body.kind = .task →
    (act = 1 → ∃ t, exec i s = .next t ∧ s.EntersHandler t (w64 cls) detail b.pc s.exactStream b) ∧
    (act = 0 → ∃ t, exec i s = .next t ∧ s.FailsLaunch t (s.recordOf (w64 cls) detail b.pc s.exactStream 0)) ∧
    (act = 2 → s.OnlyGoesOn i 4 1) ∧
    ∀ w, w < 2 ^ 32 → (decodeIn .s 32 w = some (.trap a) ↔ w = 0x0002DA00 + 8 * a.val)

/-- RTT and RTT.DROP (18 R361, R363): ILLEGAL outside a trap handler; they wait for the handler's posted requests; a
trapped fibre resumes from its frame, at the word it stands at or by a taken jump to what the handler wrote to TRAPPC, and
under DROP it ends as a task; a trapped engine goes on or loses its stream. -/
def Sys2Proof.Says.ReturnFromTrap : Prop :=
  ∀ (s : State),
    let f := s.fibre
    (f.body.kind.isTrap = false → s.TrapsWith .rtt cILLEGAL f.body.pc ∧ s.TrapsWith .rttDrop cILLEGAL f.body.pc) ∧
    (f.body.kind.isTrap = true → f.body.outst ≠ 0 → ∃ t u, exec .rtt s = .next t ∧ exec .rttDrop s = .next u ∧
      t.fibre.body = f.body ∧ t.fibre.status = .parked (.retry .outst0 15 (w64 f.body.outst)) s.now ∧
      u.fibre.body = f.body ∧ u.fibre.status = .parked (.retry .outst0 15 (w64 f.body.outst)) s.now) ∧
    (∀ b, f.body.kind = .trap .fibre → f.body.outst = 0 → f.frame = some b → b.kind = .task → b.ending = false →
      (∃ t, exec .rtt s = .next t ∧ s.OnlyFibre t ∧ t.fibre.status = .ready ∧ t.fibre.frame = none ∧
        t.fibre.trap = { code := 0, pc := 0, detail := 0, seq := 0, stream := 0, written := false } ∧
        t.fibre.body =
          if f.trap.written then
            { b with stop := false, since := some s.now, pc := f.trap.pc, blk := none, branch := some f.body.pc }
          else { b with stop := false, since := some s.now }) ∧
      (∃ t, exec .rttDrop s = .next t ∧ s.OnlyFibre t ∧ t.fibre.status = .ready ∧ t.fibre.frame = none ∧
        t.fibre.body = { b with ending := true })) ∧
    (∀ (st : Stream) (p : StreamPos), st ≠ .s → f.body.kind = .trap (if st = .m then .m else .v) → f.body.outst = 0 →
      (s.here.engOf st).run = some p → s.here.fibres.wf = true →
      (∃ t, exec .rtt s = .next t ∧ s.OnlyHere t ∧ t.here.fibres.find s.cur.slot = none ∧
        t.here.engOf st = { s.here.engOf st with
          stopped := false
          clk := (s.here.engOf st).clk + 2
          run := some (if f.trap.written then { pc := f.trap.pc, blk := none, branch := some f.body.pc } else p) }) ∧
      (∃ t, exec .rttDrop s = .next t ∧ s.OnlyHere t ∧ t.here.fibres.find s.cur.slot = none ∧
        t.here.engOf st = { s.here.engOf st with stopped := false, run := none, tok := none, wait := none }))

/-! ## Loads and stores (12 R236-R240) -/

/-- The little-endian number in `n` bytes of the scratchpad of the cell that acts. -/
def Sys2Proof.Machine.State.ownBytes (s : State) (off n : Nat) : Nat :=
  ((List.range n).map (fun i => (Mem.read s.here.spad.bytes (off + i)).toNat * 256 ^ i)).sum

/-- Data of a load in a register (12 R238): sign-extended in B, H, W, zero-extended in BU, HU, WU. -/
def Sys2Proof.LdSize.value (z : LdSize) (x : Nat) : Word :=
  match z with
  | .b => (BitVec.ofNat 8 x).signExtend 64
  | .h => (BitVec.ofNat 16 x).signExtend 64
  | .w => (BitVec.ofNat 32 x).signExtend 64
  | _ => BitVec.ofNat 64 x

/-- The access of `n` bytes at `a` reaches the program's area of the own scratchpad at `off`, aligned. -/
def Sys2Proof.Machine.State.ReachesOwn (s : State) (a : Word) (n off : Nat) : Prop :=
  s.resolveHere a n = some (.spad s.cur.cell off) ∧ off + n ≤ 0xF0000 ∧ a.toNat % n = 0

/-- The access reaches a place outside the own scratchpad: another cell, GLOBAL memory or another device, aligned. -/
def Sys2Proof.Machine.State.ReachesFar (s : State) (a : Word) (n : Nat) (p : MemPlace) : Prop :=
  a.toNat % n = 0 ∧
  ((∃ c off, s.resolveHere a n = some (.spad c off) ∧ c ≠ s.cur.cell ∧ off + n ≤ 0xF0000 ∧ p = .spad c off) ∨
   (∃ va, s.resolveHere a n = some (.global va) ∧ p = .global va) ∨
   (∃ d, s.resolveHere a n = some (.remote d) ∧ (a.extractLsb' 60 4 = 0xE → (a.extractLsb' 0 20).toNat + n ≤ 0xF0000) ∧
     p = .device d a))

/-- The access reaches the hardware-managed area of a cell of another device (11 R226). -/
def Sys2Proof.Machine.State.ReachesFarArea (s : State) (a : Word) (n : Nat) : Prop :=
  ∃ d, s.resolveHere a n = some (.remote d) ∧ a.extractLsb' 60 4 = 0xE ∧ 0xF0000 < (a.extractLsb' 0 20).toNat + n

/-- The state with everything but the L1 caches and the cell that acts as before. -/
structure Sys2Proof.Machine.State.OnlyHereL1 (s t : State) : Prop where
  rest : t = { s with cells := t.cells }
  cells : ∀ c, c ≠ s.cur.cell → t.cell c = { s.cell c with l1 := (t.cell c).l1 }
  memory : ∀ a, Mem.read t.mem a = Mem.read s.mem a

/-- `t` differs from `s` in the acting fibre and in L1 caches only. -/
structure Sys2Proof.Machine.State.OnlyFibreL1 (s t : State) : Prop extends State.OnlyHereL1 s t where
  here : t.here = { s.here with fibres := t.here.fibres, l1 := t.here.l1 }
  slots : ∀ n, n ≠ s.cur.slot → t.here.fibre n = s.here.fibre n

/-- A request of the acting fibre is on its way: under the next numbers, to the cell of a scratchpad, the home of an
address of device memory, or another device. -/
structure Sys2Proof.Machine.State.Asks (s t : State) (a : Word) (p : MemPlace) (op : MemOp) (posted : Bool) : Prop where
  near : (∀ d x, p ≠ .device d x) →
    t.net = s.net ++ [stagedMsg s.nextId (.cell s.cur.cell) (s.homeNode s.myLaunch.job p) .request
      (.mem { ctx := s.ctxOf s.cur.cell, who := s.asker, posted := posted, seq := s.here.reqseq,
              pc := s.fibre.body.pc, addr := a, place := p, op := op })] ∧
    t = { s with cells := t.cells, net := t.net, nextId := s.nextId + 1 }
  far : ∀ d x, p = .device d x →
    s.SendsFrame t d .request
      (.mem { ctx := s.ctxOf s.cur.cell, who := s.asker, posted := posted, seq := s.here.reqseq,
              pc := s.fibre.body.pc, addr := a, place := p, op := op }) ∧
    t = { s with cells := t.cells, fabricOut := t.fabricOut, fabricKept := t.fabricKept, fabricSeqOut := t.fabricSeqOut,
                 nextId := s.nextId + 1 }
  cells : ∀ c, c ≠ s.cur.cell → t.cell c = s.cell c
  here : t.here = { s.here with
    reqseq := s.here.reqseq + 1, fibres := t.here.fibres, nextOrder := t.here.nextOrder }
  slots : ∀ n, n ≠ s.cur.slot → t.here.fibre n = s.here.fibre n

/-- What a word answers: from `s`, it asks and parks until its answer comes (12 R237). -/
def Sys2Proof.Machine.State.AsksAndWaits (s : State) (o : Host.Outcome State Fault Refusal) (a : Word) (p : MemPlace)
    (op : MemOp) (rd : Option GReg) (z : LdSize) (acq : Option Scope) (len : Nat) : Prop :=
  ∃ t, o = .next t ∧ s.Asks t a p op false ∧ t.fibre.body = s.fibre.body ∧
    t.fibre.status = .parked (.reply s.nextId (s.cvtgForm a) rd z acq len) s.now

/-- What a word answers: from `s`, it posts a request and goes on; at 64 requests not yet answered it parks until one has
been (12 R258). -/
def Sys2Proof.Machine.State.Posts (s : State) (o : Host.Outcome State Fault Refusal) (a : Word) (p : MemPlace) (op : MemOp)
    (len : Nat) : Prop :=
  (s.fibre.body.outst < 64 → ∃ t, o = .next t ∧ s.Asks t a p op true ∧ (∀ r, t.g r = s.g r) ∧
    t.fibre.body.outst = s.fibre.body.outst + 1 ∧ t.fibre.status = .issued (s.now + 1) ∧
    t.fibre.body.pc = (s.fibre.body.past len).pc ∧ t.fibre.body.blk = (s.fibre.body.past len).blk) ∧
  (64 ≤ s.fibre.body.outst → ∃ t, o = .next t ∧ s.OnlyHere t ∧ t.fibre.body = s.fibre.body ∧
    t.fibre.status = .parked (.retry .outstLow 15 (w64 s.fibre.body.outst)) s.now)

/-- The word waits at its place until every posted request of the fibre has been answered, and changes nothing else. -/
def Sys2Proof.Machine.State.WaitsForPosted (s : State) (i : Instr) : Prop :=
  ∃ t, exec i s = .next t ∧ s.OnlyHere t ∧
    t.here = { s.here with fibres := t.here.fibres, nextOrder := s.here.nextOrder + 1 } ∧
    (∀ n, n ≠ s.cur.slot → t.here.fibre n = s.here.fibre n) ∧ t.fibre.body = s.fibre.body ∧
    t.fibre.status = .parked (.retry .outst0 15 (w64 s.fibre.body.outst)) s.now

/-- Loads (12 R238, R240; 06 Table 6.6): from the own scratchpad the bytes at the address, extended, the poison as a trap
or under D.P as 1; from elsewhere a request; the traps for the address. -/
def Sys2Proof.Says.Loads : Prop :=
  ∀ (s : State) (i : BitVec 16) (d a : GReg) (z : LdSize) (dd : BitVec 4),
    let x := s.g a + i.signExtend 64
    let y := s.g a + dd.setWidth 64 * 8
    (∀ off, s.ReachesOwn x z.bytes off →
      (s.here.spad.bad off z.bytes = false → s.Writes (.ld i d a z) d (z.value (s.ownBytes off z.bytes)) 4 4) ∧
      (s.here.spad.bad off z.bytes = true →
        if z = .dp then s.Writes (.ld i d a z) d 1 4 4 else s.TrapsWith (.ld i d a z) cPOISON x)) ∧
    (∀ off, s.ReachesOwn y 8 off → s.here.spad.bad off 8 = false →
      s.Writes (.lddC16 d a dd) d (w64 (s.ownBytes off 8)) 2 4) ∧
    (∀ p, s.ReachesFar x z.bytes p →
      s.AsksAndWaits (exec (.ld i d a z) s) x p (.load z false) (some d) z none 4) ∧
    (∀ p, s.ReachesFar y 8 p → s.AsksAndWaits (exec (.lddC16 d a dd) s) y p (.load .d false) (some d) .d none 2) ∧
    (s.resolveHere x z.bytes = none ∨ s.ReachesFarArea x z.bytes → s.TrapsWith (.ld i d a z) cAPERTURE x) ∧
    (∀ c off, s.resolveHere x z.bytes = some (.spad c off) → off + z.bytes ≤ 0xF0000 → x.toNat % z.bytes ≠ 0 →
      s.TrapsWith (.ld i d a z) cALIGN x) ∧
    (∀ va, s.resolveHere x z.bytes = some (.global va) → x.toNat % z.bytes ≠ 0 → s.TrapsWith (.ld i d a z) cALIGN x)

/-- A store of `n` bytes into the own scratchpad: the bytes of the value at the address, every other byte, every tag, the
poison and all else as before. -/
def Sys2Proof.Machine.State.StoredOwn (s t : State) (off n : Nat) (v : Word) : Prop :=
  s.OnlyHere t ∧ t.here = { s.here with spad := t.here.spad, fibres := t.here.fibres } ∧
  (∀ k, k ≠ s.cur.slot → t.here.fibre k = s.here.fibre k) ∧ t.here.spad.full = s.here.spad.full ∧
  t.here.spad.poison = s.here.spad.poison ∧
  (∀ k, k < n → Mem.read t.here.spad.bytes (off + k) = v.extractLsb' (8 * k) 8) ∧
  (∀ b, b < off ∨ off + n ≤ b → Mem.read t.here.spad.bytes b = Mem.read s.here.spad.bytes b)

/-- Stores (12 R239; 06 Table 6.6): into the own scratchpad the bytes at the address and nothing else; elsewhere a posted
request, which leaves memory and scratchpads as they are until it is performed; the traps for the address. -/
def Sys2Proof.Says.Stores : Prop :=
  ∀ (s : State) (i : BitVec 16) (d a : GReg) (z : StSize) (dd : BitVec 4), Memory.wf s.here.spad.bytes = true →
    let x := s.g a + i.signExtend 64
    let y := s.g a + dd.setWidth 64 * 8
    (∀ off, s.ReachesOwn x z.bytes off →
      ∃ t, exec (.st i d a z) s = .next t ∧ s.StoredOwn t off z.bytes (s.g d) ∧ s.WroteNone t 4 1) ∧
    (∀ off, s.ReachesOwn y 8 off →
      ∃ t, exec (.stdC16 d a dd) s = .next t ∧ s.StoredOwn t off 8 (s.g d) ∧ s.WroteNone t 2 1) ∧
    (∀ p, s.ReachesFar x z.bytes p → s.Posts (exec (.st i d a z) s) x p (.store z.bytes (s.g d) false) 4) ∧
    (∀ p, s.ReachesFar y 8 p → s.Posts (exec (.stdC16 d a dd) s) y p (.store 8 (s.g d) false) 2) ∧
    (s.resolveHere x z.bytes = none ∨ s.ReachesFarArea x z.bytes → s.TrapsWith (.st i d a z) cAPERTURE x) ∧
    (∀ c off, s.resolveHere x z.bytes = some (.spad c off) → 0xF0000 < off + z.bytes →
      s.TrapsWith (.st i d a z) cAPERTURE x) ∧
    (∀ c off, s.resolveHere x z.bytes = some (.spad c off) → off + z.bytes ≤ 0xF0000 → x.toNat % z.bytes ≠ 0 →
      s.TrapsWith (.st i d a z) cALIGN x)

/-- LDACQ and STREL (12 R240): the load acquires at its scope, the store releases first and waits for OUTST to be 0; at
CLUSTER scope or wider both are performed at the home. -/
def Sys2Proof.Says.AcquireReleaseAccesses : Prop :=
  ∀ (s : State) (c : Scope) (i : BitVec 13) (d a : GReg),
    let x := s.g a + i.signExtend 64
    (∀ off, s.ReachesOwn x 8 off → s.here.spad.bad off 8 = false →
      ∃ t, exec (.ldacq c i d a) s = .next t ∧ s.OnlyFibreL1 t ∧ t.g d = w64 (s.ownBytes off 8) ∧
        (∀ r, r ≠ d → t.g r = s.g r) ∧ s.PastWord t 4 4) ∧
    (∀ p, s.ReachesFar x 8 p →
      s.AsksAndWaits (exec (.ldacq c i d a) s) x p (.load .d c.wide) (some d) .d (some c) 4) ∧
    (∀ off, s.ReachesOwn x 8 off → Memory.wf s.here.spad.bytes = true → (c = .fibre ∨ s.fibre.body.outst = 0) →
      ∃ t, exec (.strel c i d a) s = .next t ∧ (s.relL1 c).StoredOwn t off 8 (s.g d) ∧ s.WroteNone t 4 1) ∧
    (∀ p, s.ReachesFar x 8 p → (c = .fibre ∨ s.fibre.body.outst = 0) → s.fibre.body.outst < 64 →
      ∃ t, exec (.strel c i d a) s = .next t ∧ (s.relL1 c).Asks t x p (.store 8 (s.g d) c.wide) true ∧
        t.fibre.body.outst = s.fibre.body.outst + 1 ∧ ∀ r, t.g r = s.g r) ∧
    ((∃ off, s.ReachesOwn x 8 off) ∨ (∃ p, s.ReachesFar x 8 p) → c ≠ .fibre → s.fibre.body.outst ≠ 0 →
      s.WaitsForPosted (.strel c i d a)) ∧
    (s.resolveHere x 8 = none ∨ s.ReachesFarArea x 8 → s.TrapsWith (.ldacq c i d a) cAPERTURE x ∧ s.TrapsWith (.strel c i d a) cAPERTURE x)

/-! ## Full/empty words (12 R242, R243) -/

/-- The word of `off` has the tag, in the scratchpad of the cell that acts. -/
def Sys2Proof.Machine.State.tagOf (s : State) (off : Nat) : Bool := s.here.spad.full.contains (off / 8)

/-- The sectors of the L1 after its clean bytes are invalidated: a sector with a dirty byte keeps its dirty bytes (that the
clean bytes beside them go as well is the model's reading, log 16). -/
def Sys2Proof.Machine.cleanDropped (l : List L1Sector) : List L1Sector :=
  (l.map (fun x => { x with valid := x.dirty })).filter (fun x => x.dirty != 0)

/-- What a full/empty word changes: the acting fibre and, in the own scratchpad, the word at `off` and its tag. An L1 of the
cell changes only where a release from beyond the cell has reached the word or an acquire is owed (17 R346). -/
structure Sys2Proof.Machine.State.FeChanged (s t : State) (off : Nat) : Prop where
  rest : t = { s with cells := t.cells, nextId := t.nextId }
  cells : ∀ c, c ≠ s.cur.cell → t.cell c = { s.cell c with l1 := (t.cell c).l1 }
  here : t.here = { s.here with spad := t.here.spad, fibres := t.here.fibres, l1 := t.here.l1, feWide := t.here.feWide,
                                acqDue := false }
  quiet : s.here.feWide.contains (off / 8) = false → s.here.acqDue = false →
    t.here.feWide = s.here.feWide ∧ ∀ c, (t.cell c).l1 = (s.cell c).l1
  slots : ∀ k, k ≠ s.cur.slot → t.here.fibre k = s.here.fibre k
  bytes : ∀ b, b < off ∨ off + 8 ≤ b → Mem.read t.here.spad.bytes b = Mem.read s.here.spad.bytes b
  poison : t.here.spad.poison = s.here.spad.poison
  tags : ∀ w, w ≠ off / 8 → t.here.spad.full.contains w = s.here.spad.full.contains w

/-- The L1s of the cell that acts have acquired: their clean bytes are gone. -/
def Sys2Proof.Machine.State.DroppedClean (s t : State) : Prop :=
  ∀ c ∈ s.l1Cells s.cur.cell, (t.cell c).l1 = cleanDropped (s.cell c).l1

/-- Full/empty words in the own scratchpad where no other request waits (12 R242): what each writes, what it makes of the
tag, and when TAKE, PEEK and PUT wait; a TAKE or PEEK of a word that another cell has PUT acquires (17 R346). -/
def Sys2Proof.Says.FullEmptyWords : Prop :=
  ∀ (s : State) (i : BitVec 13) (d a : GReg) (off : Nat),
    let x := s.g a + i.signExtend 64
    let v := w64 (s.ownBytes off 8)
    s.ReachesOwn x 8 off → s.here.fe = [] → s.here.spad.bad off 8 = false → Memory.wf s.here.spad.bytes = true →
    s.here.spad.full.Pairwise (· < ·) →
    (s.tagOf off = true →
      (∃ t, exec (.ldfeTake i d a) s = .next t ∧ s.FeChanged t off ∧ t.g d = v ∧ t.tagOf off = false ∧
        t.ownBytes off 8 = s.ownBytes off 8 ∧ (∀ r, r ≠ d → t.g r = s.g r) ∧ s.PastWord t 4 4 ∧
        (s.here.feWide.contains (off / 8) = true → s.DroppedClean t)) ∧
      (∃ t, exec (.ldfePeek i d a) s = .next t ∧ s.FeChanged t off ∧ t.g d = v ∧ t.here.spad = s.here.spad ∧
        (∀ r, r ≠ d → t.g r = s.g r) ∧ s.PastWord t 4 4 ∧
        (s.here.feWide.contains (off / 8) = true → s.DroppedClean t)) ∧
      (s.fibre.body.outst = 0 → ∃ t, exec (.stfePut i d a) s = .next t ∧ t.here.spad = s.here.spad ∧
        t.fibre.body = s.fibre.body ∧ ∃ id, t.fibre.status = .parked (.fe id (s.cvtgForm x) none none 4) s.now)) ∧
    (s.tagOf off = false →
      (∃ t id, exec (.ldfeTake i d a) s = .next t ∧ t.here.spad = s.here.spad ∧ t.fibre.body = s.fibre.body ∧
        t.fibre.status = .parked (.fe id (s.cvtgForm x) (some d) (some .cell) 4) s.now) ∧
      (∃ t id, exec (.ldfePeek i d a) s = .next t ∧ t.here.spad = s.here.spad ∧ t.fibre.body = s.fibre.body ∧
        t.fibre.status = .parked (.fe id (s.cvtgForm x) (some d) (some .cell) 4) s.now) ∧
      (s.fibre.body.outst = 0 → ∃ t, exec (.stfePut i d a) s = .next t ∧ (s.relL1 .cell).FeChanged t off ∧
        t.tagOf off = true ∧ t.ownBytes off 8 = (s.g d).toNat ∧ s.WroteNone t 4 4)) ∧
    (∃ t, exec (.ldfeTag i d a) s = .next t ∧ s.FeChanged t off ∧ t.here.spad = s.here.spad ∧
      t.g d = (if s.tagOf off then 1 else 0) ∧ (∀ r, r ≠ d → t.g r = s.g r) ∧ s.PastWord t 4 4) ∧
    (∃ t, exec (.stfeForce i d a) s = .next t ∧ s.FeChanged t off ∧ t.tagOf off = true ∧
      t.ownBytes off 8 = (s.g d).toNat ∧ s.WroteNone t 4 1) ∧
    (∃ t, exec (.stfeClear i a) s = .next t ∧ s.FeChanged t off ∧ t.tagOf off = false ∧
      t.ownBytes off 8 = s.ownBytes off 8 ∧ s.WroteNone t 4 1)

/-- Full/empty words of another cell's scratchpad or another device's (12 R236, R242): LDFE and PUT ask and wait, FORCE
and CLEAR post; an address that is no scratchpad's traps. -/
def Sys2Proof.Says.FullEmptyElsewhere : Prop :=
  ∀ (s : State) (i : BitVec 13) (d a : GReg),
    let x := s.g a + i.signExtend 64
    let waits (w : Instr) (f : FeFn) (v : Word) (rd : Option GReg) (acq : Option Scope) (r : State) (p : MemPlace) : Prop :=
      ∃ t, exec w s = .next t ∧ r.Asks t x p (.fe f v) false ∧ t.fibre.body = s.fibre.body ∧
        t.fibre.status = .parked (.fe s.nextId (s.cvtgForm x) rd acq 4) s.now
    (∀ p, s.ReachesFar x 8 p → (∀ va, p ≠ .global va) → (∀ k y, p = .device k y → x.extractLsb' 60 4 = 0xE) →
      waits (.ldfeTake i d a) .take 0 (some d) (some .device) s p ∧
      waits (.ldfePeek i d a) .peek 0 (some d) (some .device) s p ∧
      waits (.ldfeTag i d a) .tag 0 (some d) none s p ∧
      (s.fibre.body.outst = 0 → waits (.stfePut i d a) .put (s.g d) none none (s.relL1 .device) p) ∧
      s.Posts (exec (.stfeForce i d a) s) x p (.fe .force (s.g d)) 4 ∧
      s.Posts (exec (.stfeClear i a) s) x p (.fe .clear 0) 4) ∧
    (∀ w ∈ [Instr.ldfeTake i d a, .ldfePeek i d a, .ldfeTag i d a, .stfePut i d a, .stfeForce i d a, .stfeClear i a],
      (s.resolveHere x 8 = none → s.TrapsWith w cAPERTURE x) ∧
      (∀ va, s.resolveHere x 8 = some (.global va) → s.TrapsWith w cAPERTURE x) ∧
      (∀ c off, s.resolveHere x 8 = some (.spad c off) → off + 8 ≤ 0xF0000 → x.toNat % 8 ≠ 0 →
        s.TrapsWith w cALIGN x))

/-! ## Atomics (12 R244-R246) -/

/-- What an atomic of the own scratchpad leaves as it was: all but the acting fibre, the L1 caches and the bytes it writes. -/
structure Sys2Proof.Machine.State.AmoChanged (r t : State) (off n : Nat) : Prop where
  rest : t = { r with cells := t.cells }
  cells : ∀ c, c ≠ r.cur.cell → t.cell c = { r.cell c with l1 := (t.cell c).l1 }
  here : t.here = { r.here with spad := t.here.spad, fibres := t.here.fibres, l1 := t.here.l1 }
  slots : ∀ k, k ≠ r.cur.slot → t.here.fibre k = r.here.fibre k
  tags : t.here.spad.full = r.here.spad.full
  poison : t.here.spad.poison = r.here.spad.poison
  bytes : ∀ b, b < off ∨ off + n ≤ b → Mem.read t.here.spad.bytes b = Mem.read r.here.spad.bytes b

/-- An atomic whose function gives `new` of the old value and the operand, on words of its size: in the own scratchpad at
once, with the old value in rd unless it is posted; elsewhere a request that is waited for or posted; a release first; the
traps (12 R236, R244, R245). -/
def Sys2Proof.Machine.State.IsAtomic (s : State) (w : Instr) (f : AmoFn) (posted : Bool) (z : AmoSize) (o : Order) (c : Scope)
    (d : GReg) (x y e : Word) (new : (n : Nat) → BitVec n → BitVec n → BitVec n) : Prop :=
  let n := z.bytes
  let r := if o.releases then s.relL1 c else s
  let ready := o.releases = false ∨ c = .fibre ∨ s.fibre.body.outst = 0
  (∀ off, s.ReachesOwn x n off → ready → s.here.spad.bad off n = false → Memory.wf s.here.spad.bytes = true →
    ∃ t, exec w s = .next t ∧ r.AmoChanged t off n ∧
      t.ownBytes off n = (new (8 * n) (BitVec.ofNat (8 * n) (s.ownBytes off n)) (BitVec.ofNat (8 * n) y.toNat)).toNat ∧
      (o.acquires = false → ∀ k, (t.cell k).l1 = (r.cell k).l1) ∧
      (posted = true → s.WroteNone t 4 1) ∧
      (posted = false → t.g d = w64 (s.ownBytes off n) ∧ (∀ q, q ≠ d → t.g q = s.g q) ∧ s.PastWord t 4 4)) ∧
  (∀ off, s.ReachesOwn x n off → ready → s.here.spad.bad off n = true → exec w s = .next (r.trap cPOISON x)) ∧
  (∀ p, s.ReachesFar x n p → ready →
    (posted = true → r.Posts (exec w s) x p (.amo f z y e) 4) ∧
    (posted = false → r.AsksAndWaits (exec w s) x p (.amo f z y e) (some d) (if z = .w32 then .wu else .d)
      (if o.acquires then some c else none) 4)) ∧
  ((∃ off, s.ReachesOwn x n off) ∨ (∃ p, s.ReachesFar x n p) → ¬ready → s.WaitsForPosted w) ∧
  (s.resolveHere x n = none → s.TrapsWith w cAPERTURE x) ∧
  (∀ k off, s.resolveHere x n = some (.spad k off) → 0xF0000 < off + n → s.TrapsWith w cAPERTURE x) ∧
  (∀ k off, s.resolveHere x n = some (.spad k off) → off + n ≤ 0xF0000 → x.toNat % n ≠ 0 → s.TrapsWith w cALIGN x)

/-- The atomics of 12 Table 12.3. The sum of AFADD is the model's F32 addition, which `FloatRounding` is about. -/
def Sys2Proof.Says.Atomics : Prop :=
  ∀ (s : State) (p : Bool) (z : AmoSize) (o : Order) (c : Scope) (d a b : GReg),
    let x := s.g a
    let y := s.g b
    amoOk p o d = true →
    s.IsAtomic (.aadd p z o c d a b) .add p z o c d x y 0 (fun _ u v => u + v) ∧
    s.IsAtomic (.amin p z o c d a b) .min p z o c d x y 0 (fun _ u v => if v.toInt < u.toInt then v else u) ∧
    s.IsAtomic (.amax p z o c d a b) .max p z o c d x y 0 (fun _ u v => if u.toInt < v.toInt then v else u) ∧
    s.IsAtomic (.aminu p z o c d a b) .minu p z o c d x y 0 (fun _ u v => if v.toNat < u.toNat then v else u) ∧
    s.IsAtomic (.amaxu p z o c d a b) .maxu p z o c d x y 0 (fun _ u v => if u.toNat < v.toNat then v else u) ∧
    s.IsAtomic (.aand p z o c d a b) .and p z o c d x y 0 (fun _ u v => u &&& v) ∧
    s.IsAtomic (.aor p z o c d a b) .or p z o c d x y 0 (fun _ u v => u ||| v) ∧
    s.IsAtomic (.axor p z o c d a b) .xor p z o c d x y 0 (fun _ u v => u ^^^ v) ∧
    s.IsAtomic (.aswp p z o c d a b) .swp p z o c d x y 0 (fun _ _ v => v) ∧
    (z = .w32 → s.IsAtomic (.afadd p z o c d a b) .fadd p z o c d x y 0
      (fun n u v => (f32Add (u.setWidth 32) (v.setWidth 32)).setWidth n))

/-- ACAS (12 R246): the swap happens when memory equals the expected value, rd at issue, on the low bits of its size; rd
receives the old value either way. -/
def Sys2Proof.Says.CompareAndSwap : Prop :=
  ∀ (s : State) (z : AmoSize) (o : Order) (c : Scope) (d a b : GReg),
    s.IsAtomic (.acas z o c d a b) .cas false z o c d (s.g a) (s.g b) (s.g d)
      (fun n u v => if u = BitVec.ofNat n (s.g d).toNat then v else u)

/-! ## Active messages and delegation (12 R247-R252) -/

/-- The message that AMSEND or DELEG sends: the sender's g0-g3, the target as written, the next request number. -/
def Sys2Proof.Machine.State.messageTo (r : State) (x pc : Word) (dev cell : Nat) (reply deleg : Bool) (c : Scope) : AmMsg :=
  { ctx := r.ctxOf r.cur.cell, who := r.asker, id := r.here.reqseq, target := x, toDev := dev, toCell := cell, pc := pc,
    a0 := r.g 0, a1 := r.g 1, a2 := r.g 2, a3 := r.g 3,
    sender := w64 (r.device * 2 ^ 32 + (r.here.x + r.here.y * r.myLaunch.w) * 2 ^ 16 + r.cur.slot),
    reply := reply, deleg := deleg, scope := c, buffered := false }

/-- What a word answers: from `r`, a request for an entry of the target's queue is on its way, in the network or to
another device, the fibre waits as `p` says, and nothing else changes. -/
def Sys2Proof.Machine.State.Reserves (r : State) (o : Host.Outcome State Fault Refusal) (m : AmMsg) (p : Park) : Prop :=
  ∃ t, o = .next t ∧
  (m.toDev = r.device →
    t.net = r.net ++ [stagedMsg (r.nextId + 1) (.cell r.cur.cell) (.cell m.toCell) .request (.amReserve m)] ∧
    t = { r with cells := t.cells, net := t.net, nextId := r.nextId + 2 }) ∧
  (m.toDev ≠ r.device →
    r.SendsFrame t m.toDev .request (.amReserve m) ∧
    t = { r with cells := t.cells, fabricOut := t.fabricOut, fabricKept := t.fabricKept, fabricSeqOut := t.fabricSeqOut,
                 nextId := r.nextId + 1 }) ∧
  (∀ c, c ≠ r.cur.cell → t.cell c = r.cell c) ∧
  t.here = { r.here with reqseq := r.here.reqseq + 1, nextOrder := r.here.nextOrder + 1, fibres := t.here.fibres } ∧
  (∀ n, n ≠ r.cur.slot → t.here.fibre n = r.here.fibre n) ∧
  t.fibre.body = r.fibre.body ∧ t.fibre.status = .parked p r.now

/-- The address names a cell, here or on another device of a spread launch (12 R247). -/
def Sys2Proof.Machine.State.NamesCell (s : State) (x : Word) (dev cell : Nat) : Prop :=
  (dev = s.device ∧ ∃ off, s.resolveHere x 1 = some (.spad cell off)) ∨
  (dev ≠ s.device ∧ cell = 0 ∧ x.extractLsb' 60 4 = 0xE ∧ s.resolveHere x 1 = some (.remote dev))

/-- AMSEND and DELEG (12 R247, R252) outside a handler: the traps in their order, the release, and the request to the
target's queue. -/
def Sys2Proof.Says.MessagesSent : Prop :=
  ∀ (s : State) (o : Order) (c : Scope) (d a b : GReg), o.acquires = false → s.fibre.body.kind.isHandler = false →
    let x := s.g a
    let pc := s.g b
    let r := if o.releases then s.relL1 c else s
    let plain : Instr := .amsend false o c 0 a b
    let asks : Instr := .amsend true o c d a b
    let deleg : Instr := .deleg o c d a b
    let ready := o.releases = false ∨ c = .fibre ∨ s.fibre.body.outst = 0
    let traps (cls : Nat) (y : Word) : Prop := s.TrapsWith plain cls y ∧ s.TrapsWith asks cls y ∧ s.TrapsWith deleg cls y
    (s.resolveHere x 1 = none ∨ (∃ va, s.resolveHere x 1 = some (.global va)) → traps cAPERTURE x) ∧
    (∀ dev cell, s.NamesCell x dev cell →
      (pc.extractLsb' 60 4 ≠ 0 → traps cAPERTURE pc) ∧
      (pc.extractLsb' 60 4 = 0 → pc.extractLsb' 0 2 ≠ 0 → traps cALIGN pc) ∧
      (pc.extractLsb' 60 4 = 0 → pc.extractLsb' 0 2 = 0 → ready →
        r.Reserves (exec plain s) (r.messageTo x pc dev cell false false c) (.amAccept s.nextId (s.cvtgForm x) 4) ∧
        r.Reserves (exec asks s) (r.messageTo x pc dev cell true false c)
          (.amReply s.nextId (s.cvtgForm x) d c false false 4) ∧
        r.Reserves (exec deleg s) (r.messageTo x pc dev cell true true c)
          (.amReply s.nextId (s.cvtgForm x) d c true false 4)) ∧
      (pc.extractLsb' 60 4 = 0 → pc.extractLsb' 0 2 = 0 → ¬ready →
        s.WaitsForPosted plain ∧ s.WaitsForPosted asks ∧ s.WaitsForPosted deleg))

/-- AMSEND in a handler (12 R250, 18 R364): the message is kept, up to 8; the ninth aborts the handler; a reply or a
delegation is ILLEGAL. -/
def Sys2Proof.Says.HandlerSends : Prop :=
  ∀ (s : State) (o : Order) (c : Scope) (d a b : GReg) (dev cell : Nat),
    let x := s.g a
    let pc := s.g b
    let f := s.fibre
    let plain : Instr := .amsend false o c 0 a b
    f.body.kind.isHandler = true →
      s.TrapsWith (.amsend true o c d a b) cILLEGAL f.body.pc ∧ s.TrapsWith (.deleg o c d a b) cILLEGAL f.body.pc ∧
      (s.NamesCell x dev cell → pc.extractLsb' 60 4 = 0 → pc.extractLsb' 0 2 = 0 →
        (f.body.sends.length < 8 → ∃ t, exec plain s = .next t ∧ s.OnlyFibre t ∧
          t.fibre = { f with
            body := { f.body.past 4 with
              sends := f.body.sends ++ [{ target := x, pc := pc, a0 := s.g 0, a1 := s.g 1, a2 := s.g 2, a3 := s.g 3,
                                          order := o, scope := c }] }
            status := .issued (s.now + 1)
            parkSeq := none }) ∧
        (8 ≤ f.body.sends.length →
          exec plain s = .next (s.handlerAbort s.cur.cell s.cur.slot cHANDLER f.body.pc f.body.pc)))

/-- AMREPLY (12 R251): ILLEGAL outside a handler or routine, without a reply owed, and a second time; a handler's reply is
kept until it ends, a routine's leaves at once for the fibre that waits. -/
def Sys2Proof.Says.Replies : Prop :=
  ∀ (s : State) (a : GReg) (e : Nat) (m : AmEntry),
    let f := s.fibre.body
    let illegal := s.TrapsWith (.amreply a) cILLEGAL f.pc
    (f.kind.entry? = none → illegal) ∧
    (f.kind.entry? = some e → s.here.am.find e = some m → m.reply = false ∨ f.replied = true → illegal) ∧
    (f.kind = .handler e → s.here.am.find e = some m → m.reply = true → f.replied = false →
      m.scope = .fibre ∨ f.outst = 0 → ∃ t, exec (.amreply a) s = .next t ∧ (s.relL1 m.scope).OnlyFibre t ∧
        t.fibre.body.replied = true ∧ t.fibre.body.replyBuf = some (s.g a) ∧ ∀ r, t.g r = s.g r) ∧
    ((∃ k, f.kind = .handler k ∨ f.kind = .server k) → f.kind.entry? = some e → s.here.am.find e = some m →
      m.reply = true → f.replied = false → m.scope ≠ .fibre → f.outst ≠ 0 → s.WaitsForPosted (.amreply a)) ∧
    (f.kind = .server e → s.here.am.find e = some m → m.reply = true → f.replied = false →
      m.scope = .fibre ∨ f.outst = 0 → m.from_.dev = s.device → ∃ t, exec (.amreply a) s = .next t ∧
        t.fibre.body.replied = true ∧ (∀ r, t.g r = s.g r) ∧ t.mem = (s.relL1 m.scope).mem ∧
        t.net = s.net ++ [stagedMsg s.nextId (.cell s.cur.cell) (.cell m.from_.cell) .response (.amReply m.from_ (s.g a))] ∧
        ∀ c, c ≠ s.cur.cell → t.cell c = (s.relL1 m.scope).cell c) ∧
    (f.kind = .server e → s.here.am.find e = some m → m.reply = true → f.replied = false →
      m.scope = .fibre ∨ f.outst = 0 → m.from_.dev ≠ s.device → ∃ t, exec (.amreply a) s = .next t ∧
        t.fibre.body.replied = true ∧ (∀ r, t.g r = s.g r) ∧ t.net = s.net ∧
        s.SendsFrame t m.from_.dev .response (.amReply m.from_ (s.g a)))

/-! ## Fences, cache operations and address conversion (12 R253-R257) -/

/-- The sectors of the L1s that a cell's fences and cache operations act on (11 R229). -/
def Sys2Proof.Machine.State.sectorsOf (s : State) (c : Nat) : List L1Sector := (s.l1Cells c).flatMap (fun k => (s.cell k).l1)

/-- `t` has, in device memory, the dirty bytes of those sectors that `want` names, and every other byte as in `s`
(11 R228). -/
def Sys2Proof.Machine.State.WroteBack (s t : State) (want : Nat → Bool) : Prop :=
  (∀ x ∈ s.sectorsOf s.cur.cell, want x.va = true → ∀ i, i < 64 → x.dirty.getLsbD i = true →
    Mem.read t.mem (64 * x.pa + i) = x.data.extractLsb' (8 * i) 8) ∧
  (∀ b, (∀ x ∈ s.sectorsOf s.cur.cell, want x.va = true → b / 64 = x.pa → x.dirty.getLsbD (b % 64) = false) →
    Mem.read t.mem b = Mem.read s.mem b)

/-- `t` differs from `s` in device memory, the L1s of the acting cell's fences and the acting fibre; in these L1s `f` has
been applied. -/
def Sys2Proof.Machine.State.OnlyMemL1 (s t : State) (f : List L1Sector → List L1Sector) : Prop :=
  t = { s with cells := t.cells, mem := t.mem, memPoison := t.memPoison, authors := t.authors } ∧
  (∀ c, c ≠ s.cur.cell → t.cell c = { s.cell c with l1 := (t.cell c).l1 }) ∧
  (∀ c, (t.cell c).l1 = if (s.l1Cells s.cur.cell).contains c then f (s.cell c).l1 else (s.cell c).l1) ∧
  t.here = { s.here with l1 := t.here.l1, fibres := t.here.fibres } ∧
  (∀ n, n ≠ s.cur.slot → t.here.fibre n = s.here.fibre n)

/-- FENCE in its four kinds (12 R253, R254): ACQ invalidates what is clean at the wider L1 scope, REL waits for OUTST = 0
and writes back what is dirty, AR and SC do both, at a narrower scope the L1 is left alone, and at FIBRE scope nothing
happens. -/
def Sys2Proof.Says.Fences : Prop :=
  ∀ (s : State) (c : Scope), s.MemWf → (s.sectorsOf s.cur.cell).Pairwise (fun x y => x.pa ≠ y.pa) →
    let wide := c ≠ .fibre ∧ c ≠ .cell ∧ (c = .cluster → (s.l1Cells s.cur.cell).length = 1)
    (∃ t, exec (.fenceAcq c) s = .next t ∧ s.WroteNone t 4 1 ∧ t.mem = s.mem ∧
      (wide → s.OnlyMemL1 t cleanDropped) ∧ (¬wide → s.OnlyFibre t)) ∧
    (c = .fibre ∨ s.fibre.body.outst = 0 →
      (∃ t, exec (.fenceRel c) s = .next t ∧ s.WroteNone t 4 1 ∧ (¬wide → s.OnlyFibre t) ∧
        (wide → s.WroteBack t (fun _ => true) ∧ s.OnlyMemL1 t (fun l => l.map (fun x => { x with dirty := 0 })))) ∧
      (∃ t, exec (.fenceAr c) s = .next t ∧ exec (.fenceSc c) s = .next t ∧ s.WroteNone t 4 1 ∧
        (¬wide → s.OnlyFibre t) ∧ (wide → s.WroteBack t (fun _ => true) ∧ s.OnlyMemL1 t (fun _ => [])))) ∧
    (c ≠ .fibre → s.fibre.body.outst ≠ 0 →
      s.WaitsForPosted (.fenceRel c) ∧ s.WaitsForPosted (.fenceAr c) ∧ s.WaitsForPosted (.fenceSc c))

/-- `t` differs from `s` in the acting fibre and in what fills of sectors that `want` names do: a sector of an L1 is as it
was, or it is one of these, held whole, at the physical sector where it was held before or that its address leads to, each
byte as memory or an L1 had it; memory changes only where room was made by writing a dirty sector back. -/
def Sys2Proof.Machine.State.Prefetched (s t : State) (want : Nat → Bool) : Prop :=
  t = { s with cells := t.cells, mem := t.mem, memPoison := t.memPoison, authors := t.authors } ∧
  (∀ c, c ≠ s.cur.cell → t.cell c = { s.cell c with l1 := (t.cell c).l1 }) ∧
  t.here = { s.here with l1 := t.here.l1, fibres := t.here.fibres } ∧
  (∀ n, n ≠ s.cur.slot → t.here.fibre n = s.here.fibre n) ∧
  (∀ c y, y ∈ (t.cell c).l1 → y ∈ (s.cell c).l1 ∨ (want y.va = true ∧ y.valid = BitVec.allOnes 64 ∧
    ((∃ x ∈ s.sectorsOf s.cur.cell, x.va = y.va ∧ x.pa = y.pa) ∨
      s.translate s.myLaunch.job (64 * y.va) .read = .pa (64 * y.pa)) ∧
    ∀ i, i < 64 → y.data.extractLsb' (8 * i) 8 = Mem.read s.mem (64 * y.pa + i) ∨
      ∃ x ∈ s.sectorsOf s.cur.cell, x.pa = y.pa ∧ (x.valid.getLsbD i = true ∨ x.dirty.getLsbD i = true) ∧
        y.data.extractLsb' (8 * i) 8 = x.data.extractLsb' (8 * i) 8)) ∧
  (∀ b, (∀ x ∈ s.sectorsOf s.cur.cell, b / 64 = x.pa → x.dirty.getLsbD (b % 64) = false) →
    Mem.read t.mem b = Mem.read s.mem b)

/-- CFLUSH, CINV and PREF (12 R257), on a GLOBAL or PRIVATE range of `n` bytes whose GLOBAL address is `va`: the sectors
that hold a byte of the range, and no others. A count of 0 and a range of scratchpads do nothing; EVENT and unassigned
apertures trap (that they do so under a count of 0 as well is the model's reading, log 20). -/
def Sys2Proof.Says.CacheOperations : Prop :=
  ∀ (s : State) (a b : GReg) (va : Nat), s.MemWf → (s.sectorsOf s.cur.cell).Pairwise (fun x y => x.pa ≠ y.pa) →
    let x := s.g a
    let n := min (s.g b).toNat 1048576
    let want : Nat → Bool := fun v => va / 64 ≤ v && v ≤ (va + n - 1) / 64
    (0 < n → x.extractLsb' 60 4 = 0 ∨ x.extractLsb' 60 4 = 0xB → s.resolveHere x n = some (.global va) →
      (∃ t, exec (.cflush a b) s = .next t ∧ s.WroteNone t 4 1 ∧ s.WroteBack t want ∧
        s.OnlyMemL1 t (fun l => l.map (fun y => if want y.va then { y with dirty := 0 } else y))) ∧
      (∃ t, exec (.cinv a b) s = .next t ∧ s.WroteNone t 4 1 ∧ s.WroteBack t want ∧
        s.OnlyMemL1 t (fun l => l.filter (fun y => !want y.va))) ∧
      (∃ t, exec (.pref a b) s = .next t ∧ s.WroteNone t 4 1 ∧ s.Prefetched t want ∧
        (va / 64 = (va + n - 1) / 64 → (∃ p, s.translate s.myLaunch.job (64 * (va / 64)) .read = .pa p) →
          ∃ y ∈ (t.cell (s.l1Owner s.cur.cell va)).l1, y.va = va / 64 ∧ y.valid = BitVec.allOnes 64))) ∧
    (x.extractLsb' 60 4 = 0xA ∨ x.extractLsb' 60 4 = 0 → x.extractLsb' 20 40 = 0 → n = 0 ∨ x.extractLsb' 60 4 = 0xA →
      s.OnlyGoesOn (.cflush a b) 4 1 ∧ s.OnlyGoesOn (.cinv a b) 4 1 ∧ s.OnlyGoesOn (.pref a b) 4 1) ∧
    (x.extractLsb' 60 4 = 0xC ∨ x.extractLsb' 60 4 = 0xF →
      s.TrapsWith (.cflush a b) cAPERTURE x ∧ s.TrapsWith (.cinv a b) cAPERTURE x ∧ s.TrapsWith (.pref a b) cAPERTURE x)

/-- CVTG and APT (12 R255, R256, Table 12.6). -/
def Sys2Proof.Says.AddressConversion : Prop :=
  ∀ (s : State) (d a : GReg),
    let x := s.g a
    let code := (x.extractLsb' 60 4).toNat
    let own := w64 (0x8000000000000000 + s.here.idx s.myLaunch * 2 ^ 20) + (x.extractLsb' 0 20).setWidth 64
    (s.resolveHere x 1 = none → s.TrapsWith (.cvtg d a) cAPERTURE x) ∧
    (code = 0xC → s.TrapsWith (.cvtg d a) cAPERTURE x) ∧
    (∀ l, s.resolveHere x 1 = some l → code ∈ [0x0, 0x1, 0x8, 0xE] → s.Writes (.cvtg d a) d x 4 1) ∧
    (∀ l, s.resolveHere x 1 = some l → code = 0xA → s.Writes (.cvtg d a) d own 4 1) ∧
    (∀ va, s.resolveHere x 1 = some (.global va) → code = 0xB → s.Writes (.cvtg d a) d (w64 va) 4 1) ∧
    (∀ c off, s.resolveHere x 1 = some (.spad c off) → code ∈ [0x9, 0xD] →
      s.Writes (.cvtg d a) d (w64 (0x8000000000000000 + (s.cell c).idx s.myLaunch * 2 ^ 20 + off)) 4 1) ∧
    (s.device < 4096 → (∀ c, (s.cell c).idx s.myLaunch < 1024) → ∃ v : Word, s.Writes (.apt d a) d v 4 1 ∧
      (v.extractLsb' 0 4).toNat = code ∧ v.getLsbD 4 = (s.resolveHere x 1).isSome ∧
      v.getLsbD 5 = [0x8, 0x9, 0xA, 0xD, 0xE].contains code ∧
      (v.extractLsb' 8 8).toNat = 0 ∧ (v.extractLsb' 26 6).toNat = 0 ∧ (v.extractLsb' 44 20).toNat = 0 ∧
      (v.extractLsb' 32 12).toNat = (if code = 0x1 ∨ code = 0xE then (x.extractLsb' 48 12).toNat else s.device) ∧
      v.getLsbD 7 = ((s.resolveHere x 1).isSome && (v.extractLsb' 32 12).toNat == s.device) ∧
      (∀ c off, s.resolveHere x 1 = some (.spad c off) →
        (v.extractLsb' 16 10).toNat = (s.cell c).idx s.myLaunch ∧ v.getLsbD 6 = (c == s.cur.cell)) ∧
      ((∀ c off, s.resolveHere x 1 ≠ some (.spad c off)) → v.getLsbD 6 = false ∧
        (code ≠ 0xE → (v.extractLsb' 16 10).toNat = 0)))

/-! ## Counters (16 R320, R321; 05 R89) -/

/-- The acting cell with a counter set. -/
def Sys2Proof.Machine.State.withK (s : State) (k : KReg) (v : W32) : State := s.updHere (fun c => { c with k := c.k.set k v })

/-- The acting cell with a counter set by a fibre, which the tests at the end of the CCLK are to find (05 R89). -/
def Sys2Proof.Machine.State.withInc (s : State) (k : KReg) (v : W32) (sat : Bool) : State :=
  s.updHere (fun c => { c with k := c.k.set k v, acts := c.acts ++ [{ k := k, sat := sat, source := none }] })

/-- From `r`, a word of `len` bytes takes the trap of a class past the word, as the action of the class says (18 R355-R357,
R366). -/
def Sys2Proof.Machine.State.TrapsPast (r : State) (o : Host.Outcome State Fault Refusal) (cls : Nat) (detail : Word) (len : Nat) :
    Prop :=
  let act := fld r.myLaunch.actions (2 * cls + 1) (2 * cls)
  let b := r.fibre.body.past len
  r.fibre.body.kind = .task →
    (act = 1 → ∃ t, o = .next t ∧ r.EntersHandler t (w64 cls) detail b.pc r.exactStream b) ∧
    (act = 0 → ∃ t, o = .next t ∧ r.FailsLaunch t (r.recordOf (w64 cls) detail b.pc r.exactStream 0)) ∧
    (act = 2 → ∃ t, o = .next t ∧ r.OnlyFibre t ∧ r.WroteNone t len 1)

/-- A test of counter `k` passes with the new value `x`: the word goes on; where a release wider than the cell has reached
the counter since the last test, the L1s acquire (17 R346), and otherwise nothing else changes. -/
def Sys2Proof.Machine.State.PassesTest (s : State) (i : Instr) (k : KReg) (x : W32) (len : Nat) : Prop :=
  ∃ t, exec i s = .next t ∧ s.WroteNone t len 1 ∧ t.here.k = s.here.k.set k x ∧
    (s.here.kwide.getLsbD k.val = false → s.here.acqDue = false → (s.withK k x).OnlyFibre t) ∧
    (s.here.kwide.getLsbD k.val = true → s.DroppedClean t ∧ t.here.kwide.getLsbD k.val = false ∧ s.OnlyHereL1 t ∧
      t.here.spad = s.here.spad ∧ ∀ n, n ≠ s.cur.slot → t.here.fibre n = s.here.fibre n)

/-- KINC, KSET, KWAIT, KWAITN, KRD and the compact forms (16 R320, 06 Table 6.6): the new value, for the tests of the CCLK to
find, saturating with a COUNTER trap past the word, the wait below the amount, the release at CELL scope. -/
def Sys2Proof.Says.Counters : Prop :=
  ∀ (s : State) (k : KReg) (n : KAmt) (d : GReg),
    let v : W32 := match n with | .imm i => i.setWidth 32 | .reg a => (s.g a).setWidth 32
    let c := s.here.k[k]
    let adds (i : Instr) (x : W32) (len : Nat) : Prop :=
      ∃ t, exec i s = .next t ∧ (s.withInc k x false).OnlyFibre t ∧ s.WroteNone t len 1
    let waits (i : Instr) (m : W32) (take : Bool) (len : Nat) : Prop :=
      ∃ t, exec i s = .next t ∧ s.OnlyHere t ∧ t.here.k = s.here.k ∧ t.fibre.body = s.fibre.body ∧
        t.fibre.status = .parked (.counter k m take len) s.now
    (s.fibre.body.outst = 0 →
      (c.toNat + v.toNat < 2 ^ 32 → adds (.kinc k n) (c + v) 4) ∧
      (2 ^ 32 ≤ c.toNat + v.toNat →
        (s.withInc k (BitVec.allOnes 32) true).TrapsPast (exec (.kinc k n) s) cCOUNTER (w64 k.val) 4) ∧
      (c.toNat + 1 < 2 ^ 32 → adds (.kincC16 k) (c + 1) 2) ∧
      (c.toNat + 1 = 2 ^ 32 →
        (s.withInc k (BitVec.allOnes 32) true).TrapsPast (exec (.kincC16 k) s) cCOUNTER (w64 k.val) 2) ∧
      adds (.kset k n) v 4) ∧
    (s.fibre.body.outst ≠ 0 → s.WaitsForPosted (.kinc k n) ∧ s.WaitsForPosted (.kincC16 k) ∧ s.WaitsForPosted (.kset k n)) ∧
    (v.toNat ≤ c.toNat → s.PassesTest (.kwait k n) k (c - v) 4 ∧ s.PassesTest (.kwaitn k n) k c 4) ∧
    (c.toNat < v.toNat → waits (.kwait k n) v true 4 ∧ waits (.kwaitn k n) v false 4) ∧
    (c ≠ 0 → s.PassesTest (.kwaitC16 k) k (c - 1) 2) ∧ (c = 0 → waits (.kwaitC16 k) 1 true 2) ∧
    s.Writes (.krd k d) d (c.setWidth 64) 4 1

/-- Who gets a counter first (05 R89, 16 R321): once everything that reaches a counter in a CCLK has been applied, the M
stream is tested, then the V stream, then the fibre that waits, each against what those before it have left; what fails its
test waits on as it is, and KWAITN takes nothing. -/
def Sys2Proof.Says.CounterOrder : Prop :=
  ∀ (s : State) (cell : Nat) (k : KReg) (m w v : W32) (n : Nat) (f : Fibre) (take : Bool) (len since : Nat),
    let x := s.cell cell
    let q := (x.k[k]).toNat
    let q1 := if m.toNat ≤ q then q - m.toNat else q
    let q2 := if w.toNat ≤ q1 then q1 - w.toNat else q1
    let q3 := if v.toNat ≤ q2 ∧ take = true then q2 - v.toNat else q2
    x.acts ≠ [] → (∀ a ∈ x.acts, a.source = none) →
    x.m.eng.wait = some (.skwait k m 4) → x.v.eng.wait = some (.skwait k w 4) →
    x.fibres.find n = some f → f.status = .parked (.counter k v take len) since →
    (∀ e ∈ x.fibres, e.1 ≠ n → ∀ k' m tk l b, e.2.status ≠ .parked (.counter k' m tk l) b) →
    x.prismWait = [] → x.copy.slots = [] → AMap.wf x.fibres = true →
      let y := (s.testAll cell).cell cell
      y.acts = [] ∧ (y.k[k]).toNat = q3 ∧ (∀ j : KReg, j ≠ k → y.k[j] = x.k[j]) ∧
      (if m.toNat ≤ q then y.m.eng.wait = none ∧ y.m.eng.run = x.m.eng.run.map (·.past 4) else y.m.eng = x.m.eng) ∧
      (if w.toNat ≤ q1 then y.v.eng.wait = none ∧ y.v.eng.run = x.v.eng.run.map (·.past 4) else y.v.eng = x.v.eng) ∧
      y.fibre n =
        if v.toNat ≤ q2 then { f with body := f.body.past len, status := .ready, parkSeq := none } else f

/-! ## Channels (16 R324-R329) -/

/-- CSEND (16 R326): ILLEGAL at what is no sender, the checks of the offset, the release, the wait for allowance; then the
slot leaves with the bytes as they stand, for the place of its number, and the L1s acquire what the grant released (R328). -/
def Sys2Proof.Says.ChannelSends : Prop :=
  ∀ (s : State) (e : Fin 16) (a : GReg),
    let p := s.here.chans[e]
    let x := s.g a
    let r := s.relL1 .device
    (p.side ≠ .sender → s.TrapsWith (.csend e a) cILLEGAL (w64 e.val)) ∧
    (p.side = .sender → 0xF0000 < x.toNat + p.size → s.TrapsWith (.csend e a) cAPERTURE x) ∧
    (p.side = .sender → x.toNat + p.size ≤ 0xF0000 →
      (x.toNat % 16 ≠ 0 → s.TrapsWith (.csend e a) cALIGN x) ∧
      (x.toNat % 16 = 0 → s.fibre.body.outst ≠ 0 → s.WaitsForPosted (.csend e a)) ∧
      (x.toNat % 16 = 0 → s.fibre.body.outst = 0 → p.count = 0 →
        ∃ t, exec (.csend e a) s = .next t ∧ r.OnlyHere t ∧ t.here.chans = s.here.chans ∧ t.fibre.body = s.fibre.body ∧
          t.fibre.status = .parked (.retry (.allowance e) 5 (w64 e.val)) s.now) ∧
      (∀ i, x.toNat % 16 = 0 → s.fibre.body.outst = 0 → 0 < p.count → s.behind (.allowance e) = false → p.peer = some i →
        ∃ t data bad, exec (.csend e a) s = .next t ∧
          t.net = r.net ++ [stagedMsg r.nextId (.cell s.cur.cell) (.cell (s.myLaunch.physIdx i)) .bulk
            (.slot (s.myLaunch.physIdx i) p.peerEp data bad (p.seq % p.slots * p.size))] ∧
          data.length = p.size ∧ (∀ j (h : j < data.length), data[j] = Mem.read s.here.spad.bytes (x.toNat + j)) ∧
          (∀ j, bad.contains j = true ↔ 64 * j < p.size ∧ s.here.spad.bad (x.toNat + 64 * j) (min 64 (p.size - 64 * j)) = true) ∧
          t = { r with cells := t.cells, net := t.net, nextId := r.nextId + 1 } ∧
          (∀ c, c ≠ s.cur.cell → t.cell c = { r.cell c with l1 := (t.cell c).l1 }) ∧ r.DroppedClean t ∧ s.WroteNone t 4 1 ∧
          t.here = { r.here with fibres := t.here.fibres, l1 := t.here.l1,
                                 chans := s.here.chans.set e { p with count := p.count - 1, seq := p.seq + 1 } } ∧
          ∀ n, n ≠ s.cur.slot → t.here.fibre n = s.here.fibre n))

/-- CRECV, CGRANT and CALT (16 R327-R329): what each takes, gives back or answers, and when it traps or waits. -/
def Sys2Proof.Says.ChannelReceives : Prop :=
  ∀ (s : State) (e : Fin 16) (d a : GReg),
    let p := s.here.chans[e]
    let n := (s.g a).toNat
    let m := s.g a
    let r := s.relL1 .device
    let ready (i : Fin 16) : Prop :=
      ((s.here.chans[i]).side = .receiver ∧ 0 < (s.here.chans[i]).filled) ∨
      ((s.here.chans[i]).side = .sender ∧ s.here.waitingSends i < (s.here.chans[i]).count)
    let named := (List.range 16).filter (fun i => m.getLsbD i)
    (p.side ≠ .receiver → s.TrapsWith (.crecv e d) cILLEGAL (w64 e.val) ∧ s.TrapsWith (.cgrant e a) cILLEGAL (w64 e.val)) ∧
    (p.side = .receiver →
      (p.filled = 0 → ∃ t, exec (.crecv e d) s = .next t ∧ s.OnlyHere t ∧ t.here.chans = s.here.chans ∧
        t.fibre.body = s.fibre.body ∧ t.fibre.status = .parked (.retry (.filled e) 5 (w64 e.val)) s.now) ∧
      (0 < p.filled → s.behind (.filled e) = false →
        ∃ t, exec (.crecv e d) s = .next t ∧ s.OnlyHereL1 t ∧ s.DroppedClean t ∧ s.PastWord t 4 1 ∧
          t.g d = w64 (0xA000000000000000 + p.array + p.seq % p.slots * p.size) ∧ (∀ q, q ≠ d → t.g q = s.g q) ∧
          t.here = { s.here with
            fibres := t.here.fibres, k := t.here.k, l1 := t.here.l1,
            chans := s.here.chans.set e { p with seq := p.seq + 1, filled := p.filled - 1, count := p.count + 1 } } ∧
          (∀ q : KReg, t.here.k[q] = if q = p.k ∧ s.here.k[q] ≠ 0 then s.here.k[q] - 1 else s.here.k[q]) ∧
          ∀ q, q ≠ s.cur.slot → t.here.fibre q = s.here.fibre q) ∧
      (p.count < n → s.TrapsWith (.cgrant e a) cILLEGAL (w64 p.count)) ∧
      (n = 0 → s.OnlyGoesOn (.cgrant e a) 4 1) ∧
      (0 < n → n ≤ p.count → s.fibre.body.outst ≠ 0 → s.WaitsForPosted (.cgrant e a)) ∧
      (0 < n → n ≤ p.count → s.fibre.body.outst = 0 →
        ∃ t, exec (.cgrant e a) s = .next t ∧ s.WroteNone t 4 1 ∧
          t.net = r.net ++ [stagedMsg r.nextId (.cell s.cur.cell)
            (match p.peer with | some i => .cell (s.myLaunch.physIdx i) | none => .router (dieOf s.cur.cell)) .bulk
            (match p.peer with
              | some i => .grant (s.myLaunch.physIdx i) p.peerEp n
              | none => .grant (s.here.idx s.myLaunch) 0 n)] ∧
          t = { r with cells := t.cells, net := t.net, nextId := r.nextId + 1 } ∧
          (∀ c, c ≠ s.cur.cell → t.cell c = r.cell c) ∧
          t.here = { r.here with fibres := t.here.fibres, chans := s.here.chans.set e { p with count := p.count - n } })) ∧
    (m.extractLsb' 16 48 ≠ 0 ∨ named = [] ∨ 4 < named.length ∨ (∃ i : Fin 16, m.getLsbD i.val ∧
        (s.here.chans[i]).side = .unused) → s.TrapsWith (.calt d a) cILLEGAL m) ∧
    (m.extractLsb' 16 48 = 0 → named ≠ [] → named.length ≤ 4 →
      (∀ i : Fin 16, m.getLsbD i.val → (s.here.chans[i]).side ≠ .unused) →
      (∀ i : Fin 16, m.getLsbD i.val → ready i → (∀ j : Fin 16, j < i → m.getLsbD j.val → ¬ready j) →
        s.Writes (.calt d a) d (w64 i.val) 4 1) ∧
      ((∀ i : Fin 16, m.getLsbD i.val → ¬ready i) →
        ∃ t, exec (.calt d a) s = .next t ∧ s.OnlyHere t ∧ t.here.chans = s.here.chans ∧ t.fibre.body = s.fibre.body ∧
          t.fibre.status = .parked (.retry (.calt m) 6 m) s.now))

/-! ## The combining network (16 R336-R338) -/

/-- CINJ (16 R336, R337): COMBINE with code 2 when another launch of the job holds the group; the release; the wait with
four results not extracted; then the contribution joins the group under the cell's next operation number. -/
def Sys2Proof.Says.CombineInject : Prop :=
  ∀ (s : State) (o : CombOp) (g : Fin 16) (a : GReg),
    let l := s.myLaunch
    let key := 16 * l.job + g.val
    let m := (s.here.injected.find g.val).getD 0
    let x := (s.here.extracted.find g.val).getD 0
    let r := s.relL1 (if l.spread = [] then .device else .domain)
    let v := s.g a
    let i : Instr := .cinj o g a
    (∀ q, s.groups.find key = some q → some q.launch ≠ s.here.launch → m < 2 ^ 16 →
      s.TrapsWith i cCOMBINE (w64 (m * 256 + g.val * 16 + 2))) ∧
    ((∀ q, s.groups.find key = some q → some q.launch = s.here.launch) →
      (s.fibre.body.outst ≠ 0 → s.WaitsForPosted i) ∧
      (s.fibre.body.outst = 0 → x + 4 ≤ m → ∃ t, exec i s = .next t ∧ r.OnlyHere t ∧ t.here.injected = s.here.injected ∧
        t.groups = s.groups ∧ t.fibre.body = s.fibre.body ∧
        t.fibre.status = .parked (.retry (.inject g) 8 (w64 g.val)) s.now) ∧
      (∀ n, s.fibre.body.outst = 0 → m < x + 4 → s.behind (.inject g) = false → s.here.launch = some n →
        ∃ t c, exec i s = .next t ∧ s.WroteNone t 4 1 ∧
          t.groups.find key = some { launch := n, contribs := ((s.groups.find key).map (·.contribs)).getD [] ++ [c] } ∧
          (∀ q, q ≠ key → t.groups.find q = s.groups.find q) ∧
          c.m = m ∧ c.op = o ∧ c.who = s.contributor s.cur.cell ∧
          c.value = (if o = .barrier then 0 else if o = .fadd ∨ o = .fmin ∨ o = .fmax then (v.setWidth 32).setWidth 64 else v) ∧
          (l.key = none → t.fabricOut = r.fabricOut ∧ t.fabricKept = r.fabricKept ∧ t.fabricSeqOut = r.fabricSeqOut) ∧
          (∀ y, l.key = some y → ∀ dv ∈ l.spread, dv ≠ s.device →
            ∃ f ∈ t.fabricOut, f.dev = dv ∧ f.cls = .combine ∧ f.body = .contrib y g.val c) ∧
          t = { r with
            cells := t.cells, groups := t.groups, fabricOut := t.fabricOut, fabricKept := t.fabricKept,
            fabricSeqOut := t.fabricSeqOut } ∧
          (∀ k, k ≠ s.cur.cell → t.cell k = r.cell k) ∧
          t.here.injected.find g.val = some (m + 1) ∧ t.here = { r.here with injected := t.here.injected, fibres := t.here.fibres }))

/-- CEXT (16 R336-R338): the wait for the group's next result; the result in rd, with QOVF set by a QADD that saturated;
a COMBINE trap for a result that failed. -/
def Sys2Proof.Says.CombineExtract : Prop :=
  ∀ (s : State) (g : Fin 16) (d : GReg),
    let m := (s.here.extracted.find g.val).getD 0
    let i : Instr := .cext g d
    (s.here.result g.val m = none → ∃ t, exec i s = .next t ∧ s.OnlyHere t ∧ t.here.results = s.here.results ∧
      t.fibre.body = s.fibre.body ∧ t.fibre.status = .parked (.retry (.extract g) 8 (w64 g.val)) s.now) ∧
    (∀ x, s.here.result g.val m = some x → s.behind (.extract g) = false →
      (x.code ≠ 0 → x.code < 16 → m < 2 ^ 16 → s.TrapsWith i cCOMBINE (w64 (m * 256 + g.val * 16 + x.code))) ∧
      (x.code = 0 → ∃ t, exec i s = .next t ∧ s.OnlyHereL1 t ∧ t.g d = x.value ∧ (∀ q, q ≠ d → t.g q = s.g q) ∧
        s.PastWord t 4 1 ∧ t.here.extracted.find g.val = some (m + 1) ∧ t.here.results = s.here.results.erase x ∧
        t.here.qovf = (s.here.qovf || (decide (x.op = .qadd) && x.ovf)) ∧ t.here.k = s.here.k ∧ t.here.spad = s.here.spad ∧
        ∀ n, n ≠ s.cur.slot → t.here.fibre n = s.here.fibre n))

/-! ## Copy requests (13 R261-R271, R277, R279) -/

/-- `n` bytes of the descriptor that word 0 names, as a number. -/
def Sys2Proof.Machine.State.dscAt (s : State) (off o n : Nat) : Nat := s.ownBytes (off + o) n

/-- A generic address that a copy request may name (11 R219, R220, R226): a scratchpad below the hardware-managed area,
GLOBAL memory, or another device; PRIVATE and EVENT addresses name nothing. -/
def Sys2Proof.Machine.State.CopyMayName (s : State) (a : Word) : Prop :=
  (∃ c off, s.resolve s.cur.cell none a 1 = some (.spad c off) ∧ off < 0xF0000) ∨
  (∃ va, s.resolve s.cur.cell none a 1 = some (.global va)) ∨ ∃ d, s.resolve s.cur.cell none a 1 = some (.remote d)

/-- A HALO destination: a scratchpad through aperture 0x8, 0x9, 0xA, 0xD or 0xE (13 R267). -/
def Sys2Proof.Machine.State.HaloMayName (s : State) (a : Word) : Prop :=
  (∃ c off, s.resolve s.cur.cell none a 1 = some (.spad c off) ∧ off < 0xF0000) ∨
  (a.extractLsb' 60 4 = 0xE ∧ ∃ d, s.resolve s.cur.cell none a 1 = some (.remote d))

/-- The bytes of a descriptor from `o` up to `o + n` are zero. -/
def Sys2Proof.Machine.State.DscZero (s : State) (off o n : Nat) : Prop := s.dscAt off o n = 0

/-- The request in g0-g3 meets 13 Tables 13.1 to 13.6. -/
def Sys2Proof.Machine.State.CopyFits (s : State) : Prop :=
  let w := s.g 0
  let a := s.g 1
  let b := s.g 2
  let op := (w.extractLsb' 0 4).toNat
  let es := 2 ^ (w.extractLsb' 14 2).toNat
  let len := (w.extractLsb' 16 48).toNat
  let pc := ((s.g 3).extractLsb' 0 48).toNat
  let off := (w.extractLsb' 16 20).toNat
  let u := s.dscAt off
  let zero := s.DscZero off
  let within (x lo hi : Nat) : Prop := lo ≤ x ∧ x ≤ hi
  (w.extractLsb' 11 3).toNat ≤ 5 ∧ (if w.getLsbD 10 then pc % 4 = 0 else pc = 0) ∧
  (op = 0 ∨ op = 4 → len % es = 0) ∧
  (op ≠ 0 ∧ op ≠ 4 → len < 2 ^ 20 ∧ off % 64 = 0 ∧ off ≤ 0xEFFC0) ∧
  ((op = 0 ∧ a.toNat % es = 0 ∧ b.toNat % es = 0 ∧ s.CopyMayName a ∧ s.CopyMayName b) ∨
   (op = 4 ∧ b.toNat % es = 0 ∧ s.CopyMayName b) ∨
   ((op = 1 ∨ op = 2) ∧ a.toNat % es = 0 ∧ b.toNat % es = 0 ∧ s.CopyMayName a ∧ s.CopyMayName b ∧
     within (u 0 4) 1 1048576 ∧ u 0 4 % es = 0 ∧ within (u 4 4) 1 1048576 ∧ u 8 8 % es = 0 ∧ u 0x10 8 % es = 0 ∧
     (op = 1 → zero 0x18 4 ∧ zero 0x20 8 ∧ zero 0x28 8) ∧
     (op = 2 → within (u 0x18 4) 1 1048576 ∧ u 0x20 8 % es = 0 ∧ u 0x28 8 % es = 0) ∧ zero 0x1C 4 ∧ zero 0x30 16) ∨
   (op = 3 ∧ a.toNat % es = 0 ∧ b.toNat % es = 0 ∧ s.CopyMayName a ∧ s.CopyMayName b ∧
     within (u 0 2) 1 65535 ∧ within (u 2 2) 1 65535 ∧ within (u 4 2) 1 4096 ∧ zero 6 2 ∧ u 8 4 % es = 0 ∧
     u 0xC 4 % es = 0 ∧ within (u 0x14 2) 1 4096 ∧ within (u 0x16 2) 1 4096 ∧ u 0x14 2 * u 0x16 2 ≤ 65536 ∧ zero 0x1C 4 ∧
     u 4 2 * es ≤ u 0x20 4 ∧ u 0x20 4 % es = 0 ∧ zero 0x24 28) ∨
   (op = 5 ∧ a.toNat % es = 0 ∧ b.toNat % es = 0 ∧ s.CopyMayName a ∧ s.CopyMayName b ∧
     within (u 0 8) 1 (2 ^ 40) ∧ u 8 8 % 8 = 0 ∧ s.CopyMayName (w64 (u 8 8)) ∧ u 0x10 1 ≤ 1 ∧ zero 0x11 47) ∨
   (op = 6 ∧ a.toNat % es = 0 ∧ b = 0 ∧ s.CopyMayName a ∧
     within (u 0 8) 1 (2 ^ 48 - 1) ∧ (∃ i, 12 ≤ i ∧ i ≤ 20 ∧ u 8 4 = 2 ^ i) ∧ within (u 0xC 1) 1 4 ∧ zero 0xD 3 ∧
     (∀ i, i < 4 → if i < u 0xC 1 then u (0x10 + 8 * i) 8 % u 8 4 = 0 ∧ s.CopyMayName (w64 (u (0x10 + 8 * i) 8)) ∧
       ((w64 (u (0x10 + 8 * i) 8)).extractLsb' 60 4).toNat ≤ 1 else zero (0x10 + 8 * i) 8) ∧ zero 0x30 16) ∨
   (op = 7 ∧ a.toNat % es = 0 ∧ b = 0 ∧
     (∃ o, s.resolve s.cur.cell none a 1 = some (.spad s.cur.cell o) ∧ o < 0xF0000) ∧
     within (u 0 2) 1 4096 ∧ within (u 2 2) 1 4096 ∧ u 2 2 % es = 0 ∧ u 2 2 ≤ u 4 4 ∧ u 4 4 % 16 = 0 ∧
     within (u 8 1) 1 64 ∧ u 8 1 ≤ u 0 2 ∧ u 8 1 * es ≤ u 2 2 ∧ u 9 1 < 32 ∧ zero 0xA 2 ∧ u 0xC 4 < 2 ^ 20 ∧
     (∀ i, i < 4 → (u 9 1).testBit i = true →
       u (0x10 + 8 * i) 8 % es = 0 ∧ s.HaloMayName (w64 (u (0x10 + 8 * i) 8))) ∧ zero 0x30 16))

/-- The request of g0-g3 as it is copied at issue, with the descriptor as it stands (13 R261). -/
def Sys2Proof.Machine.State.requestHere (s : State) : CopyReq where
  scat := none
  w0 := s.g 0
  w1 := s.g 1
  w2 := s.g 2
  w3 := s.g 3
  desc :=
    if ((s.g 0).extractLsb' 0 4).toNat = 0 ∨ ((s.g 0).extractLsb' 0 4).toNat = 4 then 0
    else BitVec.ofNat 512 (s.dscAt ((s.g 0).extractLsb' 16 20).toNat 0 64)
  seq := 0
  issued := s.now

/-- From `s`, a request has entered the tail of the FIFO under the next request number. -/
def Sys2Proof.Machine.State.QueuedCopy (s t : State) (r : CopyReq) : Prop :=
  s.OnlyHere t ∧ t.here = { s.here with
    fibres := t.here.fibres, reqseq := s.here.reqseq + 1,
    copy := { s.here.copy with fifo := s.here.copy.fifo ++ [{ r with seq := s.here.reqseq }] } } ∧
  ∀ n, n ≠ s.cur.slot → t.here.fibre n = s.here.fibre n

/-- From `s`, nothing has been queued and the fibre waits with its request as copied at issue. -/
def Sys2Proof.Machine.State.WaitsToCopy (s t : State) (p : Park) : Prop :=
  s.OnlyHere t ∧ t.here.copy = s.here.copy ∧ t.here.reqseq = s.here.reqseq ∧ t.fibre.body = s.fibre.body ∧
  t.fibre.status = .parked p s.now

/-- CPYQ, blocking and not, and CPYA on a request that passes the checks (13 R268-R270): the request enters the FIFO, or
waits, or is turned away with 1; CPYA takes the lowest free slot. -/
def Sys2Proof.Says.CopyRequests : Prop :=
  ∀ (s : State) (rep : Bool) (k : KReg) (d a : GReg),
    let r := s.requestHere
    let th := (s.g a).setWidth 32
    let taken (j : Nat) : Prop := ∃ x, s.here.copy.slots.find j = some x ∧ (x.armed = true ∨ 0 < x.pending)
    s.CopyFits →
    (s.here.fifoAhead < 16 →
      (∃ t, exec .cpyq s = .next t ∧ s.QueuedCopy t r ∧ s.WroteNone t 4 1) ∧
      (∃ t, exec (.cpyqNb d) s = .next t ∧ s.QueuedCopy t r ∧ t.g d = 0 ∧ (∀ q, q ≠ d → t.g q = s.g q) ∧ s.PastWord t 4 1)) ∧
    (16 ≤ s.here.fifoAhead →
      (∃ t, exec .cpyq s = .next t ∧ s.WaitsToCopy t (.copy r)) ∧ s.Writes (.cpyqNb d) d 1 4 1) ∧
    (∀ i, i < 32 → s.here.armWaits = false → (∀ j, j < i → taken j) → ¬taken i → s.here.k[k].toNat < th.toNat →
      (∀ e ∈ s.here.copy.slots, e.2.pending = 0 ∧ (e.2.armed = true → s.here.k[e.2.k].toNat < e.2.threshold.toNat)) →
      (∀ e ∈ s.here.fibres, ∀ q since, e.2.status ≠ .parked (.copy q) since) →
      ∃ t, exec (.cpya rep k d a) s = .next t ∧ s.OnlyHere t ∧ t.g d = w64 i ∧ (∀ q, q ≠ d → t.g q = s.g q) ∧
        s.PastWord t 4 1 ∧ t.here.k = s.here.k ∧ t.here.copy.fifo = s.here.copy.fifo ∧
        t.here.copy.slots.find i = some
          { req := r, k := k, threshold := th, rep := rep, fired := false, armed := true, pending := 0 } ∧
        ∀ j, j ≠ i → t.here.copy.slots.find j = s.here.copy.slots.find j) ∧
    ((∀ j, j < 32 → taken j) →
      ∃ t, exec (.cpya rep k d a) s = .next t ∧ s.WaitsToCopy t (.arm r k th rep d))

/-- The checks of a request in the order of 13 Table 13.6, on those of its words: the first failure traps exactly, and
nothing is queued or armed. -/
def Sys2Proof.Says.CopyChecks : Prop :=
  ∀ (s : State) (rep : Bool) (k : KReg) (d a : GReg),
    let traps (cls : Nat) (detail : Word) : Prop :=
      s.TrapsWith .cpyq cls detail ∧ s.TrapsWith (.cpyqNb d) cls detail ∧ s.TrapsWith (.cpya rep k d a) cls detail
    let w := s.g 0
    let op := (w.extractLsb' 0 4).toNat
    let es := 2 ^ (w.extractLsb' 14 2).toNat
    let off := (w.extractLsb' 16 20).toNat
    let scopeOk := (w.extractLsb' 11 3).toNat ≤ 5
    let idleHandler := w.getLsbD 10 = true ∨ (s.g 3).extractLsb' 0 48 = 0
    let plain := op = 0 ∨ op = 4
    (8 ≤ op → traps cCOPY 0) ∧
    (op < 8 → ¬scopeOk → traps cCOPY 11) ∧
    (plain → scopeOk → (w.extractLsb' 16 48).toNat % es ≠ 0 → traps cCOPY 16) ∧
    (op < 8 → ¬plain → scopeOk → w.extractLsb' 36 28 ≠ 0 → traps cCOPY 36) ∧
    (op = 6 ∨ op = 7 → scopeOk → w.extractLsb' 36 28 = 0 → s.g 2 ≠ 0 → traps cCOPY (2 <<< 56)) ∧
    (plain → scopeOk → (w.extractLsb' 16 48).toNat % es = 0 → ¬idleHandler → traps cCOPY (3 <<< 56)) ∧
    (op ∈ [1, 2, 3, 5] → scopeOk → w.extractLsb' 36 28 = 0 → idleHandler → 0xEFFC0 < off →
      traps cAPERTURE (w64 off)) ∧
    (plain → scopeOk → (w.extractLsb' 16 48).toNat % es = 0 → idleHandler →
      (op = 0 → (s.g 1).toNat % es ≠ 0 → traps cALIGN (s.g 1)) ∧
      (op = 0 → (s.g 1).toNat % es = 0 → (s.g 2).toNat % es ≠ 0 → traps cALIGN (s.g 2)) ∧
      (op = 4 → (s.g 2).toNat % es = 0 → ((s.g 3).extractLsb' 0 48).toNat % 4 = 0 → ¬s.CopyMayName (s.g 2) →
        traps cAPERTURE (s.g 2)))

/-- CPYC (13 R271) where no armed slot is about to fire: both forms read the slot's record, zero where there is none; the
cancel form frees the slot, and no other; bits above the slot number are ILLEGAL. -/
def Sys2Proof.Says.ArmedSlots : Prop :=
  ∀ (s : State) (d a : GReg),
    let x := s.g a
    let i := (x.extractLsb' 0 5).toNat
    (x.extractLsb' 5 59 ≠ 0 →
      s.TrapsWith (.cpycQ d a) cILLEGAL s.fibre.body.pc ∧ s.TrapsWith (.cpycX d a) cILLEGAL s.fibre.body.pc) ∧
    (x.extractLsb' 5 59 = 0 → AMap.wf s.here.copy.slots = true →
      (∀ e ∈ s.here.copy.slots, e.2.pending = 0 ∧ (e.2.armed = true → s.here.k[e.2.k].toNat < e.2.threshold.toNat)) →
      (∀ e ∈ s.here.fibres, ∀ since, (∀ q, e.2.status ≠ .parked (.copy q) since) ∧
        ∀ r k t rep rd, e.2.status ≠ .parked (.arm r k t rep rd) since) →
      ∃ v : Word, s.Writes (.cpycQ d a) d v 4 1 ∧
        (∃ t, exec (.cpycX d a) s = .next t ∧ s.OnlyHere t ∧ t.g d = v ∧ (∀ q, q ≠ d → t.g q = s.g q) ∧ s.PastWord t 4 1 ∧
          t.here.copy.slots.find i = none ∧ (∀ j, j ≠ i → t.here.copy.slots.find j = s.here.copy.slots.find j) ∧
          t.here.k = s.here.k ∧ t.here.copy.fifo = s.here.copy.fifo ∧ t.here.copy.xfers = s.here.copy.xfers) ∧
        (s.here.copy.slots.find i = none → v = 0) ∧
        (∀ y, s.here.copy.slots.find i = some y → y.armed = true ∨ y.fired = true →
          v.getLsbD 0 = y.armed ∧ v.getLsbD 1 = y.rep ∧ v.getLsbD 2 = y.fired ∧ (v.extractLsb' 3 5).toNat = y.k.val ∧
          v.extractLsb' 8 32 = y.threshold ∧ v.extractLsb' 40 16 = y.req.w3.extractLsb' 48 16 ∧ (v.extractLsb' 56 8).toNat = 0))

/-- The fields of 13 Table 13.7 at `off` are in order for a GATH or SCAT, and its bytes do not overlap (R279). -/
def Sys2Proof.Machine.State.GathFits (s : State) (off : Nat) (scat : Bool) : Prop :=
  let u := s.dscAt off
  let size := 2 ^ u 0x1C 1
  let al := min size 16
  let c := u 0x18 4
  let list := u 0x10 4
  let buf := u 0x14 4
  let base := w64 (u 0 8)
  let apart (p n q m : Nat) : Prop := n = 0 ∨ m = 0 ∨ p + n ≤ q ∨ q + m ≤ p
  off % 64 = 0 ∧ off ≤ 0xEFFC0 ∧ 1 ≤ u 8 8 ∧ u 8 8 ≤ 2 ^ 48 ∧ list < 2 ^ 20 ∧ buf < 2 ^ 20 ∧ c ≤ 65536 ∧ u 0x1C 1 ≤ 12 ∧
  u 0x1D 1 < 128 ∧ u 0x1E 1 ≤ 5 ∧ u 0x1F 1 = 0 ∧ u 0x28 24 = 0 ∧
  (if (u 0x1D 1).testBit 6 then u 0x20 8 % 2 ^ 48 % 4 = 0 else u 0x20 8 % 2 ^ 48 = 0) ∧
  u 0 8 % al = 0 ∧ list % 4 = 0 ∧ buf % al = 0 ∧ s.CopyMayName base ∧
  (base.extractLsb' 60 4).toNat ∈ [0x0, 0x1, 0x8, 0xE] ∧ list + 4 * c ≤ 0xF0000 ∧ buf + c * size ≤ 0xF0000 ∧
  (scat = false → apart list (4 * c) buf (c * size)) ∧
  (scat = true → ∀ o, s.resolve s.cur.cell none base 1 = some (.spad s.cur.cell o) →
    apart o (u 8 8) list (4 * c) ∧ apart o (u 8 8) buf (c * size))

/-- GATH and SCAT (13 R277, R279): a descriptor in order enters the FIFO as a blocking CPYQ does; the traps of its offset,
and OVERLAP with the first offset that a GATH's list and buffer share. -/
def Sys2Proof.Says.GatherScatter : Prop :=
  ∀ (s : State) (a : GReg),
    let x := s.g a
    let off := x.toNat
    let r (scat : Bool) : CopyReq :=
      { scat := some scat, w0 := w64 (s.dscAt off 0 8), w1 := 0, w2 := 0, w3 := 0,
        desc := BitVec.ofNat 512 (s.dscAt off 0 64), seq := 0, issued := s.now }
    let runs (i : Instr) (scat : Bool) : Prop := s.GathFits off scat →
      (s.here.fifoAhead < 16 → ∃ t, exec i s = .next t ∧ s.QueuedCopy t (r scat) ∧ s.WroteNone t 4 1) ∧
      (16 ≤ s.here.fifoAhead → ∃ t, exec i s = .next t ∧ s.WaitsToCopy t (.copy (r scat)))
    runs (.gath a) false ∧ runs (.scat a) true ∧
    (0xEFFC0 < off → s.TrapsWith (.gath a) cAPERTURE x ∧ s.TrapsWith (.scat a) cAPERTURE x)

/-! ## Token routing and exchange (14) -/

/-- The place of a bin in the shadow, from the fields of 14 Table 14.4. -/
def Sys2Proof.Machine.State.binAt (s : State) (i : Nat) : Option (BitVec 128) := s.here.bins[i]?

/-- BINPUT (14 R288): the checks in their order; a full bin answers 0xFFFF_FFFF and writes nothing; otherwise the entry is
written at the bin's place, the shadow's count rises by 1 and rd receives the entry's number. The scratchpad's other bytes
stay. -/
def Sys2Proof.Says.BinPut : Prop :=
  ∀ (s : State) (d a b : GReg) (t : BitVec 128),
    let x := s.g a
    let y := s.g b
    let bin := (y.extractLsb' 0 10).toNat
    let j := (y.extractLsb' 16 4).toNat
    let i : Instr := .binput d a b
    let route (code value : Nat) : Prop := s.TrapsWith i cROUTE (w64 (value % 65536 * 65536 + code))
    let k := s.ownBytes (x.toNat + 0xB) 1
    let null := s.ownBytes (x.toNat + 0x20 + 8 * j) 2 = 0xFFFF
    let at_ := binBuffer t + 32 * binCount t
    (0xF0000 < x.toNat + 128 → s.TrapsWith i cAPERTURE x) ∧
    (x.toNat + 128 ≤ 0xF0000 → x.toNat % 16 ≠ 0 → s.TrapsWith i cALIGN x) ∧
    (x.toNat + 128 ≤ 0xF0000 → x.toNat % 16 = 0 →
      (y.extractLsb' 20 44 ≠ 0 ∨ y.extractLsb' 10 6 ≠ 0 → route 5 0) ∧
      (y.extractLsb' 20 44 = 0 → y.extractLsb' 10 6 = 0 →
        (s.binAt bin = none → route 6 bin) ∧
        (s.binAt bin = some t →
          (k ≤ j → route 8 j) ∧
          (j < k → j < 12 → (null ↔ binNotice t = false) → route 7 bin) ∧
          (j < k → j < 12 → (null ↔ binNotice t = true) →
            (binCount t = binCapacity t → s.Writes i d 0xFFFFFFFF 4 2) ∧
            (binCount t < binCapacity t → at_ + 32 ≤ 0xF0000 → Memory.wf s.here.spad.bytes = true →
              ∃ u, exec i s = .next u ∧ s.OnlyHere u ∧ u.g d = w64 (binCount t) ∧ (∀ q, q ≠ d → u.g q = s.g q) ∧
                s.PastWord u 4 2 ∧ u.here = { s.here with spad := u.here.spad, bins := u.here.bins, fibres := u.here.fibres } ∧
                (∃ t', u.binAt bin = some t' ∧ binCount t' = binCount t + 1 ∧ binCapacity t' = binCapacity t ∧
                  binBuffer t' = binBuffer t ∧ binDest t' = binDest t ∧ binNotice t' = binNotice t) ∧
                (∀ n, n ≠ bin → u.binAt n = s.binAt n) ∧
                (∀ o, o < at_ ∨ at_ + 32 ≤ o → Mem.read u.here.spad.bytes o = Mem.read s.here.spad.bytes o) ∧
                u.ownBytes at_ 4 = s.ownBytes x.toNat 4 ∧ u.ownBytes (at_ + 4) 4 = s.ownBytes (x.toNat + 4) 4 ∧
                u.ownBytes (at_ + 8) 2 = s.ownBytes (x.toNat + 0xC) 2 ∧
                u.ownBytes (at_ + 0xA) 2 = s.ownBytes (x.toNat + 0xE) 2 ∧
                ((u.ownBytes (at_ + 0xD) 1).testBit 0 =
                  ((s.ownBytes (x.toNat + 0xA) 1).testBit 2 || s.here.spad.bad x.toNat 128)) ∧
                u.ownBytes (at_ + 0xC) 1 = j ∧ u.ownBytes (at_ + 0xE) 1 = k ∧
                u.ownBytes (at_ + 0x10) 4 = s.ownBytes (x.toNat + 0x24 + 8 * j) 4)))))

/-- EXPOLL (14 R298): the oldest posted word, its combine entry freed and the L1 acquiring at DEVICE scope; with none, all
ones, or a wait. -/
def Sys2Proof.Says.ExchangePolls : Prop :=
  ∀ (s : State) (w : Bool) (d : GReg),
    (s.here.readyQ = [] → s.Writes (.expoll false d) d (BitVec.allOnes 64) 4 1 ∧
      ∃ t, exec (.expoll true d) s = .next t ∧ s.OnlyHere t ∧ t.fibre.body = s.fibre.body ∧
        t.fibre.status = .parked (.retry .ready 9 0) s.now) ∧
    (∀ x r, s.here.readyQ = x :: r → AMap.wf s.here.comb = true →
      ∃ t, exec (.expoll w d) s = .next t ∧ s.OnlyHereL1 t ∧ t.g d = x ∧ (∀ q, q ≠ d → t.g q = s.g q) ∧ s.PastWord t 4 1 ∧
        t.here.readyQ = r ∧ t.here.comb.find (x.extractLsb' 0 10).toNat = none ∧ t.here.spad = s.here.spad ∧
        t.here.k = s.here.k ∧ ∀ n, n ≠ (x.extractLsb' 0 10).toNat → t.here.comb.find n = s.here.comb.find n)

/-- GATEQ (14 R282, R283): the traps in their order; the load of the table that ROUTER names where none is loaded; room in the Router's queue; the row of scores
as it stands, widened to F32, under the token's number and sequence. -/
def Sys2Proof.Says.GateQueues : Prop :=
  ∀ (s : State) (x : BitVec 16) (a b : GReg),
    let l := s.myLaunch
    let die := dieOf s.cur.cell
    let i : Instr := .gateq x a b
    let va := s.g a
    let y := s.g b
    let r := s.router die
    (l.flags.getLsbD 3 = false → s.TrapsWith i cROUTE 1) ∧
    (l.flags.getLsbD 3 = true → l.router = 0 → s.TrapsWith i cROUTE 2) ∧
    (l.flags.getLsbD 3 = true → l.router ≠ 0 → r.loaded = none →
      (∀ c v, s.routerLoad l die = .error (.route c v) → s.TrapsWith i cROUTE (w64 (v % 65536 * 65536 + c))) ∧
      (∀ cls v, s.routerLoad l die = .error (.xlate cls v) → s.TrapsWith i cls (w64 v))) ∧
    (∀ p, l.flags.getLsbD 3 = true → l.router ≠ 0 → r.loaded = some p ∨ (r.loaded = none ∧ s.routerLoad l die = .ok p) →
      let r' := if r.loaded = none then { r with loaded := some p, rr := [] } else r
      let n := p.experts * (if y.getLsbD 56 then 2 else 4)
      (0xF0000 < va.toNat + n → s.TrapsWith i cAPERTURE va) ∧
      (va.toNat + n ≤ 0xF0000 → va.toNat % 16 ≠ 0 → s.TrapsWith i cALIGN va) ∧
      (va.toNat + n ≤ 0xF0000 → va.toNat % 16 = 0 → y.extractLsb' 57 7 ≠ 0 → s.TrapsWith i cROUTE 5) ∧
      (va.toNat + n ≤ 0xF0000 → va.toNat % 16 = 0 → y.extractLsb' 57 7 = 0 →
        (64 ≤ r.queue.length → ∃ t, exec i s = .next t ∧ (t.router die).queue = r.queue ∧ t.fibre.body = s.fibre.body ∧
          t.mem = s.mem ∧ t.fibre.status = .parked (.retry .routerRoom 10 va) s.now) ∧
        (r.queue.length < 64 → s.behind .routerRoom = false →
          ∃ t k, exec i s = .next t ∧ s.WroteNone t 4 1 ∧ t = { s with cells := t.cells, routers := t.routers } ∧
            (∀ c, c ≠ s.cur.cell → t.cell c = s.cell c) ∧ t.here = { s.here with fibres := t.here.fibres } ∧
            (∀ e, e ≠ die → t.router e = s.router e) ∧ t.router die = { r' with queue := r.queue ++ [k] } ∧
            k.policy = p ∧ k.token = y.extractLsb' 0 32 ∧ k.seq = (y.extractLsb' 32 24).toNat ∧ k.slot = x ∧
            k.gate = s.here.idx l ∧ k.poison = s.here.spad.bad va.toNat n ∧ k.row.length = p.experts ∧
            ∀ e (h : e < k.row.length), k.row[e] =
              if y.getLsbD 56 then BitVec.ofNat 32 (s.ownBytes (va.toNat + 2 * e) 2 * 65536)
              else BitVec.ofNat 32 (s.ownBytes (va.toNat + 4 * e) 4))))

/-- What an EXSEND answers once its descriptor and tables are in order: the Exchange Engine holds the request `e`, or,
while it holds 8 of the cell's, the fibre waits. -/
def Sys2Proof.Machine.State.Submits (s : State) (a : GReg) (good : ExSub → Prop) : Prop :=
  let held := (s.exch.filter (fun e => decide (e.req.launch = s.here.launch.getD 0 ∧ e.req.idx = s.here.idx s.myLaunch ∧
    e.req.device = s.device))).length
  (held < 8 → ∃ t e, exec (.exsend a) s = .next t ∧ s.WroteNone t 4 1 ∧ t.exch = s.exch ++ [e] ∧ good e ∧
    e.req.launch = s.here.launch.getD 0 ∧ e.req.idx = s.here.idx s.myLaunch ∧ e.req.device = s.device ∧
    t.mem = s.mem ∧ (∀ c, c ≠ s.cur.cell → t.cell c = s.cell c) ∧
    t.here = { s.here with fibres := t.here.fibres, exIssued := t.here.exIssued } ∧
    t.here.exIssued = s.here.exIssued + (if e.req.dispatch then 1 else 0) ∧
    ∀ n, n ≠ s.cur.slot → t.here.fibre n = s.here.fibre n) ∧
  (8 ≤ held → ∃ t r, exec (.exsend a) s = .next t ∧ s.OnlyHere t ∧ t.fibre.body = s.fibre.body ∧
    t.fibre.status = .parked (.exch r (s.g a)) s.now)

/-- EXSEND (14 R291): without the launch's flag, at a bad offset or with a descriptor whose first field is bad it traps; a
RETURN or DISPATCH whose descriptor (Table 14.8) and tables are in order is taken with what it names. -/
def Sys2Proof.Says.ExchangeSends : Prop :=
  ∀ (s : State) (a : GReg) (ct : CombTable) (p : Policy),
    let x := s.g a
    let l := s.myLaunch
    let i : Instr := .exsend a
    let u := s.dscAt x.toNat
    let n := u 0xA 2
    let bins := (List.range n).map (fun i => s.ownBytes (u 0xC 4 + 2 * i) 2)
    let common := u 2 1 < 64 ∧ u 3 1 ≤ 5 ∧ u 5 3 = 0 ∧ u 8 2 % 16 = 0 ∧ 1 ≤ u 8 2 ∧ u 8 2 ≤ 4096 ∧ u 0x28 8 % 64 = 0 ∧
      u 0x30 16 = 0
    (l.flags.getLsbD 4 = false → s.TrapsWith i cROUTE 1) ∧
    (l.flags.getLsbD 4 = true → x.toNat % 64 ≠ 0 → s.TrapsWith i cALIGN x) ∧
    (l.flags.getLsbD 4 = true → x.toNat % 64 = 0 → 0xEFFC0 < x.toNat → s.TrapsWith i cAPERTURE x) ∧
    (l.flags.getLsbD 4 = true → x.toNat % 64 = 0 → x.toNat ≤ 0xEFFC0 →
      (u 0 1 ≠ 1 → u 0 1 ≠ 2 → s.TrapsWith i cROUTE 9) ∧
      (u 0 1 = 2 → u 1 1 = 0 → u 4 1 = 0 → common → n ≤ 4096 → u 0xC 4 < 64 → u 0x10 4 + n * u 8 2 ≤ 0xF0000 →
        u 0x14 4 + 16 * n ≤ 0xF0000 → u 0x18 8 = 0 → u 0x20 8 = 0 →
        s.loadComb l (u 0x28 8) none (some (u 8 2)) = .ok ct →
        s.Submits a (fun e => e.req.dispatch = false ∧ e.req.comp = u 2 1 ∧ e.req.rowSize = u 8 2 ∧ e.req.slot = u 0xC 4 ∧
          e.req.rows = u 0x10 4 ∧ e.req.tags = u 0x14 4 ∧ e.req.n = n ∧ e.req.comb = ct ∧ e.owed = n)) ∧
      (u 0 1 = 1 → u 1 1 ≤ 1 → u 4 1 < 16 → common → n ≤ 1024 → u 0xC 4 + 2 * n ≤ 0xF0000 → u 0x10 4 < 2 ^ 20 →
        u 0x14 4 = 0 →
        (∀ b ∈ bins, b < s.here.bins.length) → s.loadPolicy l (u 0x18 8) false = .ok p →
        s.loadComb l (u 0x28 8) (some p.k) none = .ok ct →
        s.Submits a (fun e => e.req.dispatch = true ∧ e.req.fast = decide (u 1 1 = 1) ∧ e.req.comp = u 2 1 ∧
          e.req.role = u 4 1 ∧ e.req.rowSize = u 8 2 ∧ e.req.rows = u 0x10 4 ∧ e.req.policy = some p ∧ e.req.comb = ct ∧
          e.req.ents = bins.flatMap (fun b => binEnts s.here.spad (s.here.bins.getD b 0)) ∧
          e.round = 16 * s.here.exIssued + s.here.role ∧ e.owed = 0)))

/-! ## Leases (15 R315-R318) -/

/-- The leases of a job on this device that are live, and what they ask for (15 R310). -/
def Sys2Proof.Machine.State.wanted (s : State) (job : Nat) : Nat :=
  ((s.leases.filter (fun e => e.2.job = job ∧ e.2.st ≠ .ended)).map (fun e => e.2.want)).sum

/-- As `wanted`, without one lease. -/
def Sys2Proof.Machine.State.wantedBut (s : State) (job id : Nat) : Nat :=
  ((s.leases.filter (fun e => e.2.job = job ∧ e.2.st ≠ .ended ∧ e.2.id ≠ id)).map (fun e => e.2.want)).sum

/-- LEASE (15 R312, R315, R316): the traps of Table 15.5; the fibre waits for 1 µs at most; a new lease is PENDING under an
id whose generation is not 0, in a slot that no live lease holds, and its request is on its way to the destination; a
renewal that asks for no more than it holds keeps its first pairs, and the others start to drain; one that asks for more
asks for the difference; a lease whose term is over is not revived. -/
def Sys2Proof.Says.LeaseRequests : Prop :=
  ∀ (s : State) (d a b : GReg),
    let x := s.g a
    let y := s.g b
    let i : Instr := .lease d a b
    let dest := (x.extractLsb' 0 12).toNat
    let count := (y.extractLsb' 0 8).toNat
    let term := (y.extractLsb' 8 24).toNat
    let job := s.myLaunch.job
    let bad (code value : Nat) : Prop := s.TrapsWith i cLEASE (w64 (value % 65536 * 65536 + code))
    let fields := x.extractLsb' 12 52 = 0 ∧ y.extractLsb' 37 11 = 0 ∧ 1 ≤ count ∧ count ≤ 48 ∧ 10 ≤ term ∧ term ≤ 10000
    let far := dest ≠ s.device ∧ (s.job job).devSet.contains dest = true
    (¬fields → bad 1 0) ∧ (fields → ¬far → bad 2 0) ∧
    (fields → far → y.extractLsb' 48 16 = 0 →
      ((s.job job).quota < s.wanted job + count → bad 4 (s.wanted job + count)) ∧
      (s.wanted job + count ≤ (s.job job).quota → (∀ n, n < 4096 → ∃ l, s.leases.find n = some l ∧ l.st ≠ .ended) →
        bad 5 0) ∧
      (s.wanted job + count ≤ (s.job job).quota → (∃ n, n < 4096 ∧ ∀ l, s.leases.find n = some l → l.st = .ended) →
        ∃ t l lat, exec i s = .next t ∧ t.g d = w64 l.id ∧ (∀ q, q ≠ d → t.g q = s.g q) ∧
          1 ≤ lat ∧ lat ≤ 700 ∧ s.PastWord t 4 lat ∧
          t.leases.find (l.id % 4096) = some l ∧ (∀ n, n ≠ l.id % 4096 → t.leases.find n = s.leases.find n) ∧
          (∀ o, s.leases.find (l.id % 4096) = some o → o.st = .ended) ∧ 4096 ≤ l.id ∧
          l.st = .pending ∧ l.dest = dest ∧ l.want = count ∧ l.k.val = (y.extractLsb' 32 5).toNat ∧ l.job = job ∧
          l.endsAt = s.ns + 1000 * term ∧ l.pairs = [] ∧
          ((∀ q ∈ s.asks, q.id ≠ l.id) → s.SendsFrame t dest .control (.leaseReq l.id count s.offers) ∧
            t.asks = s.asks ++ [{ id := l.id, dest := dest, offers := s.offers }]) ∧
          ((∃ q ∈ s.asks, q.id = l.id) → s.SendsFrame t dest .control (.leaseUpdate l.id count) ∧ t.asks = s.asks) ∧
          t.mem = s.mem ∧ t.net = s.net ∧ (∀ c, c ≠ s.cur.cell → t.cell c = s.cell c) ∧
          t.here = { s.here with fibres := t.here.fibres })) ∧
    (∀ l, fields → far → s.leases.find ((y.extractLsb' 48 16).toNat % 4096) = some l →
      l.id = (y.extractLsb' 48 16).toNat → l.id ≠ 0 → l.job = job → l.st ≠ .ended →
      (({ s with now := s.now + 700 } : State).ns < l.endsAt →
        (l.dest ≠ dest → bad 3 l.dest) ∧
        (l.dest = dest → s.wantedBut job l.id + count ≤ (s.job job).quota → l.st = .granted →
          (count ≤ l.pairs.length →
            ∃ t m, exec i s = .next t ∧ t.g d = w64 l.id ∧ t.leases.find (l.id % 4096) = some m ∧ m.id = l.id ∧
              m.st = .granted ∧ m.want = count ∧ m.pairs = l.pairs.take count ∧ m.endsAt = s.ns + 1000 * term ∧
              t.draining = s.draining ++ (l.pairs.drop count).map (fun p => (p, dest)) ∧ t.mem = s.mem ∧
              ((∃ q ∈ s.asks, q.id = l.id) → s.SendsFrame t dest .control (.leaseUpdate l.id 0))) ∧
          (l.pairs.length < count → (∀ q ∈ s.asks, q.id ≠ l.id) →
            ∃ t m, exec i s = .next t ∧ t.g d = w64 l.id ∧ t.leases.find (l.id % 4096) = some m ∧ m.id = l.id ∧
              m.st = .granted ∧ m.want = count ∧ m.pairs = l.pairs ∧ m.endsAt = s.ns + 1000 * term ∧ t.mem = s.mem ∧
              s.SendsFrame t dest .control (.leaseReq l.id (count - l.pairs.length) s.offers)))) ∧
      (l.endsAt ≤ s.ns → s.wanted job + count ≤ (s.job job).quota →
        ∃ t m, exec i s = .next t ∧ t.g d = w64 m.id ∧ m.id ≠ l.id ∧ m.st = .pending ∧
          t.leases.find (m.id % 4096) = some m))

/-- LREL (15 R317): its words, the one of the spec among them; the reserved bits; the end of a live lease of the job on
this device, whose pairs start to drain; any other id has no effect; 1 CCLK. -/
def Obligations.LeaseReleases : Prop :=
  ∀ (s : State) (a : GReg),
    let x := s.g a
    let id := x.toNat
    let job := s.myLaunch.job
    decodeIn .s 32 0x0001D428 = some (.lrel 5) ∧
    (∀ w, w < 2 ^ 32 → (decodeIn .s 32 w = some (.lrel a) ↔ w = 0x0001D400 + 8 * a.val)) ∧
    (x.extractLsb' 16 48 ≠ 0 → s.TrapsWith (.lrel a) cLEASE 1) ∧
    (x.extractLsb' 16 48 = 0 →
      (∀ l, s.leases.find (id % 4096) = some l → l.id = id → l.job = job → l.st ≠ .ended →
        ∃ t, exec (.lrel a) s = .next t ∧ s.WroteNone t 4 1 ∧
          (∃ m, t.leases.find (id % 4096) = some m ∧ m.st = .ended ∧ m.pairs = [] ∧ m.notice = []) ∧
          (∀ n, n ≠ id % 4096 → t.leases.find n = s.leases.find n) ∧
          t.draining = s.draining ++ (l.pairs ++ l.notice.map Prod.fst ++ l.arrived.getD []).map (fun p => (p, l.dest)) ∧
          t.mem = s.mem ∧ t.net = s.net ∧ ∀ c, c ≠ s.cur.cell → t.cell c = s.cell c) ∧
      ((∀ l, s.leases.find (id % 4096) = some l → l.id = id → l.job = job → l.st = .ended) → s.OnlyGoesOn (.lrel a) 4 1))

/-- LQRY (15 R318): the reserved bits; the state of a lease of the job, 0 for any other id, within 1 µs. -/
def Sys2Proof.Says.LeaseQueries : Prop :=
  ∀ (s : State) (d a : GReg),
    let x := s.g a
    let id := x.toNat
    let job := s.myLaunch.job
    (x.extractLsb' 16 48 ≠ 0 → s.TrapsWith (.lqry d a) cLEASE 1) ∧
    (x.extractLsb' 16 48 = 0 →
      ((∀ l, s.leases.find (id % 4096) = some l → l.id ≠ id ∨ l.job ≠ job) →
        ∃ lat, 1 ≤ lat ∧ lat ≤ 700 ∧ s.Writes (.lqry d a) d 0 4 lat) ∧
      (∀ l, s.leases.find (id % 4096) = some l → l.id = id → l.job = job → l.pairs.length < 256 → l.want < 256 →
        ∃ (v : Word) (lat : Nat), 1 ≤ lat ∧ lat ≤ 700 ∧ s.Writes (.lqry d a) d v 4 lat ∧
          (v.extractLsb' 0 8).toNat = l.pairs.length ∧
          (v.extractLsb' 8 8).toNat = l.want ∧ (∀ p, p < 16 → v.getLsbD (16 + p) = l.pairs.any (fun q => q % 16 == p)) ∧
          (v.extractLsb' 32 8).toNat = (match l.st with | .pending => 1 | .granted => 2 | .ended => 3) ∧
          (v.extractLsb' 40 24).toNat = (if l.st = .ended then 0 else (l.endsAt - s.ns) / 1000 % 2 ^ 24)))

/-! ## Words that the V and M streams share (05 R88-R90, R96-R101) -/

/-- The acting stream is V or M and stands at a word; no word in flight writes the scalar registers of the list, so that
they read as they stand (05 R87). -/
def Sys2Proof.Machine.State.StreamReads (s : State) (rs : List SReg) : Prop :=
  s.cur.stream ≠ .s ∧ (∃ p, s.eng.run = some p) ∧ ∀ r ∈ rs, s.eng.inFlight (.g r) = false

/-- The produce that the TOK before the word in hand names, with the address of that word (05 R88). -/
def Sys2Proof.Machine.Engine.owes (e : Engine) : Option Produce :=
  (e.tok.bind (·.prod)).map (fun p => { k := p.1, n := p.2.val + 1, word := (e.run.map (·.pc)).getD 0 })

/-- The acting cell with a counter raised by a word of its acting stream, which the tests of the CCLK are to find; it
stands at 2^32 − 1 at most (05 R88, R89). -/
def Sys2Proof.Machine.State.withStreamInc (s : State) (k : KReg) (n : Nat) : State :=
  s.updHere (fun c => { c with
    k := c.k.set k (BitVec.ofNat 32 (min ((c.k[k]).toNat + n) 4294967295))
    acts := c.acts ++ [{ k := k, sat := decide (4294967295 < (c.k[k]).toNat + n), source := some (s.cur.stream, s.epc) }] })

/-- The engine past a word of `len` bytes that writes `dests` within `bound` CCLK: the stream stands past it, the TOK
before it is used up and its produce goes with the word; where the word ends a pass of a body longer than the loop buffer,
the next one starts 2 CCLK later (05 R78). -/
def Sys2Proof.Machine.Engine.sends (e : Engine) (len bound : Nat) (dests : List Dest) : Engine :=
  { e with
    run := e.run.map (fun p => p.past len)
    tok := none
    wait := none
    clk := e.clk + 1 + e.gap len
    flights :=
      if dests = [] ∧ bound = 0 ∧ e.tok.bind (·.prod) = none then e.flights
      else e.flights ++ [.word (e.clk + bound) dests e.owes false] }

/-- `t` differs from `s` in the acting engine only, which is `e` in it. -/
def Sys2Proof.Machine.State.OnlyEngine (s t : State) (e : Engine) : Prop :=
  s.OnlyHere t ∧ t.here = s.here.updEngOf s.cur.stream (fun _ => e)

/-- A stream's word writes a scalar register and issues. -/
def Sys2Proof.Machine.State.StreamWrites (s : State) (i : Instr) (d : SReg) (v : Word) (len bound : Nat) : Prop :=
  ∃ t, exec i s = .next t ∧ s.OnlyEngine t ({ s.eng with g := s.eng.g.set d v }.sends len bound [.g d])

/-- What a stream's trap at issue does (18 R354-R359, R366; 05 R90; 22 R393): the consumes of a TOK go back and the trap names
the TOK; the engine stops at the word; when every earlier word has completed the trap is taken: with HANDLER its handler
starts in the lowest FREE handler slot, with ABORT the launch fails; until then it waits. -/
def Sys2Proof.Machine.State.StreamTraps (s : State) (i : Instr) (cls : Nat) (detail : Word) : Prop :=
  let l := s.myLaunch
  let act := fld l.actions (2 * cls + 1) (2 * cls)
  let word : Word := match s.eng.tok with | some t => t.addr | none => s.epc
  let code := w64 cls
  let stream : Word := ((word >>> 1) <<< 8) + (if s.cur.stream = .m then 2 else 1)
  let stopped : Engine :=
    { s.eng with stopped := true, tok := none, wait := none, run := s.eng.run.map (fun p => { p with pc := word }) }
  let done := ∀ f ∈ s.eng.flights, f.isDone = true
  (act = 1 → done → s.here.traps = [] → ∀ slot, s.here.fibres.lowestFree 16 0 = some slot →
    ∃ t f, exec i s = .next t ∧ t.eng = stopped ∧ t.here.fibres.find slot = some f ∧
      (∀ n, n ≠ slot → t.here.fibres.find n = s.here.fibres.find n) ∧
      f.body.kind = .trap (if s.cur.stream = .m then .m else .v) ∧ f.status = .ready ∧ f.frame = none ∧
      f.body.pc = l.handlerPc ∧
      f.trap = { code := code, pc := word, detail := detail, seq := 0, stream := stream, written := false } ∧
      f.body.g[0] = code ∧ f.body.g[1] = detail ∧ f.body.g[2] = word ∧ f.body.g[3] = 0 ∧ f.body.g[4] = stream ∧
      (∀ k : KReg, t.here.k[k] = match s.eng.tok with
        | some u => BitVec.ofNat 32 (min ((s.here.k[k]).toNat + u.use.list.count k) 4294967295) | none => s.here.k[k]) ∧
      t.here.spad = s.here.spad ∧ t.here.v.v = s.here.v.v ∧ t.here.m.z = s.here.m.z ∧
      t = { s with cells := t.cells, nextId := s.nextId + 1 } ∧ ∀ c, c ≠ s.cur.cell → t.cell c = s.cell c) ∧
  (¬done → s.here.traps = [] → ∃ t, exec i s = .next t ∧ s.OnlyHere t ∧ t.eng = stopped ∧ t.here.fibres = s.here.fibres ∧
    t.here.traps = [(if s.cur.stream = .m then .m else .v,
      { cls := cls, sub := 0, detail := detail, pc := word, seq := 0, word := word, when_ := 0,
        src := if s.cur.stream = .m then 2 else 1 })]) ∧
  (act = 0 → done → ∃ t u, exec i s = .next t ∧ s.OnlyHere u ∧ u.eng = stopped ∧ u.here.fibres = s.here.fibres ∧
    (s.eng.tok = none → s.OnlyEngine u stopped) ∧
    u.FailsLaunch t (natBytes 8 cls ++ natBytes 8 detail.toNat ++ natBytes 8 0 ++ natBytes 8 stream.toNat ++
      natBytes 8 word.toNat ++ natBytes 4 0 ++ natBytes 4 l.kernelId.toNat ++ natBytes 2 (s.here.x + s.here.y * l.w) ++
      natBytes 1 255 ++ natBytes 1 0 ++ natBytes 4 s.device ++ natBytes 8 (w64 (s.now - s.here.cbase)).toNat))

/-- SALU, SADDI, SLI and the compact SADDI (05 R96-R98, Table 5.13): value, latency bound and frame. -/
def Obligations.StreamScalars : Prop :=
  ∀ (s : State) (d a b : SReg) (i : BitVec 12) (h : BitVec 16) (k : Fin 4) (dl al : Fin 8) (j : BitVec 5),
    let x := s.eng.g[a]
    let y := s.eng.g[b]
    (s.StreamReads [a, b] →
      s.StreamWrites (.sadd b d a) d (x + y) 4 2 ∧
      s.StreamWrites (.ssub b d a) d (x - y) 4 2 ∧
      s.StreamWrites (.smul b d a) d (x * y) 4 4 ∧
      s.StreamWrites (.sand b d a) d (x &&& y) 4 2 ∧
      s.StreamWrites (.sor b d a) d (x ||| y) 4 2 ∧
      s.StreamWrites (.sxor b d a) d (x ^^^ y) 4 2 ∧
      s.StreamWrites (.sshl b d a) d (x <<< (y.extractLsb' 0 6).toNat) 4 2 ∧
      s.StreamWrites (.sshr b d a) d (x >>> (y.extractLsb' 0 6).toNat) 4 2) ∧
    (s.StreamReads [a] → s.StreamWrites (.saddi i d a) d (x + i.signExtend 64) 4 2) ∧
    (s.StreamReads [Fin.ofNat 16 al.val] →
      s.StreamWrites (.saddiC16 dl al j) (Fin.ofNat 16 dl.val) (s.eng.g[Fin.ofNat 16 al.val] + j.signExtend 64) 2 2) ∧
    (s.StreamReads [d] → ∃ v : Word, s.StreamWrites (.sli h d k) d v 4 2 ∧
      ∀ n, n < 64 → v.getLsbD n = if n / 16 = k.val then h.getLsbD (n % 16) else (s.eng.g[d]).getLsbD n)

/-- TOK (05 R88): when every counter holds as many as it is named, each gives them up in one step and the stream comes to
its word; otherwise nothing is consumed and the stream waits. -/
def Sys2Proof.Says.Tokens : Prop :=
  ∀ (s : State) (u : TokUse) (p : Option (KReg × Fin 4)), s.StreamReads [] →
    let held := ∀ k ∈ u.list, u.list.count k ≤ (s.here.k[k]).toNat
    let t0 : TokSt := { addr := s.epc, use := u, prod := p }
    (held → ∃ t, exec (.tok u p) s = .next t ∧ s.OnlyHere t ∧
      (∀ k : KReg, (t.here.k[k]).toNat = (s.here.k[k]).toNat - u.list.count k) ∧
      t.eng.tok = some t0 ∧ t.eng.wait = none ∧ t.eng.run = s.eng.run.map (fun q => q.past 4) ∧ t.eng.g = s.eng.g ∧
      t.here.fibres = s.here.fibres ∧ t.here.spad = s.here.spad ∧ t.here.v.v = s.here.v.v ∧ t.here.v.m = s.here.v.m ∧
      t.here.m.z = s.here.m.z) ∧
    (¬held → ∃ t, exec (.tok u p) s = .next t ∧ s.OnlyEngine t
      { s.eng with wait := some (.tok t0), waitSince := if s.eng.wait = some (.tok t0) then s.eng.waitSince else s.now })

/-- SBR (05 R99): taken, the stream goes to the target with no block open and the branch remembered, or traps with BLOCK
when the target is no multiple of 4; otherwise it goes on. -/
def Sys2Proof.Says.StreamBranches : Prop :=
  ∀ (s : State) (i : BitVec 12) (b a : SReg) (c : SbrCond), s.StreamReads [a, b] →
    let x := s.eng.g[a]
    let y := s.eng.g[b]
    let t := s.epc + i.signExtend 64 * 4
    let taken := match c with
      | .z => x = 0 | .nz => x ≠ 0 | .eq => x = y | .ne => x ≠ y | .lt => x.toInt < y.toInt | .ge => y.toInt ≤ x.toInt
    (taken → t.extractLsb' 0 2 ≠ 0 → s.StreamTraps (.sbr i b c a) cBLOCK t) ∧
    (taken → t.extractLsb' 0 2 = 0 → ∃ u, exec (.sbr i b c a) s = .next u ∧ s.OnlyEngine u
      { s.eng.sends 4 0 [] with run := some { pc := t, blk := none, branch := some s.epc }, clk := s.eng.clk + 3 }) ∧
    (¬taken → ∃ u, exec (.sbr i b c a) s = .next u ∧ s.OnlyEngine u (s.eng.sends 4 0 []))

/-- The amount of SKINC and SKWAIT: 1 to 256, or the low half of a register. -/
def Sys2Proof.Machine.Engine.amount (e : Engine) : BitVec 8 ⊕ SReg → W32
  | .inl n => n.setWidth 32 + 1
  | .inr r => (e.g[r]).setWidth 32

/-- SNOP, SKWAIT and SKINC in their forms (05 R100, Table 5.13): SKWAIT takes its amount, and what has completed may be
relied on from then on (05 R88), or it stalls; SKINC with no word in flight adds its amount, saturating. -/
def Sys2Proof.Says.StreamCounters : Prop :=
  ∀ (s : State) (k : KReg) (n : BitVec 8) (a : SReg), s.StreamReads [a] →
    let c := s.here.k[k]
    let waits (i : Instr) (m : W32) (len : Nat) : Prop :=
      (m.toNat ≤ c.toNat → ∃ t, exec i s = .next t ∧ (s.withK k (c - m)).OnlyEngine t (s.eng.relied.sends len 0 [])) ∧
      (c.toNat < m.toNat → ∃ t, exec i s = .next t ∧ s.OnlyEngine t
        { s.eng with wait := some (.skwait k m len), waitSince := if s.eng.wait = some (.skwait k m len) then s.eng.waitSince else s.now })
    let adds (i : Instr) (m : W32) (len : Nat) : Prop :=
      s.eng.flights = [] → s.eng.tok = none →
        ∃ t, exec i s = .next t ∧ (s.withStreamInc k m.toNat).OnlyEngine t { s.eng.sends len 0 [] with flights := [] }
    (∃ t, exec .snop s = .next t ∧ s.OnlyEngine t (s.eng.sends 4 0 [])) ∧
    (∃ t, exec .snopC16 s = .next t ∧ s.OnlyEngine t (s.eng.sends 2 0 [])) ∧
    waits (.skwait k n) (s.eng.amount (.inl n)) 4 ∧ waits (.skwaitReg k a) (s.eng.amount (.inr a)) 4 ∧
    waits (.skwaitC16 k) 1 2 ∧
    adds (.skinc k n) (s.eng.amount (.inl n)) 4 ∧ adds (.skincReg k a) (s.eng.amount (.inr a)) 4 ∧ adds (.skincC16 k) 1 2

/-- SKINC behind a word that has not completed (05 R100): it issues, the counter waits for that word. -/
def Sys2Proof.Says.SkincWaits : Prop :=
  ∀ (s : State) (k : KReg) (n : BitVec 8) (dl : Nat) (ds : List Dest) (p : Option Produce) (r : List Flight),
    s.StreamReads [] → s.eng.flights = .word dl ds p false :: r →
    ∃ t, exec (.skinc k n) s = .next t ∧ s.OnlyHere t ∧ t.here.k = s.here.k ∧
      t.eng.run = s.eng.run.map (fun q => q.past 4) ∧ t.eng.clk = s.eng.clk + 1 + s.eng.gap 4 ∧
      t.eng.flights = s.eng.flights ++ [.skinc k (n.setWidth 32 + 1) s.epc s.eng.owes]

/-- SHALT (05 R100, 08 R179): with every earlier word completed the stream ends, a V stream's registers are unbound, and
the produce of its TOK is performed. -/
def Sys2Proof.Says.StreamEnds : Prop :=
  ∀ (s : State) (k : KReg) (n : Fin 4) (u : TokUse) (at_ : Word), s.StreamReads [] →
    (∀ f ∈ s.eng.flights, ∃ dl ds p, f = .word dl ds p true) →
    let ends (e : Engine) (c : Cell) : Cell :=
      let c1 := c.updEngOf s.cur.stream (fun _ => e)
      if s.cur.stream = .v then { c1 with v := { c1.v with binds := [] } } else c1
    let e := { s.eng with run := none, tok := none, wait := none, flights := [] }
    (s.eng.tok = none → ∃ t, exec .shalt s = .next t ∧ s.OnlyHere t ∧ t.here = ends e s.here) ∧
    (s.eng.tok = some { addr := at_, use := u, prod := some (k, n) } →
      ∃ t, exec .shalt s = .next t ∧ s.OnlyHere t ∧
        t.here = ends e (s.withStreamInc k (n.val + 1)).here)

/-- SMFS and SMTS (05 R101, 06 Table 6.4): the registers of the cell and the launch; SEED and QOVF may be written, and
a word that issues less than 4 CCLK later may see the value from before the write (06 R126, 05 R96); any other number, and a write of any other register, traps with PRIV. -/
def Sys2Proof.Says.StreamSpecialRegisters : Prop :=
  ∀ (s : State) (d a : SReg) (f : GReg), s.StreamReads [a] →
    let x := s.here
    let l := s.myLaunch
    let v := s.eng.g[a]
    s.StreamWrites (.smfs 0x00 d) d (w64 ((x.x + x.y * l.w) * 2 ^ 16 + x.y * 2 ^ 8 + x.x)) 4 4 ∧
    s.StreamWrites (.smfs 0x03 d) d (w64 (s.now - x.cbase)) 4 4 ∧
    (∃ w, s.Sees 0x04 (x.seed.setWidth 64) w ∧ s.StreamWrites (.smfs 0x04 d) d w 4 4) ∧
    (∃ w, s.Sees 0x05 (if x.qovf then 1 else 0) w ∧ s.StreamWrites (.smfs 0x05 d) d w 4 4) ∧
    (∃ w, s.Sees 0x07 (x.binbase.setWidth 64) w ∧ s.StreamWrites (.smfs 0x07 d) d w 4 4) ∧
    (∀ r : BitVec 8, r.toNat ∈ [0x00, 0x01, 0x02, 0x03, 0x04, 0x05, 0x06, 0x07, 0x10, 0x11, 0x12, 0x20, 0x21, 0x22, 0x23,
        0x24] → ∃ w, s.StreamWrites (.smfs r d) d w 4 4 ∧
        ∃ t, exec (.mfs r f) s = .next t ∧ t.g f = w) ∧
    (∀ r : BitVec 8, (0x07 < r.toNat ∧ r.toNat < 0x10) ∨ (0x12 < r.toNat ∧ r.toNat < 0x20) ∨ 0x24 < r.toNat →
      s.StreamTraps (.smfs r d) cPRIV (w64 r.toNat)) ∧
    (∃ t, exec (.smts 0x04 a) s = .next t ∧
      (s.updHere (fun c => { c with
        seed := if v.extractLsb' 0 32 = 0 then 1 else v.extractLsb' 0 32
        late := s.lateWith 0x04 (x.seed.setWidth 64) 0 })).OnlyEngine t (s.eng.sends 4 0 [])) ∧
    (∃ t, exec (.smts 0x05 a) s = .next t ∧
      (s.updHere (fun c => { c with
        qovf := v.getLsbD 0, late := s.lateWith 0x05 (if x.qovf then 1 else 0) 0 })).OnlyEngine t (s.eng.sends 4 0 [])) ∧
    (∀ r : BitVec 8, r ≠ 0x04 → r ≠ 0x05 → s.StreamTraps (.smts r a) cPRIV (w64 (256 + r.toNat)))

/-! ## V words: integers and floats (08 R151-R158) -/

/-- The V stream stands at a word and what the word names is settled: no stream is bound to its v registers (R178), and no
word in flight writes what it reads (05 R87). -/
def Sys2Proof.Machine.State.VReads (s : State) (srcs dsts : List VReg) (ms : List MReg) (gs : List SReg) : Prop :=
  s.cur.stream = .v ∧ (∃ p, s.eng.run = some p) ∧ (∀ r ∈ srcs, s.eng.inFlight (.v r) = false) ∧
    (∀ r ∈ srcs ++ dsts, s.here.v.binds.find r.val = none) ∧ (∀ r ∈ ms, s.eng.inFlight (.m r) = false) ∧
    ∀ r ∈ gs, s.eng.inFlight (.g r) = false

/-- The values from before writes of special registers after a word: where the generator has stepped `n` times the sequence
from before a write of SEED has as well (07 R137), and where QOVF has been set its value from before a write is gone. -/
def Sys2Proof.Machine.Cell.lateAfter (c : Cell) (n : Nat) (q : Bool) : List LateVal :=
  let l := if n = 0 then c.late else c.late.map (fun e =>
    if e.reg = 0x04 then { e with old := (Nat.repeat seedStep n (e.old.setWidth 32)).setWidth 64 } else e)
  if q && !c.qovf then l.filter (fun e => e.reg != 0x05) else l

/-- What a V word of `len` bytes leaves beside the registers it writes (R151, R152): the unit of its major is taken for
`interval` CCLK from the CCLK in which it issues, the engine stands past it with `dests` in flight for `bound` CCLK; QOVF
has the given value and the generator has stepped `n` times; no counter, fibre, byte of the scratchpad, tile or binding differs. -/
def Sys2Proof.Machine.State.VAfter (s t : State) (major len bound interval : Nat) (dests : List Dest) (q : Bool)
    (n : Nat) : Prop :=
  let e := { s.eng with clk := max s.eng.clk ((s.here.v.busy.find major).getD 0) }
  s.OnlyHere t ∧ t.here = { s.here with
      v := t.here.v, qovf := q, seed := Nat.repeat seedStep n s.here.seed, late := s.here.lateAfter n q } ∧
    t.here.v.binds = s.here.v.binds ∧ t.here.v.busy = s.here.v.busy.put major (e.clk + interval) ∧
    t.eng = { e.sends len bound dests with g := t.eng.g }

/-- Element `e` of `w` bits of a v register. -/
def Sys2Proof.Machine.State.el (s : State) (w : Nat) (r : VReg) (e : Nat) : BitVec w := (s.here.v.v[r]).extractLsb' (w * e) w

/-- An element is active: m0 is all ones (05 R85). -/
def Sys2Proof.Machine.State.laneOn (s : State) (m : MReg) (e : Nat) : Bool := m == 0 || (s.here.v.m[m]).getLsbD e

/-- The elements of `w` bits of `d` are the new ones where `f` gives one and the old ones elsewhere, and every other v
register is as before; a segment that takes new elements takes the poison `src` and keeps its own where an element of it
stays (R154). -/
def Sys2Proof.Machine.State.VPuts (s t : State) (w : Nat) (d : VReg) (src : BitVec 8) (f : Nat → Option (BitVec w)) : Prop :=
  (∀ r, r ≠ d → t.here.v.v[r] = s.here.v.v[r] ∧ t.here.v.vp[r] = s.here.v.vp[r]) ∧
    (∀ e, w * (e + 1) ≤ 4096 → t.el w d e = (f e).getD (s.el w d e)) ∧
    ∀ g, g < 8 → ((t.here.v.vp[d]).getLsbD g = true ↔
      ((∃ e, w * e / 512 = g ∧ (f e).isSome) ∧ src.getLsbD g = true) ∨
      ((∃ e, w * e / 512 = g ∧ f e = none) ∧ (s.here.v.vp[d]).getLsbD g = true))

/-- A V word writes elements of one v register. -/
def Sys2Proof.Machine.State.VSets (s : State) (i : Instr) (major w len bound interval : Nat) (q : Bool) (n : Nat) (d : VReg)
    (src : BitVec 8) (f : Nat → Option (BitVec w)) : Prop :=
  ∃ t, exec i s = .next t ∧ s.VAfter t major len bound interval [.v d] q n ∧ t.here.v.m = s.here.v.m ∧
    t.eng.g = s.eng.g ∧ s.VPuts t w d src f

/-- A lane-wise V word (R151, R154): each active element of `d` takes `f`, each segment the poison of its sources'. -/
def Sys2Proof.Machine.State.VLanes (s : State) (i : Instr) (major w len bound interval : Nat) (m : MReg) (srcs : List VReg)
    (d : VReg) (f : Nat → BitVec w) : Prop :=
  s.VSets i major w len bound interval s.here.qovf 0 d
    (srcs.foldl (fun p r => p ||| s.here.v.vp[r]) 0) (fun e => if s.laneOn m e then some (f e) else none)

/-- VIA and the compact VADD (08 R158, Table 8.5): integers of the format's width, modulo 2^w, on the active elements. -/
def Sys2Proof.Says.VectorIntegers : Prop :=
  (∀ (s : State) (fm : VFmt) (m : MReg) (b a d : VReg), fm.isViaInt = true → s.VReads [a, b] [d] [m] [] →
    let w := fm.width
    let x (e : Nat) := s.el w a e
    let y (e : Nat) := s.el w b e
    let num (v : BitVec w) : Int := if fm = .u32 then (v.toNat : Int) else v.toInt
    let amt (e : Nat) := (y e).toNat % w
    let via (i : Instr) (bound : Nat) (f : Nat → BitVec w) : Prop := s.VLanes i 3 w 4 bound 1 m [a, b] d f
    via (.vadd fm m b a d) 2 (fun e => x e + y e) ∧
    via (.vsub fm m b a d) 2 (fun e => x e - y e) ∧
    via (.vmul fm m b a d) 4 (fun e => x e * y e) ∧
    via (.vmulh fm m b a d) 4 (fun e => BitVec.ofInt w (num (x e) * num (y e) / (2 ^ w : Nat))) ∧
    via (.vand fm m b a d) 2 (fun e => x e &&& y e) ∧
    via (.vor fm m b a d) 2 (fun e => x e ||| y e) ∧
    via (.vxor fm m b a d) 2 (fun e => x e ^^^ y e) ∧
    via (.vshl fm m b a d) 2 (fun e => x e <<< amt e) ∧
    via (.vshr fm m b a d) 2 (fun e => x e >>> amt e) ∧
    via (.vsra fm m b a d) 2 (fun e => (x e).sshiftRight (amt e)) ∧
    via (.vmin fm m b a d) 2 (fun e => if num (y e) < num (x e) then y e else x e) ∧
    via (.vmax fm m b a d) 2 (fun e => if num (x e) < num (y e) then y e else x e)) ∧
  (∀ (s : State) (fm : VFmt) (m : MReg) (a d : VReg), fm.isViaInt = true → fm ≠ .u32 → s.VReads [a] [d] [m] [] →
    s.VLanes (.vabs fm m a d) 3 fm.width 4 2 1 m [a] d
      (fun e => if (s.el fm.width a e).toInt < 0 then -(s.el fm.width a e) else s.el fm.width a e)) ∧
  ∀ (s : State) (d a b : Fin 8),
    let r (x : Fin 8) : VReg := Fin.ofNat 32 x.val
    s.VReads [r a, r b] [r d] [] [] →
    s.VLanes (.vaddC16 d a b) 3 32 2 2 1 0 [r a, r b] (r d) (fun e => s.el 32 (r a) e + s.el 32 (r b) e)

/-- VFA, VFMA and their compact words (08 R155, R156, Tables 8.3 and 8.4; 07 R134, R140): each active element takes the
exact result of its operands, rounded once; BF16 and F16 operands flush (R134). -/
def Sys2Proof.Says.VectorFloats : Prop :=
  (∀ (s : State) (fm : VFmt) (m : MReg) (b a d : VReg), fm.isSmallFloat = true → s.VReads [a, b] [d] [m] [] →
    let w := fm.width
    let x (e : Nat) := operand fm.fmt (s.el w a e).toNat
    let y (e : Nat) := operand fm.fmt (s.el w b e).toNat
    let vfa (i : Instr) (bound interval : Nat) (f : Nat → FVal) : Prop :=
      s.VLanes i 0 w 4 bound interval m [a, b] d (fun e => BitVec.ofNat w (roundArith fm.fmt (f e)))
    vfa (.vfadd fm m b a d) 4 1 (fun e => addE (x e) (y e)) ∧
    vfa (.vfsub fm m b a d) 4 1 (fun e => addE (x e) (y e).negate) ∧
    vfa (.vfmul fm m b a d) 4 1 (fun e => mulE (x e) (y e)) ∧
    vfa (.vfmin fm m b a d) 4 1 (fun e => minE (x e) (y e)) ∧
    vfa (.vfmax fm m b a d) 4 1 (fun e => maxE (x e) (y e)) ∧
    vfa (.vfdiv fm m b a d) 24 8 (fun e => divE (x e) (y e)) ∧
    vfa (.vfcpys fm m b a d) 4 1 (fun e => (x e).withSign (s.el w b e).msb)) ∧
  (∀ (s : State) (fm : VFmt) (m : MReg) (a d : VReg), fm.isSmallFloat = true → s.VReads [a] [d] [m] [] →
    let w := fm.width
    let x (e : Nat) := operand fm.fmt (s.el w a e).toNat
    let vfa (i : Instr) (bound interval : Nat) (f : Nat → FVal) : Prop :=
      s.VLanes i 0 w 4 bound interval m [a] d (fun e => BitVec.ofNat w (roundArith fm.fmt (f e)))
    vfa (.vfsqrt fm m a d) 24 8 (fun e => sqrtE (x e)) ∧
    vfa (.vfabs fm m a d) 4 1 (fun e => (x e).withSign false) ∧
    vfa (.vfneg fm m a d) 4 1 (fun e => (x e).negate)) ∧
  (∀ (s : State) (fm : VFmt) (m : MReg) (b a d : VReg), fm.isSmallFloat = true → s.VReads [a, b, d] [d] [m] [] →
    let w := fm.width
    let p (e : Nat) := mulE (operand fm.fmt (s.el w a e).toNat) (operand fm.fmt (s.el w b e).toNat)
    let z (e : Nat) := operand fm.fmt (s.el w d e).toNat
    let fused (i : Instr) (f : Nat → FVal) : Prop :=
      s.VLanes i 1 w 4 5 1 m [a, b, d] d (fun e => BitVec.ofNat w (roundArith fm.fmt (f e)))
    fused (.vfma fm m b a d) (fun e => addE (p e) (z e)) ∧
    fused (.vfms fm m b a d) (fun e => addE (p e) (z e).negate) ∧
    fused (.vfnma fm m b a d) (fun e => addE (p e).negate (z e))) ∧
  ∀ (s : State) (d a b : Fin 8),
    let r (x : Fin 8) : VReg := Fin.ofNat 32 x.val
    let x (e : Nat) := decodeFloat .f32 (s.el 32 (r a) e).toNat
    let y (e : Nat) := decodeFloat .f32 (s.el 32 (r b) e).toNat
    (s.VReads [r a, r b] [r d] [] [] →
      s.VLanes (.vfaddC16 d a b) 0 32 2 4 1 0 [r a, r b] (r d) (fun e => BitVec.ofNat 32 (roundArith .f32 (addE (x e) (y e)))) ∧
      s.VLanes (.vfmulC16 d a b) 0 32 2 4 1 0 [r a, r b] (r d) (fun e => BitVec.ofNat 32 (roundArith .f32 (mulE (x e) (y e))))) ∧
    (s.VReads [r a, r b, r d] [r d] [] [] →
      s.VLanes (.vfmaC16 d a b) 1 32 2 5 1 0 [r a, r b, r d] (r d)
        (fun e => BitVec.ofNat 32 (roundArith .f32
          (addE (mulE (x e) (y e)) (decodeFloat .f32 (s.el 32 (r d) e).toNat)))))

/-- Rounding (07 R134, R135, R140): a result that the format holds keeps its encoding, a NaN takes the canonical one, a
subnormal result of BF16 and F16 becomes the zero of its sign; and RNE takes the nearest multiple of the quantum 2^q,
of two as near the even one. -/
def Sys2Proof.Says.FloatRounding : Prop :=
  (∀ (f : Fmt) (x : Nat), f = .f32 ∨ f = .bf16 ∨ f = .f16 → x < 2 ^ f.width →
    let field := x / 2 ^ manBits f % 2 ^ expBits f
    let frac := x % 2 ^ manBits f
    roundArith f (operand f x) =
      if field = 2 ^ expBits f - 1 ∧ frac ≠ 0 then canonNan f
      else if field = 0 ∧ f ≠ .f32 then x / 2 ^ (f.width - 1) * 2 ^ (f.width - 1)
      else x) ∧
  ∀ (seed : Nat) (neg : Bool) (m : Nat) (e q : Int),
    let k := roundQ .rne seed neg m e q
    let quantum : Nat := 2 ^ (q - e).toNat
    let error : Nat := 2 * ((k : Int) * quantum - m).natAbs
    (q ≤ e → k = m * 2 ^ (e - q).toNat) ∧
    (e ≤ q → error ≤ quantum ∧ (error = quantum → k % 2 = 0))

/-- The special functions (08 R157; 07 R141): on the active elements each gives its value of the operand, rounded to F32;
a NaN and the inputs of 07 Table 7.4 give what the table says. That the value elsewhere is the model's own computation of
the function is the model's reading (log 15). -/
def Sys2Proof.Says.SpecialFunctions : Prop :=
  (∀ (s : State) (m : MReg) (a d : VReg), s.VReads [a] [d] [m] [] →
    let sfu (i : Instr) (f : FVal → FVal) : Prop :=
      s.VLanes i 2 32 4 12 2 m [a] d
        (fun e => BitVec.ofNat 32 (roundArith .f32 (f (decodeFloat .f32 (s.el 32 a e).toNat))))
    sfu (.vexp2 m a d) exp2V ∧ sfu (.vlog2 m a d) log2V ∧ sfu (.vrcp m a d) rcpV ∧ sfu (.vrsqrt m a d) rsqrtV ∧
    sfu (.vsinpi m a d) sinpiV ∧ sfu (.vcospi m a d) cospiV ∧ sfu (.vtanh m a d) tanhV ∧ sfu (.vsigm m a d) sigmV) ∧
  (let gives (f : FVal → FVal) (x y : Nat) : Prop := roundArith .f32 (f (decodeFloat .f32 x)) = y
   let inf := 0x7F800000
   let ninf := 0xFF800000
   let posZero := 0
   let negZero := 0x80000000
   let nan := 0x7FC00000
   (∀ f ∈ [exp2V, log2V, rcpV, rsqrtV, sinpiV, cospiV, tanhV, sigmV], ∀ x, inf < x → x < negZero → gives f x nan) ∧
   gives exp2V ninf posZero ∧ gives exp2V inf inf ∧
   gives log2V posZero ninf ∧ gives log2V negZero ninf ∧ (∀ x, negZero < x → x ≤ ninf → gives log2V x nan) ∧ gives log2V inf inf ∧
   gives rcpV posZero inf ∧ gives rcpV negZero ninf ∧ gives rcpV inf posZero ∧ gives rcpV ninf negZero ∧
   gives rsqrtV posZero inf ∧ gives rsqrtV negZero ninf ∧ (∀ x, negZero < x → x ≤ ninf → gives rsqrtV x nan) ∧ gives rsqrtV inf posZero ∧
   (∀ neg n, sinpiV (.fin neg n 0) = .fin neg 0 0) ∧ gives sinpiV inf nan ∧ gives sinpiV ninf nan ∧
   (∀ neg n, cospiV (.fin neg (2 * n + 1) (-1)) = .fin false 0 0) ∧ gives cospiV inf nan ∧ gives cospiV ninf nan ∧
   gives tanhV posZero posZero ∧ gives tanhV negZero negZero ∧ gives tanhV inf 0x3F800000 ∧ gives tanhV ninf 0xBF800000 ∧
   gives sigmV ninf posZero ∧ gives sigmV inf 0x3F800000)

/-! ## V words: compares, conversions, fixed point, scales, reductions, scans (08 R159-R165) -/

/-- A V word writes one mask register: bit `e` is `f e` for every `e` below 512. -/
def Sys2Proof.Machine.State.VMasks (s : State) (i : Instr) (major bound : Nat) (d : MReg) (f : Nat → Bool) : Prop :=
  ∃ t, exec i s = .next t ∧ s.VAfter t major 4 bound 1 [.m d] s.here.qovf 0 ∧ t.here.v.v = s.here.v.v ∧
    t.here.v.vp = s.here.v.vp ∧ t.eng.g = s.eng.g ∧ (∀ r, r ≠ d → t.here.v.m[r] = s.here.v.m[r]) ∧
    ∀ e, e < 512 → (t.here.v.m[d]).getLsbD e = f e

/-- A V word writes one e register. -/
def Sys2Proof.Machine.State.VScalar (s : State) (i : Instr) (major bound interval : Nat) (q : Bool) (d : SReg) (v : Word) : Prop :=
  ∃ t, exec i s = .next t ∧ s.VAfter t major 4 bound interval [.g d] q 0 ∧ t.here.v.v = s.here.v.v ∧
    t.here.v.vp = s.here.v.vp ∧ t.here.v.m = s.here.v.m ∧ t.eng.g = s.eng.g.set d v

/-- No active element of the registers lies in a poisoned segment (R154). -/
def Sys2Proof.Machine.State.VClean (s : State) (fm : VFmt) (m : MReg) (l : List VReg) : Prop :=
  ∀ r ∈ l, ∀ e, e < fm.count → s.laneOn m e = true → (s.here.v.vp[r]).getLsbD (fm.width * e / 512) = false

/-- The poison of a word that is not lane-wise (R154): all segments when a segment of a source is poisoned. -/
def Sys2Proof.Machine.State.VSpread (s : State) (l : List VReg) : BitVec 8 :=
  if l.foldl (fun p r => p ||| s.here.v.vp[r]) 0 = 0 then 0 else 0xFF

/-- How many of the first `n` elements are active. -/
def Sys2Proof.Machine.State.lanesOn (s : State) (m : MReg) (n : Nat) : Nat := ((List.range n).filter (s.laneOn m)).length

/-- The generator states from which the elements of a word draw: SEED, or shortly after a write of it the state of a sequence
from before the write, each element by itself (07 R137). -/
def Sys2Proof.Machine.State.Draws (s : State) (start : Nat → W32) : Prop :=
  ∀ e, start e = s.here.seed ∨ ∃ x ∈ s.here.late, x.reg = 0x04 ∧ s.now < x.till ∧ start e = x.old.setWidth 32

/-- How often the generator steps for the first `n` elements of a word. -/
def Sys2Proof.Machine.State.stepsOf (s : State) (r : RMode) (m : MReg) (n : Nat) : Nat := if r = .rsn then s.lanesOn m n else 0

/-- The state of the generator for an element that rounds under RSN: one step for each active element up to it, itself
included (07 R136, R137), in the sequence that it draws from; no mode but RSN looks at it. -/
def Sys2Proof.Machine.State.seedAt (s : State) (start : Nat → W32) (r : RMode) (m : MReg) (e : Nat) : Nat :=
  if r = .rsn then (Nat.repeat seedStep (s.lanesOn m (e + 1)) (start e)).toNat else 0

/-- VCMP (08 R159): a condition on the elements, 0 where an element is not active or does not exist; floats unordered
with a NaN, −0 equal to +0. -/
def Sys2Proof.Says.VectorCompares : Prop :=
  ∀ (s : State) (fm : VFmt) (m : MReg) (b a : VReg) (d : MReg), d ≠ 0 → s.VReads [a, b] [] [m] [] → s.VClean fm m [a, b] →
    let w := fm.width
    let cmp (c : VCond) (f : Nat → Prop) : Prop :=
      ∃ p : Nat → Bool, s.VMasks (.vcmp fm m b a d c) 4 3 d p ∧
        ∀ e, e < 512 → (p e = true ↔ e < fm.count ∧ s.laneOn m e = true ∧ f e)
    (fm.isFloat = false →
      let x (e : Nat) : Int := if fm = .u32 then ((s.el w a e).toNat : Int) else (s.el w a e).toInt
      let y (e : Nat) : Int := if fm = .u32 then ((s.el w b e).toNat : Int) else (s.el w b e).toInt
      cmp .eq (fun e => x e = y e) ∧ cmp .ne (fun e => x e ≠ y e) ∧ cmp .lt (fun e => x e < y e) ∧
        cmp .le (fun e => x e ≤ y e) ∧ cmp .gt (fun e => y e < x e) ∧ cmp .ge (fun e => y e ≤ x e)) ∧
    (fm.isFloat = true →
      let x (e : Nat) := operand fm.fmt (s.el w a e).toNat
      let y (e : Nat) := operand fm.fmt (s.el w b e).toNat
      let un (e : Nat) : Prop := (x e).isNan = true ∨ (y e).isNan = true
      let lt (e : Nat) : Prop := ltE (x e) (y e) = true ∧ ¬((x e).isZero = true ∧ (y e).isZero = true)
      let gt (e : Nat) : Prop := ltE (y e) (x e) = true ∧ ¬((x e).isZero = true ∧ (y e).isZero = true)
      cmp .un un ∧ cmp .ord (fun e => ¬un e) ∧ cmp .lt lt ∧ cmp .gt gt ∧
        cmp .eq (fun e => ¬un e ∧ ¬lt e ∧ ¬gt e) ∧ cmp .ne (fun e => un e ∨ lt e ∨ gt e) ∧
        cmp .le (fun e => ¬un e ∧ ¬gt e) ∧ cmp .ge (fun e => ¬un e ∧ ¬lt e))

/-- VCVT (08 R160; 07 R136-R138): active elements converted under the mode, inactive ones kept, the rest of vd zeroed;
under RSN the generator steps once for each active element, in ascending order, and shortly after a write of SEED each
element draws from the sequence before it or after it. -/
def Sys2Proof.Says.Conversions : Prop :=
  ∀ (s : State) (src dst : Fmt) (r : RMode) (novf : Bool) (m : MReg) (a d : VReg),
    src.isVcvt = true → dst.isVcvt = true → s.VReads [a] [d] [m] [] →
    let n := min 512 (4096 / max src.width dst.width)
    let flush := isFlushing dst && dst.width ≤ src.width
    ∃ old, s.Draws old ∧
      s.VSets (.vcvt src dst r novf m a d) 5 dst.width 4 4 1 s.here.qovf (s.stepsOf r m n) d (s.VSpread [a]) (fun e =>
        if n ≤ e then some 0
        else if s.laneOn m e = true then
          some (BitVec.ofNat dst.width
            (convert dst r novf flush (s.seedAt old r m e) (decodeFmt src (s.el src.width a e).toNat)))
        else none)

/-- VQCVT, VQADD, VQSUB and VQTOF (08 R161; 07 R136, R137, R150): 64 Q64 elements, QOVF set by an active element that
overflows and never cleared. -/
def Sys2Proof.Says.FixedPoint : Prop :=
  ∀ (s : State) (r : RMode) (m : MReg) (b a d : VReg), s.VReads [a, b] [d] [m] [] →
    let inRange (x : Int) : Prop := -9223372036854775808 ≤ x ∧ x ≤ 9223372036854775807
    let on (j : Nat) : Prop := s.laneOn m j = true
    let x (j : Nat) := (s.el 64 a j).toInt
    let y (j : Nat) := (s.el 64 b j).toInt
    let point (j : Nat) : Int := ((s.el 32 b j).toNat % 64 : Nat)
    let scaled (j : Nat) : FVal := (decodeFloat .f32 (s.el 32 a j).toNat).scale (point j)
    let lanes (i : Instr) (f : Int → Int → Int) : Prop := ∃ q : Bool,
      (q = true ↔ s.here.qovf = true ∨ ∃ j, j < 64 ∧ on j ∧ ¬inRange (f (x j) (y j))) ∧
      s.VSets i 6 64 4 4 1 q 0 d (s.here.v.vp[a] ||| s.here.v.vp[b])
        (fun j => if s.laneOn m j = true then some (BitVec.ofInt 64 (f (x j) (y j))) else none)
    lanes (.vqadd m b a d) (fun x y => x + y) ∧
    lanes (.vqsub m b a d) (fun x y => x - y) ∧
    (∃ (q : Bool) (c : Nat → Int) (old : Nat → W32), s.Draws old ∧
      (∀ j, j < 64 → on j → match roundInt r (s.seedAt old r m j) (scaled j) with
        | none => c j = 0
        | some (.inr neg) => c j = if neg then -9223372036854775808 else 9223372036854775807
        | some (.inl z) => c j = if z < -9223372036854775808 then -9223372036854775808
            else if 9223372036854775807 < z then 9223372036854775807 else z) ∧
      (q = true ↔ s.here.qovf = true ∨ ∃ j, j < 64 ∧ on j ∧ ∀ z, roundInt r (s.seedAt old r m j) (scaled j) = some (.inl z) → ¬inRange z) ∧
      s.VSets (.vqcvt r m b a d) 6 64 4 4 1 q (s.stepsOf r m 64) d (s.VSpread [a, b])
        (fun j => if s.laneOn m j = true then some (BitVec.ofInt 64 (c j)) else none)) ∧
    ∃ old, s.Draws old ∧ s.VSets (.vqtof r m b a d) 6 32 4 4 1 s.here.qovf (s.stepsOf r m 64) d (s.VSpread [a, b])
      (fun j =>
        if 64 ≤ j then some 0
        else if s.laneOn m j = true then
          some (BitVec.ofNat 32 (convFloat .f32 r true false (s.seedAt old r m j) ((FVal.ofInt (x j)).scale (-(point j)))))
        else none)

/-- VSCLF and VSCLA (08 R162, R163; 07 R144). -/
def Sys2Proof.Says.BlockScales : Prop :=
  ∀ (s : State) (m : MReg) (f : MxFmt) (b a d : VReg),
    (s.VReads [a] [d] [m] [] →
      let emax : Int := match f with | .e4m3 => 8 | .e5m2 => 15 | .e2m1 => 2
      let block (k : Nat) : List FVal := ((List.range' (32 * k) 32).filter (s.laneOn m)).map
        (fun e => decodeFloat .f32 (s.el 32 a e).toNat)
      let finite (v : FVal) : Prop := ∃ n q e, v = .fin n q e
      ∃ sc : Nat → Nat,
        (∀ k, k < 4 →
          ((∃ v ∈ block k, ¬finite v) → sc k = 0xFF) ∧
          ((∀ v ∈ block k, v.isZero = true) → sc k = 0x7F) ∧
          ((∀ v ∈ block k, finite v) → ∀ top : Int,
            (∃ n q e, FVal.fin n q e ∈ block k ∧ q ≠ 0 ∧ leadExp q e = top) →
            (∀ n q e, FVal.fin n q e ∈ block k → q ≠ 0 → leadExp q e ≤ top) →
            (sc k : Int) = max 0 (min 254 (top - emax + 127)))) ∧
        s.VSets (.vsclf m f a d) 7 8 4 6 1 s.here.qovf 0 d (s.VSpread [a])
          (fun i => some (if i < 4 then BitVec.ofNat 8 (sc i) else 0))) ∧
    (s.VReads [a, b] [d] [m] [] →
      s.VSets (.vscla m b a d) 7 32 4 6 1 s.here.qovf 0 d (s.VSpread [a, b])
        (fun e =>
          let x := s.el 8 b (e / 32)
          if s.laneOn m e = true then
            some (if x = 0xFF then 0x7FC00000
              else BitVec.ofNat 32 (roundArith .f32 ((decodeFloat .f32 (s.el 32 a e).toNat).scale (127 - x.toNat))))
          else none))

/-- VRED (08 R164, Table 8.8; 07 R148): the result of the active elements in ed. -/
def Sys2Proof.Says.Reductions : Prop :=
  ∀ (s : State) (fm : VFmt) (m : MReg) (a : VReg) (d : EReg), s.VReads [a] [] [m] [] → s.VClean fm m [a] →
    let w := fm.width
    let num (e : Nat) : Int := if fm = .u32 then ((s.el w a e).toNat : Int) else (s.el w a e).toInt
    let on (e : Nat) : Prop := e < fm.count ∧ s.laneOn m e = true
    let total : Int := (((List.range fm.count).filter (s.laneOn m)).map num).sum
    let q := s.here.qovf
    let gives (i : Instr) (q : Bool) (v : Word) : Prop := s.VScalar i 8 12 1 q d v
    -- sums
    (fm = .i32 ∨ fm = .i16 ∨ fm = .i8 → gives (.vredsum fm m a d) q ((BitVec.ofInt 32 total).signExtend 64)) ∧
    (fm = .u32 → gives (.vredsum fm m a d) q ((BitVec.ofInt 32 total).setWidth 64)) ∧
    (fm = .q64 → gives (.vredsum fm m a d)
      (q || !(decide (-9223372036854775808 ≤ total) && decide (total ≤ 9223372036854775807))) (BitVec.ofInt 64 total)) ∧
    (fm.isFloat = true →
      let x (e : Nat) : W32 := if e < fm.count ∧ s.laneOn m e = true then
          BitVec.ofNat 32 (convFloat .f32 .rne true false 0 (decodeFmt fm.fmt (s.el w a e).toNat)) else 0
      let bits (e : Nat) : W32 := if e < fm.count ∧ s.laneOn m e = true then (s.el w a e).setWidth 32 else 0
      gives (.vredsum fm m a d) q ((f32Tree ((List.range 128).map (fun l =>
        if fm = .f32 then bits l else f32Add (x (2 * l)) (x (2 * l + 1))))).setWidth 64)) ∧
    -- the greatest and the least
    (fm.isFloat = false →
      let low := (intRange (if fm = .q64 then .i64 else fm.fmt)).1
      let high := (intRange (if fm = .q64 then .i64 else fm.fmt)).2
      (∃ v : Int, gives (.vredmax fm m a d) q (BitVec.ofInt 64 v) ∧ (∀ e, on e → num e ≤ v) ∧
        (v = low ∧ (∀ e, ¬on e) ∨ ∃ e, on e ∧ num e = v)) ∧
      (∃ v : Int, gives (.vredmin fm m a d) q (BitVec.ofInt 64 v) ∧ (∀ e, on e → v ≤ num e) ∧
        (v = high ∧ (∀ e, ¬on e) ∨ ∃ e, on e ∧ num e = v)) ∧
      (∃ v : Word, gives (.vargmax fm m a d) q v ∧
        (v = BitVec.allOnes 64 ∧ (∀ e, ¬on e) ∨ ∃ k, v = BitVec.ofNat 64 k ∧ on k ∧
          ∀ e, on e → num e ≤ num k ∧ (e < k → num e < num k))) ∧
      (∃ v : Word, gives (.vargmin fm m a d) q v ∧
        (v = BitVec.allOnes 64 ∧ (∀ e, ¬on e) ∨ ∃ k, v = BitVec.ofNat 64 k ∧ on k ∧
          ∀ e, on e → num k ≤ num e ∧ (e < k → num k < num e)))) ∧
    (fm.isFloat = true →
      let vals : List (Nat × FVal) := ((List.range fm.count).filter (s.laneOn m)).map (fun e => (e, decodeFmt fm.fmt (s.el w a e).toNat))
      let bits (v : FVal) : Word := BitVec.ofNat 64 (convFloat fm.fmt .rne true false 0 v)
      let first (better : FVal → FVal → Bool) : Word :=
        match (vals.filter (fun x => !x.2.isNan)).foldl (fun (b : Option (Nat × FVal)) x =>
          match b with | none => some x | some y => if better y.2 x.2 then some x else some y) none with
        | some x => BitVec.ofNat 64 x.1 | none => BitVec.allOnes 64
      gives (.vredmax fm m a d) q (bits ((vals.map (fun x => x.2)).foldl maxE .nan)) ∧
      gives (.vredmin fm m a d) q (bits ((vals.map (fun x => x.2)).foldl minE .nan)) ∧
      gives (.vargmax fm m a d) q (first (fun y x => ltE y x)) ∧
      gives (.vargmin fm m a d) q (first (fun y x => ltE x y)))

/-- VSCAN and VSCANX (08 R165): each active element takes the sum of the active ones up to it (before it), from zero; for
Q64, QOVF is set when an exact prefix leaves the I64 range. That the first sum of F32 is the first element itself, a −0
included, is R148's order, which the model takes for both words (log 23). -/
def Sys2Proof.Says.Scans : Prop :=
  ∀ (s : State) (fm : VFmt) (m : MReg) (a d : VReg), fm.isScan = true → s.VReads [a] [d] [m] [] →
    let w := fm.width
    let x (e : Nat) : BitVec w := if s.laneOn m e = true then s.el w a e else 0
    let add (p q : BitVec w) : BitVec w := if fm = .f32 then (f32Add (p.setWidth 32) (q.setWidth 32)).setWidth w else p + q
    let prefix_ (n : Nat) : BitVec w := match (List.range n).map x with | [] => 0 | y :: r => r.foldl add y
    let exact (n : Nat) : Int := (((List.range n).map x).map (fun v => v.toInt)).sum
    ∃ q : Bool,
      (q = true ↔ s.here.qovf = true ∨ fm = .q64 ∧ ∃ n, n ≤ 64 ∧
        ¬(-9223372036854775808 ≤ exact n ∧ exact n ≤ 9223372036854775807)) ∧
      s.VSets (.vscan fm m a d) 9 w 4 16 1 q 0 d (s.VSpread [a])
        (fun e => if s.laneOn m e = true then some (prefix_ (e + 1)) else none) ∧
      s.VSets (.vscanx fm m a d) 9 w 4 16 1 q 0 d (s.VSpread [a])
        (fun e => if s.laneOn m e = true then some (prefix_ e) else none)

/-! ## V words: permutes, masks, memory, accumulators, merges, streams (08 R166-R179) -/

/-- VPRM and the compact VMOV (08 R166, Table 8.9). -/
def Sys2Proof.Says.VectorMoves : Prop :=
  (∀ (s : State) (f : VFmt) (m : MReg) (b a d : VReg), s.VReads [a, b] [d] [m] [] →
    let w := f.width
    let q := s.here.qovf
    let sd : Nat := 0
    let spread := s.VSpread [a, b]
    let n0 := (s.el 16 b 0).toNat
    let when_ {n : Nat} (g : Nat → BitVec n) (e : Nat) : Option (BitVec n) := if s.laneOn m e = true then some (g e) else none
    s.VSets (.vperm m b a d) 10 32 4 6 1 q sd d spread (when_ (fun e => s.el 32 a ((s.el 32 b e).extractLsb' 0 7).toNat)) ∧
    s.VSets (.vsldu f m b a d) 10 w 4 4 1 q sd d spread (when_ (fun e => if n0 ≤ e then s.el w a (e - n0) else 0)) ∧
    s.VSets (.vsldd f m b a d) 10 w 4 4 1 q sd d spread (when_ (fun e => if e + n0 < f.count then s.el w a (e + n0) else 0)) ∧
    s.VSets (.vsel f m b a d) 10 w 4 2 1 q sd d (s.here.v.vp[a] ||| s.here.v.vp[b])
      (fun e => some (if s.laneOn m e = true then s.el w a e else s.el w b e))) ∧
  (∀ (s : State) (f : VFmt) (m : MReg) (a : EReg) (d : VReg), s.VReads [] [d] [m] [a] →
    s.VSets (.vbcst f m a d) 10 f.width 4 3 1 s.here.qovf 0 d 0
      (fun e => if s.laneOn m e = true then some ((s.eng.g[a]).setWidth f.width) else none)) ∧
  (∀ (s : State) (f : VFmt) (m : MReg) (a d : VReg), s.VReads [a] [d] [m] [] →
    let w := f.width
    let q := s.here.qovf
    let sd : Nat := 0
    let act := (List.range f.count).filter (s.laneOn m)
    s.VSets (.vcmprs f m a d) 10 w 4 6 1 q sd d (s.VSpread [a])
      (fun e => some (match act[e]? with | some x => s.el w a x | none => 0)) ∧
    s.VSets (.vexpnd f m a d) 10 w 4 6 1 q sd d (s.VSpread [a])
      (fun e => if s.laneOn m e = true then some (s.el w a (s.lanesOn m e)) else none) ∧
    s.VLanes (.vmov f m a d) 10 w 4 2 1 m [a] d (fun e => s.el w a e)) ∧
  ∀ (s : State) (d a : Fin 8),
    let r (x : Fin 8) : VReg := Fin.ofNat 32 x.val
    s.VReads [r a] [r d] [] [] → s.VLanes (.vmovC16 d a) 10 32 2 2 1 0 [r a] (r d) (fun e => s.el 32 (r a) e)

/-- VMSK (08 R167): bits 0 to n − 1 of the result, the rest zero. -/
def Sys2Proof.Says.MaskWords : Prop :=
  ∀ (s : State) (f : VFmt) (b a d : MReg) (g : EReg), s.VReads [] [] [a, b] [g] →
    let n := f.count
    let x (e : Nat) := s.laneOn a e
    let y (e : Nat) := s.laneOn b e
    let low (p : Nat → Bool) (e : Nat) : Bool := decide (e < n) && p e
    (d ≠ 0 →
      s.VMasks (.mand f b a d) 11 2 d (low (fun e => x e && y e)) ∧
      s.VMasks (.mor f b a d) 11 2 d (low (fun e => x e || y e)) ∧
      s.VMasks (.mxor f b a d) 11 2 d (low (fun e => x e != y e)) ∧
      s.VMasks (.mnot f a d) 11 2 d (low (fun e => !x e)) ∧
      s.VMasks (.mset f g d) 11 2 d (low (fun e => decide (e < (s.eng.g[g]).toNat)))) ∧
    s.VScalar (.mpop f a g) 11 3 1 s.here.qovf g (BitVec.ofNat 64 (s.lanesOn a n)) ∧
    ∃ v : Word, s.VScalar (.mfirst f a g) 11 3 1 s.here.qovf g v ∧
      ((∀ e, e < n → x e = false) ∧ v = BitVec.allOnes 64 ∨
        ∃ e, e < n ∧ x e = true ∧ (∀ k, k < e → x k = false) ∧ v = BitVec.ofNat 64 e)

/-- The unit of a major can take a word in the next CCLK. -/
def Sys2Proof.Machine.State.VIdle (s : State) (major : Nat) : Prop := (s.here.v.busy.find major).getD 0 ≤ s.eng.clk

/-- Every active lane of the 128 has a word of the program's area at its address (R169). -/
def Sys2Proof.Machine.State.LanesIn (s : State) (m : MReg) (addr : Nat → Word) : Prop :=
  ∀ i, i < 128 → s.laneOn m i = true → (addr i).toNat % 4 = 0 ∧ (addr i).toNat + 4 ≤ 0xF0000

/-- The first active lane whose address fails (R169). -/
def Sys2Proof.Machine.State.LaneFails (s : State) (m : MReg) (addr : Nat → Word) (i : Nat) : Prop :=
  i < 128 ∧ s.laneOn m i = true ∧ ¬((addr i).toNat % 4 = 0 ∧ (addr i).toNat + 4 ≤ 0xF0000) ∧
    ∀ j, j < i → s.laneOn m j = true → (addr j).toNat % 4 = 0 ∧ (addr j).toNat + 4 ≤ 0xF0000

/-- What a load of lanes gives (R168, R170): the words at the addresses, each segment with the poison of the sectors its
lanes come from. -/
def Sys2Proof.Machine.State.VLoads (s : State) (i : Instr) (len bound interval : Nat) (m : MReg) (d : VReg) (addr : Nat → Word) :
    Prop :=
  ∃ src : BitVec 8,
    (∀ g, g < 8 → (src.getLsbD g = true ↔
      ∃ e, e < 128 ∧ s.laneOn m e = true ∧ e / 16 = g ∧ s.here.spad.bad (addr e).toNat 4 = true)) ∧
    s.VSets i 12 32 len bound interval s.here.qovf 0 d src
      (fun e => if s.laneOn m e = true ∧ e < 128 then some (BitVec.ofNat 32 (s.ownBytes (addr e).toNat 4)) else none)

/-- What a store of lanes leaves (R168, R170): a byte that lanes write holds the last such lane's, every other byte is as
before; a sector takes poison from a poisoned lane and loses it when clean lanes write all of it; no register changes. -/
def Sys2Proof.Machine.State.VStores (s : State) (i : Instr) (len bound interval : Nat) (m : MReg) (v : VReg) (addr : Nat → Word) :
    Prop :=
  let covers (e b : Nat) : Prop := e < 128 ∧ s.laneOn m e = true ∧ (addr e).toNat ≤ b ∧ b < (addr e).toNat + 4
  ∃ t, exec i s = .next t ∧
    (s.updHere (fun c => { c with spad := t.here.spad })).VAfter t 12 len bound interval [] s.here.qovf 0 ∧
    t.here.v.v = s.here.v.v ∧ t.here.v.vp = s.here.v.vp ∧ t.here.v.m = s.here.v.m ∧ t.eng.g = s.eng.g ∧
    t.here.spad.full = s.here.spad.full ∧
    (∀ b, (∀ e, ¬covers e b) → Mem.read t.here.spad.bytes b = Mem.read s.here.spad.bytes b) ∧
    (∀ b e, covers e b → (∀ k, e < k → ¬covers k b) →
      Mem.read t.here.spad.bytes b = s.el 8 v (4 * e + (b - (addr e).toNat))) ∧
    ∀ q, (t.here.spad.poison.contains q = true ↔
      (∃ e b, covers e b ∧ b / 64 = q ∧ (s.here.v.vp[v]).getLsbD (e / 16) = true) ∨
      s.here.spad.poison.contains q = true ∧ ∃ b, b / 64 = q ∧ ∀ e, ¬covers e b)

/-- VLD, VST, VLDS, VSTS, VLDX, VSTX and the compact words (08 R168-R170, 05 Table 5.13). A bad address traps at the
first active lane that has one; VLD and VST want a multiple of 16 when a lane is active (its detail: log 24). -/
def Sys2Proof.Says.VectorMemory : Prop :=
  ∀ (s : State) (m : MReg) (e es : EReg) (v : VReg) (i : BitVec 9) (x : Fin 16) (dl al : Fin 8) (j : BitVec 5),
    Memory.wf s.here.spad.bytes = true → s.here.spad.poison.Pairwise (· < ·) →
    let base := s.eng.g[e]
    let a := base + i.signExtend 64 * 16
    let near (a : Word) (k : Nat) : Word := a + BitVec.ofNat 64 (4 * k)
    let far (k : Nat) : Word := base + BitVec.ofNat 64 k * s.eng.g[es]
    let xr : VReg := Fin.ofNat 32 x.val
    let idx (k : Nat) : Word := base + (s.el 32 xr k).setWidth 64
    let c := s.eng.g[(Fin.ofNat 16 al.val : SReg)] + j.setWidth 64 * 16
    let vl : VReg := Fin.ofNat 32 dl.val
    let aligned (a : Word) (m : MReg) : Prop := a.toNat % 16 = 0 ∨ ∀ k, k < 128 → s.laneOn m k = false
    let fails (i : Instr) (addr : Nat → Word) : Prop := s.VIdle 12 → ∀ k, s.LaneFails m addr k →
      s.StreamTraps i (if (addr k).toNat % 4 ≠ 0 then cALIGN else cAPERTURE) (addr k)
    (s.VReads [] [v] [m] [e] →
      (aligned a m → s.LanesIn m (near a) → s.VLoads (.vld i m e v) 4 8 1 m v (near a)) ∧
      (aligned a m → fails (.vld i m e v) (near a)) ∧
      (¬aligned a m → s.VIdle 12 → s.StreamTraps (.vld i m e v) cALIGN a)) ∧
    (s.VReads [v] [] [m] [e] →
      (aligned a m → s.LanesIn m (near a) → s.VStores (.vst i m e v) 4 8 1 m v (near a)) ∧
      (aligned a m → fails (.vst i m e v) (near a)) ∧
      (¬aligned a m → s.VIdle 12 → s.StreamTraps (.vst i m e v) cALIGN a)) ∧
    (s.VReads [] [vl] [] [Fin.ofNat 16 al.val] → aligned c 0 → s.LanesIn 0 (near c) →
      s.VLoads (.vldC16 dl al j) 2 8 1 0 vl (near c)) ∧
    (s.VReads [vl] [] [] [Fin.ofNat 16 al.val] → aligned c 0 → s.LanesIn 0 (near c) →
      s.VStores (.vstC16 dl al j) 2 8 1 0 vl (near c)) ∧
    (s.VReads [] [v] [m] [e, es] →
      (s.LanesIn m far → s.VLoads (.vlds es m e v) 4 40 32 m v far) ∧ fails (.vlds es m e v) far) ∧
    (s.VReads [v] [] [m] [e, es] →
      (s.LanesIn m far → s.VStores (.vsts es m e v) 4 40 32 m v far) ∧ fails (.vsts es m e v) far) ∧
    (s.VReads [xr] [v] [m] [e] →
      (s.LanesIn m idx → s.VLoads (.vldx x m e v) 4 40 32 m v idx) ∧ fails (.vldx x m e v) idx) ∧
    (s.VReads [v, xr] [] [m] [e] →
      (s.LanesIn m idx → s.VStores (.vstx x m e v) 4 40 32 m v idx) ∧ fails (.vstx x m e v) idx)

/-- No word has written a tile since the last point that a counter orders, and the array word in execution does not work
on it (08 R173). -/
def Sys2Proof.Machine.State.TileSettled (s : State) (z : ZReg) : Prop :=
  (∀ e ∈ s.eng.stale, e.1 ≠ z) ∧ ∀ x, s.here.m.arr = some x → x.word.target ≠ some z

/-- VLDZ and VSTZ (08 R172, R173): rows 2p and 2p + 1 of a tile to and from the two halves of a v register. Where the M
stream works on the tile with no counter between, VLDZ reads in each element the value of one of the tiles that the race
lets it see. -/
def Sys2Proof.Says.AccumulatorAccess : Prop :=
  ∀ (s : State) (m : MReg) (p : Fin 32) (z : ZReg) (v : VReg),
    let tile := s.here.m.z[z]
    let row (r : Nat) : Fin 64 := Fin.ofNat 64 r
    (s.VReads [] [v] [m] [] → ∃ t, exec (.vldz m p z v) s = .next t ∧
      (∀ r, r ≠ v → t.here.v.v[r] = s.here.v.v[r] ∧ t.here.v.vp[r] = s.here.v.vp[r]) ∧
      ∀ e, e < 128 → if s.laneOn m e = true then ∃ x ∈ tile :: s.racing z,
          t.el 32 v e = (x.rows[row (2 * p.val + e / 64)]).extractLsb' (32 * (e % 64)) 32
        else t.el 32 v e = s.el 32 v e) ∧
    (s.VReads [] [v] [m] [] → s.TileSettled z → ∃ src : BitVec 8,
      (∀ g, g < 8 → src.getLsbD g = tile.poison.getLsbD (2 * p.val + g / 4)) ∧
      s.VSets (.vldz m p z v) 13 32 4 10 1 s.here.qovf 0 v src
        (fun e => if s.laneOn m e = true ∧ e < 128 then
          some ((tile.rows[row (2 * p.val + e / 64)]).extractLsb' (32 * (e % 64)) 32) else none)) ∧
    (s.VReads [v] [] [m] [] → s.TileSettled z → ∃ t, exec (.vstz m p z v) s = .next t ∧
      (s.updHere (fun c => { c with m := { c.m with z := t.here.m.z } })).VAfter t 13 4 10 1 [] s.here.qovf 0 ∧
      t.here.v.v = s.here.v.v ∧ t.here.v.vp = s.here.v.vp ∧ t.here.v.m = s.here.v.m ∧ t.eng.g = s.eng.g ∧
      (∀ y, y ≠ z → t.here.m.z[y] = s.here.m.z[y]) ∧
      (∀ r : Fin 64, r.val / 2 ≠ p.val → t.here.m.z[z].rows[r] = tile.rows[r]) ∧
      (∀ r k, r < 2 → k < 64 → (t.here.m.z[z].rows[row (2 * p.val + r)]).extractLsb' (32 * k) 32 =
        if s.laneOn m (64 * r + k) = true then s.el 32 v (64 * r + k)
        else (tile.rows[row (2 * p.val + r)]).extractLsb' (32 * k) 32) ∧
      ∀ r, r < 64 → (t.here.m.z[z].poison.getLsbD r = true ↔
        if r / 2 = p.val then
          ((∃ k, k < 64 ∧ s.laneOn m (64 * (r % 2) + k) = true) ∧
            ∃ g, g < 4 ∧ (s.here.v.vp[v]).getLsbD (4 * (r % 2) + g) = true) ∨
          ((∃ k, k < 64 ∧ s.laneOn m (64 * (r % 2) + k) = false) ∧ tile.poison.getLsbD r = true)
        else tile.poison.getLsbD r = true))

/-- VMRG.KZ, VMRG.DZ and VMRGC (08 R174-R176): the sorted union of two index lists with their values, padded with the end
mark; VMRGC counts what was consumed and put out; time 6 CCLK and one for each step. -/
def Obligations.MergeWords : Prop :=
  ∀ (s : State) (f : VFmt) (b a d : VReg) (g : EReg) (dz : Bool), f.isMerge = true → d.val % 2 = 0 →
    let srcs := [a, a + 1, b, b + 1]
    let q := mergeRun (f == .f32) dz s.here.v.v[a] s.here.v.v[a + 1] s.here.v.v[b] s.here.v.v[b + 1] 257
      { i := 0, j := 0, steps := 0, out := [] }
    let time := if s.myLaunch.umbra = true then 262 else min (6 + q.steps) 262
    let out (e : Nat) : Nat × Nat := (q.out.reverse[e]?).getD (0xFFFFFFFF, 0)
    (s.VReads srcs [d, d + 1] [] [] →
      ∃ t, exec (if dz then .vmrgDz f b a d else .vmrgKz f b a d) s = .next t ∧
        s.VAfter t 14 4 time time [.v d, .v (d + 1)] s.here.qovf 0 ∧ t.here.v.m = s.here.v.m ∧ t.eng.g = s.eng.g ∧
        (∀ r, r ≠ d → r ≠ d + 1 → t.here.v.v[r] = s.here.v.v[r] ∧ t.here.v.vp[r] = s.here.v.vp[r]) ∧
        (∀ e, e < 128 → t.el 32 d e = BitVec.ofNat 32 (out e).1 ∧ t.el 32 (d + 1) e = BitVec.ofNat 32 (out e).2) ∧
        t.here.v.vp[d] = s.VSpread srcs ∧ t.here.v.vp[d + 1] = s.VSpread srcs) ∧
    (s.VReads srcs [] [] [] → (∀ r ∈ srcs, s.here.v.vp[r] = 0) →
      s.VScalar (.vmrgc f b a dz g) 14 time time s.here.qovf g
        (BitVec.ofNat 64 (q.i + 2 ^ 16 * q.j + 2 ^ 32 * q.out.length)))

/-- What a merge puts out (08 R174): with lists that ascend up to their end mark, the indices put out ascend, and without
dropping zeros they are those of both lists that come before what is left. -/
def Obligations.MergesAreSorted : Prop :=
  ∀ (f32 dz : Bool) (ia xa ib xb : Vec),
    let at_ (x : Vec) (i : Nat) : Nat := (x.extractLsb' (32 * i) 32).toNat
    let ascends (x : Vec) : Prop := ∀ i j, i < j → j < 128 → at_ x i < at_ x j ∨ at_ x i = 0xFFFFFFFF ∧ at_ x j = 0xFFFFFFFF
    ascends ia → ascends ib →
    let q := mergeRun f32 dz ia xa ib xb 257 { i := 0, j := 0, steps := 0, out := [] }
    (q.out.reverse.map (fun x => x.1)).Pairwise (fun x y => x < y) ∧ q.out.length ≤ 128 ∧ q.i ≤ 128 ∧ q.j ≤ 128 ∧
    (∀ x ∈ q.out, (∃ i, i < q.i ∧ at_ ia i = x.1) ∨ ∃ j, j < q.j ∧ at_ ib j = x.1) ∧
    (dz = false →
      (∀ i, i < q.i → ∃ x ∈ q.out, x.1 = at_ ia i) ∧ (∀ j, j < q.j → ∃ x ∈ q.out, x.1 = at_ ib j))

/-- VSTRM and VSTRMX (08 R177, R179): a sound descriptor binds the register; a field that fails traps with its offset;
VSTRMX unbinds, after the words before it have completed where the stream writes, and traps for a register that is not
bound. -/
def Sys2Proof.Says.StreamBinding : Prop :=
  ∀ (s : State) (a : EReg) (d : VReg),
    let x := (s.eng.g[a]).toNat
    let field (off n : Nat) : Nat := s.ownBytes (x + off) n
    let base := field 0 8
    let stride : Int := (BitVec.ofNat 64 (field 8 8)).toInt
    let count := field 16 4
    let flags := field 20 2
    let counter := field 22 1
    let last : Int := base + (count - 1 : Nat) * stride
    let good (f : Nat) : Prop :=
      (0 < f → base % 16 = 0 ∧ base + 512 ≤ 0xF0000) ∧ (8 < f → stride % 16 = 0) ∧ (16 < f → 1 ≤ count ∧ count ≤ 1048576) ∧
      (20 < f → flags = 0 ∨ flags = 1 ∨ flags = 3) ∧ (22 < f → counter < 32) ∧ (23 < f → field 23 9 = 0)
    (s.VReads [] [] [] [a] → x % 16 = 0 → x + 32 ≤ 0xF0000 →
      (good 24 → 0 ≤ last → last + 512 ≤ 0xF0000 → s.here.v.binds.find d.val = none →
        ∃ t, exec (.vstrm a d) s = .next t ∧
          (s.updHere (fun c => { c with v := { c.v with binds := c.v.binds.put d.val {
            base := base
            stride := stride
            count := count
            write := decide (flags ≠ 0)
            counter := if flags = 3 then some (Fin.ofNat 32 counter) else none
            pos := 0
            fetched := [] } } })).VAfter t 15 4 4 1 [] s.here.qovf 0 ∧
          t.here.v.v = s.here.v.v ∧ t.here.v.vp = s.here.v.vp ∧ t.here.v.m = s.here.v.m ∧ t.eng.g = s.eng.g) ∧
      (s.VIdle 15 → ∀ f ∈ [0, 8, 16, 20, 22, 23], good f → ¬good (f + 1) →
        s.StreamTraps (.vstrm a d) cSTREAM (BitVec.ofNat 64 f)) ∧
      (s.VIdle 15 → good 24 → 0 ≤ last → last + 512 ≤ 0xF0000 → (s.here.v.binds.find d.val).isSome →
        s.StreamTraps (.vstrm a d) cSTREAM 0x20)) ∧
    (∀ b, s.VReads [] [] [] [] → s.here.v.binds.find d.val = some b →
      (b.write = false ∨ ∀ f ∈ s.eng.flights, ∃ dl ds p, f = .word dl ds p true) →
      ∃ t, exec (.vstrmx d) s = .next t ∧
        (s.updHere (fun c => { c with v := { c.v with binds := c.v.binds.del d.val } })).OnlyEngine t (s.eng.sends 4 0 [])) ∧
    (s.VReads [] [] [] [] → s.here.v.binds.find d.val = none → ∃ w, s.StreamTraps (.vstrmx d) cSTREAM w)

/-- Bound registers (08 R178), with VMOV as the word: a read-bound source delivers its next vector, or waits for it; a
write-bound destination stores the vector and counts when that is performed; at the stream's end, or in the wrong
direction, the word traps with STREAM. -/
def Sys2Proof.Says.BoundRegisters : Prop :=
  ∀ (s : State) (a d : VReg) (b : Binding), s.cur.stream = .v → (∃ p, s.eng.run = some p) → a ≠ d → s.VIdle 10 →
    s.eng.inFlight (.v a) = false →
    let i : Instr := .vmov .f32 0 a d
    (s.here.v.binds.find a.val = some b → s.here.v.binds.find d.val = none →
      (b.write = true ∨ b.count ≤ b.pos → ∃ w, s.StreamTraps i cSTREAM w) ∧
      (b.write = false → b.pos < b.count → b.fetched = [] → ∃ t, exec i s = .next t ∧ s.OnlyEngine t
        { s.eng with wait := some (.vector a), waitSince := if s.eng.wait = some (.vector a) then s.eng.waitSince else s.now }) ∧
      (∀ x rest, b.write = false → b.pos < b.count → b.fetched = x :: rest →
        let u := s.updHere (fun c => { c with v := { c.v with
          v := c.v.v.set a x.1
          vp := c.v.vp.set a x.2
          binds := c.v.binds.put a.val { b with pos := b.pos + 1, fetched := rest } } })
        ∃ t, exec i s = .next t ∧ u.VAfter t 10 4 2 1 [.v d] s.here.qovf 0 ∧ t.here.v.m = s.here.v.m ∧
          t.eng.g = s.eng.g ∧ (∀ r, r ≠ d → t.here.v.v[r] = u.here.v.v[r] ∧ t.here.v.vp[r] = u.here.v.vp[r]) ∧
          t.here.v.v[d] = x.1 ∧ t.here.v.vp[d] = x.2)) ∧
    (s.here.v.binds.find a.val = none → s.here.v.binds.find d.val = some b →
      (b.write = false ∨ b.count ≤ b.pos → ∃ w, s.StreamTraps i cSTREAM w) ∧
      (b.write = true → b.pos < b.count → Memory.wf s.here.spad.bytes = true → 0 ≤ (b.base : Int) + b.pos * b.stride →
        let off := ((b.base : Int) + b.pos * b.stride).toNat
        ∃ t, exec i s = .next t ∧ s.OnlyHere t ∧
          t.here.v.v[d] = s.here.v.v[a] ∧ t.here.v.vp[d] = s.here.v.vp[a] ∧
          (∀ r, r ≠ d → t.here.v.v[r] = s.here.v.v[r] ∧ t.here.v.vp[r] = s.here.v.vp[r]) ∧
          t.here.v.binds = s.here.v.binds.put d.val { b with pos := b.pos + 1 } ∧
          t.here.spad.full = s.here.spad.full ∧ t.here.k = s.here.k ∧ t.here.fibres = s.here.fibres ∧ t.here.m = s.here.m ∧
          t.here.v.m = s.here.v.m ∧ t.eng.g = s.eng.g ∧
          (∀ k, k < 512 → Mem.read t.here.spad.bytes (off + k) = s.el 8 a k) ∧
          (∀ k, k < off ∨ off + 512 ≤ k → Mem.read t.here.spad.bytes k = Mem.read s.here.spad.bytes k) ∧
          (∀ k, b.counter = some k → Flight.word (s.eng.clk + 2) [] (some { k := k, n := 1, word := s.epc }) false ∈ t.eng.flights)))

/-! ## M words (09, 10) -/

/-- The M stream stands at a word, no word in flight writes the q registers of the list (05 R87), and the array has
performed the words before it (09 R185; `ArrayOrder` says what an array word does while another is in the array). -/
def Sys2Proof.Machine.State.MReads (s : State) (qs : List QReg) : Prop :=
  s.cur.stream = .m ∧ (∃ p, s.eng.run = some p) ∧ (∀ r ∈ qs, s.eng.inFlight (.g r) = false) ∧ s.eng.stopped = false ∧
    ∀ x, s.here.m.arr = some x → ∃ e, x.word = .failed e

/-- What an array word of `len` bytes leaves beside the tiles it writes (09 R185): the array is taken for `time` CCLK from
the CCLK in which the word issues, one more word has issued, and the engine stands past it with `dests` in flight for
`bound` CCLK, or the word `w` in execution; QOVF, MCONF and the scratchpad have the given values, the generator has stepped
`n` times and nothing else of the cell differs. -/
def Sys2Proof.Machine.State.MAfter (s t : State) (len time bound : Nat) (dests : List Dest) (w : Option ArrWord) (q : Bool)
    (n : Nat) (conf : Word) (p : Spad) : Prop :=
  let e := { s.eng with clk := max s.eng.clk s.here.m.arrFree }
  let number := s.here.m.issued + 1
  let fl : List Dest := match w with | some x => [if x.inParts = true then .part else .arr number] | none => dests
  s.OnlyHere t ∧ t.here = { s.here with
      m := t.here.m, qovf := q, seed := Nat.repeat seedStep n s.here.seed, late := s.here.lateAfter n q, spad := p } ∧
    t.here.m.mconf = conf ∧
    t.here.m.issued = number ∧
    t.here.m.arr =
      w.map (fun x => { word := x, seq := number, began := e.clk, past := [], base := none, raced := 0 }) ∧
    t.here.m.arrFree = e.clk + time ∧ t.eng = { e.sends len bound fl with g := t.eng.g }

/-- The V unit once the tile `z`, which was `old`, has a new value: a VLDZ of the running stream may still read the old one
(08 R173). -/
def Sys2Proof.Machine.VUnit.aged (v : VUnit) (z : ZReg) (old : Tile) : VUnit :=
  if v.eng.run = none then v else { v with eng := { v.eng with stale := v.eng.stale ++ [(z, old)] } }

/-- An array word is in execution, and gives one tile a new value, which `P` describes, when it performs its effects (09
R185, R186). -/
def Sys2Proof.Machine.State.MTile (s : State) (i : Instr) (len time bound : Nat) (z : ZReg) (P : Tile → Prop) : Prop :=
  ∃ t w, exec i s = .next t ∧ w.inParts = false ∧
    s.MAfter t len time bound [] (some w) s.here.qovf 0 s.here.m.mconf s.here.spad ∧
    t.eng.g = s.eng.g ∧ t.here.m.z = s.here.m.z ∧
    let u := t.arrPerform s.cur.cell
    t.OnlyHere u ∧
      u.here = { t.here with m := { t.here.m with z := u.here.m.z, arr := none }, v := t.here.v.aged z s.here.m.z[z] } ∧
      (∀ y, y ≠ z → u.here.m.z[y] = s.here.m.z[y]) ∧ P u.here.m.z[z]

/-- Rows of a tile from `row0` on take, or add, the products of rows of A with all rows of B, and the poison of what feeds
them (09 R187, R189, R194). -/
def Sys2Proof.Machine.Tile.Accumulates (old new : Tile) (conf : Word) (k row0 : Nat) (clear : Bool) (a : List MatRow)
    (abad : List Bool) (b : List MatRow) (bbad : Bool) : Prop :=
  (∀ i j, i < 64 → j < 64 → new.el i j =
    if row0 ≤ i ∧ i < row0 + a.length then
      accumulate conf k (if clear then 0 else old.el i j) (a.getD (i - row0) ([], [])) (b.getD j ([], [])) % 2 ^ 32
    else old.el i j) ∧
  ∀ i, i < 64 → new.poison.getLsbD i =
    if row0 ≤ i ∧ i < row0 + a.length then bbad || abad.getD (i - row0) false || (!clear && old.poison.getLsbD i)
    else old.poison.getLsbD i

/-- Operand regions (offset, bytes) that pass checks 3 to 5 of 09 R184: aligned, in the program's area, each in one quarter
of the scratchpad and not the same one. -/
def Sys2Proof.regionsOk (a la b lb : Nat) : Prop :=
  a % 16 = 0 ∧ b % 16 = 0 ∧ a + la ≤ 0xF0000 ∧ b + lb ≤ 0xF0000 ∧ a / 0x40000 = (a + la - 1) / 0x40000 ∧
    b / 0x40000 = (b + lb - 1) / 0x40000 ∧ a / 0x40000 ≠ b / 0x40000

/-- A depth that passes check 2 of 09 R184. -/
def Sys2Proof.depthFits (k : Nat) : Prop := k % 32 = 0 ∧ 32 ≤ k ∧ k ≤ 4096

/-- MMA, its compact words and MMA24 (09 R183-R192): when the checks of R184 pass, the tile takes or adds the product of
the tiles at the offsets; array time K over the group size, or R192's for MMA24. -/
def Sys2Proof.Says.MatrixProducts : Prop :=
  ∀ (s : State) (l : Bool) (c b a : QReg) (z : ZReg),
    let conf := s.here.m.mconf
    let p := s.here.spad
    let k (c : QReg) := (s.eng.g[c]).toNat
    let av := (s.eng.g[a]).toNat
    let bv := (s.eng.g[b]).toNat
    let mx := confMx conf
    let fa := confA conf
    let fb := confB conf
    let mma (i : Instr) (len : Nat) (clear : Bool) (c : QReg) : Prop :=
      let n := k c
      depthFits n → regionsOk av (tileBytes fa mx 64 n) bv (tileBytes fb mx 64 n) →
      s.MTile i len (n / groupSize fa) (n / groupSize fa + 32) z (fun t =>
        s.here.m.z[z].Accumulates t conf n 0 clear (p.tileRows fa mx av 64 n) (p.tilePoison fa mx av 64 n)
          (p.tileRows fb mx bv 64 n) (p.bad bv (tileBytes fb mx 64 n)))
    (s.MReads [c, b, a] → mma (.mma l c b z a) 4 l c) ∧
    (s.MReads [0, b, a] → mma (.mmaC16 z a b) 2 false 0 ∧ mma (.mmaClrC16 z a b) 2 true 0) ∧
    (s.MReads [c, b, a] → depthFits (k c) → fa = .e4m3 → fb = .e4m3 ∨ fb = .e5m2 → mx = false →
      regionsOk av (40 * k c) bv (64 * k c) →
      let n := k c
      let moff := av + 32 * n
      let nibble (i q : Nat) : Nat := s.ownBytes (moff + i * (n / 8) + q / 2) 1 / 16 ^ (q % 2) % 16
      (∀ i q, i < 64 → q < n / 4 → nibble i q % 4 < nibble i q / 4) →
      s.MTile (.mma24 l c b z a) 4 (n / 8 + max 2 (n / 128)) (n / 8 + max 2 (n / 128) + 32) z (fun t =>
        ∃ rows abad, rows.length = 64 ∧
          (∀ i, i < 64 → rows.getD i ([], []) = ((List.range n).map (fun e =>
            let g := nibble i (e / 4)
            let v (h : Nat) := matVal .e4m3 (s.ownBytes (av + i * (n / 2) + 2 * (e / 4) + h) 1)
            if e % 4 = g % 4 then v 0 else if e % 4 = g / 4 then v 1 else (false, FVal.zero false)), [])) ∧
          (∀ i, i < 64 → abad.getD i false = (p.bad (av + i * (n / 2)) (n / 2) || p.bad (moff + i * (n / 8)) (n / 8))) ∧
          s.here.m.z[z].Accumulates t conf n 0 l rows abad (p.tileRows fb false bv 64 n)
            (p.bad bv (tileBytes fb false 64 n))))

/-- Integer products (09 R189; 07 R145): with I8 operands each element of the tile has the exact sum of the products of
signed bytes of row i of A and row j of B added to it, modulo 2^32. -/
def Sys2Proof.Says.IntegerProducts : Prop :=
  ∀ (s : State) (l : Bool) (c b a : QReg) (z : ZReg), s.MReads [c, b, a] → s.here.m.mconf = 0xAA →
    let n := (s.eng.g[c]).toNat
    let av := (s.eng.g[a]).toNat
    let bv := (s.eng.g[b]).toNat
    let elt (off i k : Nat) : Int := (Mem.read s.here.spad.bytes (off + i * n + k)).toInt
    depthFits n → regionsOk av (64 * n) bv (64 * n) →
    ∃ t, exec (.mma l c b z a) s = .next t ∧ ∀ i j, i < 64 → j < 64 →
      BitVec.ofNat 32 ((t.arrPerform s.cur.cell).here.m.z[z].el i j) =
        (if l then 0 else BitVec.ofNat 32 (s.here.m.z[z].el i j)) +
          BitVec.ofInt 32 ((List.range n).map (fun k => elt av i k * elt bv j k)).sum

/-- The checks of MMA at issue in their order (09 R184, Table 9.3): the class and the detail of the first that fails. -/
def Sys2Proof.Says.MatrixChecks : Prop :=
  ∀ (s : State) (l : Bool) (c b a : QReg) (z : ZReg), s.MReads [c, b, a] → s.here.m.arrFree ≤ s.eng.clk →
    let conf := s.here.m.mconf
    let n := (s.eng.g[c]).toNat
    let av := (s.eng.g[a]).toNat
    let bv := (s.eng.g[b]).toNat
    let la := tileBytes (confA conf) (confMx conf) 64 n
    let lb := tileBytes (confB conf) (confMx conf) 64 n
    let quarters (x len : Nat) : Nat := x / 0x40000 + 4 * ((x + len - 1) / 0x40000)
    let traps (cls : Nat) (d : Word) : Prop := s.StreamTraps (.mma l c b z a) cls d
    (¬depthFits n → traps cILLEGAL s.eng.g[c]) ∧
    (depthFits n → av % 16 ≠ 0 → traps cALIGN s.eng.g[a]) ∧
    (depthFits n → av % 16 = 0 → bv % 16 ≠ 0 → traps cALIGN s.eng.g[b]) ∧
    (depthFits n → av % 16 = 0 → bv % 16 = 0 → 0xF0000 < av + la → traps cAPERTURE s.eng.g[a]) ∧
    (depthFits n → av % 16 = 0 → bv % 16 = 0 → av + la ≤ 0xF0000 → 0xF0000 < bv + lb → traps cAPERTURE s.eng.g[b]) ∧
    (depthFits n → av % 16 = 0 → bv % 16 = 0 → av + la ≤ 0xF0000 → bv + lb ≤ 0xF0000 → ¬regionsOk av la bv lb →
      traps cBANKGRP (BitVec.ofNat 64 (quarters av la + 16 * quarters bv lb)))

/-- MMAC and MMAC_CHAIN_START (09 R190): an MMAC whose checks pass and whose chain lies in the rectangle waits at the
rendezvous; when every cell of the chain waits there with matching values, each runs its word with the first cell's A
and its own B, from 2 (n − 1) CCLK after the last of them has issued, the array taken K over the group size and its
position; a cell whose neighbour in the chain waits there with other values traps with STREAM (its detail: log 67). -/
def Obligations.Chains : Prop :=
  (∀ (s : State) (p n : Fin 4) (l : Bool) (c b a : QReg) (z : ZReg), s.MReads [c, b, a] → s.here.m.arrFree ≤ s.eng.clk →
    let conf := s.here.m.mconf
    let k := (s.eng.g[c]).toNat
    let av := (s.eng.g[a]).toNat
    let bv := (s.eng.g[b]).toNat
    let lb := tileBytes (confB conf) (confMx conf) 64 k
    let w : EWait := .chain (n.val + 1) p.val s.eng.g[c] conf l z av bv
    depthFits k →
    (p = 0 → regionsOk av (tileBytes (confA conf) (confMx conf) 64 k) bv lb) →
    (p ≠ 0 → bv % 16 = 0 ∧ bv + lb ≤ 0xF0000 ∧ bv / 0x40000 = (bv + lb - 1) / 0x40000) →
    (p.val ≤ s.here.x ∧ s.here.x - p.val + n.val < s.myLaunch.w → ∃ t, exec (.mmac p n l c b z a) s = .next t ∧
      s.OnlyEngine t
        { s.eng with wait := some w, waitSince := if s.eng.wait = some w then s.eng.waitSince else s.now }) ∧
    (¬(p.val ≤ s.here.x ∧ s.here.x - p.val + n.val < s.myLaunch.w) →
      s.StreamTraps (.mmac p n l c b z a) cAPERTURE (BitVec.ofInt 64 ((s.here.x : Int) - p.val)))) ∧
  (∀ (s : State) (head n q : Nat) (k conf : Word) (a : Nat) (w : Nat → Bool × ZReg × Nat × Nat), 2 ≤ n → q < n →
    let fa := confA conf
    let fb := confB conf
    let mx := confMx conf
    let p0 := (s.cell head).spad
    s.active (head + q) = true →
    (∀ i, i < n →
      (s.cell (head + i)).launch = (s.cell (head + q)).launch ∧ (s.cell (head + i)).x = (s.cell head).x + i ∧
      (s.cell (head + i)).m.eng.wait = some (.chain n i k conf (w i).1 (w i).2.1 (w i).2.2.1 (w i).2.2.2)) →
    (w 0).2.2.1 = a →
    let start := (List.range n).foldl (fun m i => max m (s.cell (head + i)).m.eng.clk) s.now + 2 * (n - 1)
    ∃ t, exec (.mmacChainStart (head + q)) s = .next t ∧ t = { s with cells := t.cells, nextId := s.nextId + 1 } ∧
      (∀ c, c < head ∨ head + n ≤ c → t.cell c = s.cell c) ∧
      ∀ i, i < n →
        let x := s.cell (head + i)
        let y := t.cell (head + i)
        let u := (t.arrPerform (head + i)).cell (head + i)
        let b := (w i).2.2.2
        let time := (start - x.m.eng.clk) + k.toNat / groupSize fa + i
        y = { x with m := y.m } ∧ y.m.z = x.m.z ∧ (∀ z, z ≠ (w i).2.1 → u.m.z[z] = x.m.z[z]) ∧
        x.m.z[(w i).2.1].Accumulates u.m.z[(w i).2.1] conf k.toNat 0 (w i).1 (p0.tileRows fa mx a 64 k.toNat)
          (p0.tilePoison fa mx a 64 k.toNat) (x.spad.tileRows fb mx b 64 k.toNat) (x.spad.bad b (tileBytes fb mx 64 k.toNat)) ∧
        y.m.eng = x.m.eng.sends 4 (time + 32) [.arr (x.m.issued + 1)] ∧ y.m.issued = x.m.issued + 1 ∧
        y.m.arrFree = x.m.eng.clk + time) ∧
  ∀ (s : State) (c p n p' n' a b a' b' : Nat) (k conf k' conf' : Word) (l l' : Bool) (z z' : ZReg),
    s.active c = true → (s.cell c).m.eng.wait = some (.chain n p k conf l z a b) → p + 1 < n →
    (s.cell (c + 1)).m.eng.wait = some (.chain n' p' k' conf' l' z' a' b') → 0 < p' →
    (s.cell (c + 1)).launch = (s.cell c).launch → (s.cell (c + 1)).x = (s.cell c).x + 1 →
    ¬(n' = n ∧ p' = p + 1 ∧ k' = k ∧ conf' = conf) →
    exec (.mmacChainStart c) s = .next (s.asM c (fun u => u.etrap cSTREAM (Config.chainDetail n' p' k' conf')))

/-- MZERO, MZLD, MXP (09 R195, R196, R199) and their compact word: what the tile holds, its row poison and the time. -/
def Sys2Proof.Says.TileMoves : Prop :=
  ∀ (s : State) (z src : ZReg) (a : QReg),
    let old := s.here.m.z[z]
    let from_ := s.here.m.z[src]
    let x := (s.eng.g[a]).toNat
    (s.MReads [] →
      s.MTile (.mzero z) 4 2 20 z (fun t => t = .zero) ∧ s.MTile (.mzeroC16 z) 2 2 20 z (fun t => t = .zero) ∧
      s.MTile (.mxpMov src z) 4 64 88 z (fun t => t = from_) ∧
      s.MTile (.mxpTrn src z) 4 64 88 z (fun t =>
        (∀ i j, i < 64 → j < 64 → t.el i j = from_.el j i) ∧
        ∀ i, i < 64 → (t.poison.getLsbD i = true ↔ from_.poison ≠ 0)) ∧
      s.MTile (.mxpAdd src z) 4 64 88 z (fun t =>
        (∀ i j, i < 64 → j < 64 → t.el i j =
          if confI32 s.here.m.mconf then (old.el i j + from_.el i j) % 2 ^ 32
          else (f32Add (BitVec.ofNat 32 (old.el i j)) (BitVec.ofNat 32 (from_.el i j))).toNat) ∧
        t.poison = old.poison ||| from_.poison)) ∧
    (s.MReads [a] →
      (x % 16 = 0 → x + 16384 ≤ 0xF0000 → s.MTile (.mzld z a) 4 32 56 z (fun t =>
        (∀ i j, i < 64 → j < 64 → t.el i j = s.ownBytes (x + 256 * i + 4 * j) 4) ∧
        ∀ i, i < 64 → t.poison.getLsbD i = s.here.spad.bad (x + 256 * i) 256)) ∧
      (s.here.m.arrFree ≤ s.eng.clk → x % 16 ≠ 0 → s.StreamTraps (.mzld z a) cALIGN s.eng.g[a]) ∧
      (s.here.m.arrFree ≤ s.eng.clk → x % 16 = 0 → 0xF0000 < x + 16384 → s.StreamTraps (.mzld z a) cAPERTURE s.eng.g[a]))

/-- MZST with and without a column map (09 R186, R197, R198; 07 R136, R137, R150): once the word has performed its effects,
element [i][j], converted under the mode, stands in column map j of row i; a row takes the poison of its row of the tile;
nothing else of the scratchpad changes. -/
def Sys2Proof.Says.TileStores : Prop :=
  ∀ (s : State) (novf : Bool) (r : RMode) (f : Fmt) (c b a : QReg) (z : ZReg), f.isMzst = true →
    Memory.wf s.here.spad.bytes = true → s.here.spad.poison.Pairwise (· < ·) →
    let conf := s.here.m.mconf
    let x := (s.eng.g[a]).toNat
    let rb := 8 * f.width
    let stride := if s.eng.g[c] = 0 then rb else (s.eng.g[c]).toNat
    let el (old : Nat → W32) (i j : Nat) : Nat × Bool := storeEl (confI32 conf) ((conf.extractLsb' 16 6).toNat) f r novf
      (if r = .rsn then (Nat.repeat seedStep (64 * i + j + 1) (old (64 * i + j))).toNat else 0)
      (s.here.m.z[z].el i j)
    let covered (i o : Nat) : Prop := i < 64 ∧ x + i * stride ≤ o ∧ o < x + i * stride + rb
    let stores (i : Instr) (map : Nat → Nat) : Prop :=
      (confI32 conf = true → f ≠ .q64) → rb ≤ stride → x % 16 = 0 → stride % 16 = 0 → x + 63 * stride + rb ≤ 0xF0000 →
      ∃ t w q old, s.Draws old ∧ exec i s = .next t ∧ w.inParts = false ∧
        s.MAfter t 4 64 88 [] (some w) q (if r = .rsn then 4096 else 0) conf t.here.spad ∧ t.here.m.z = s.here.m.z ∧
        t.eng.g = s.eng.g ∧ t.here.spad.full = s.here.spad.full ∧
        let u := t.arrPerform s.cur.cell
        t.OnlyHere u ∧ u.here = { t.here with m := { t.here.m with arr := none }, spad := u.here.spad } ∧
        u.here.spad.full = s.here.spad.full ∧
        (q = true ↔ s.here.qovf = true ∨ ∃ i j, i < 64 ∧ j < 64 ∧ (el old i j).2 = true) ∧
        (∀ i j, i < 64 → j < 64 →
          (BitVec.ofNat (8 * rb) (u.ownBytes (x + i * stride) rb)).extractLsb' (f.width * map j) f.width =
            BitVec.ofNat f.width (el old i j).1) ∧
        (∀ o, (∀ i, ¬covered i o) → Mem.read u.here.spad.bytes o = Mem.read s.here.spad.bytes o) ∧
        ∀ q, (u.here.spad.poison.contains q = true ↔
          (∃ i o, covered i o ∧ o / 64 = q ∧ (s.here.m.z[z].poison).getLsbD i = true) ∨
          s.here.spad.poison.contains q = true ∧ ∃ o, o / 64 = q ∧ ∀ i, ¬covered i o)
    (s.MReads [c, a] → stores (.mzst novf r f c z a) (fun j => j)) ∧
    (s.MReads [c, b, a] →
      let m := (s.eng.g[b]).toNat
      let byte (j : Nat) : Nat := s.ownBytes (m + j) 1
      m % 16 = 0 → m + 64 ≤ 0xF0000 → (∀ j, j < 64 → byte j < 64) → (∀ i j, i < j → j < 64 → byte i ≠ byte j) →
      stores (.mzstCmap novf r f c b z a) byte) ∧
    (s.MReads [c, b, a] → s.here.m.arrFree ≤ s.eng.clk →
      let m := (s.eng.g[b]).toNat
      let byte (j : Nat) : Nat := s.ownBytes (m + j) 1
      m % 16 = 0 → m + 64 ≤ 0xF0000 → ∀ j, j < 64 → (64 ≤ byte j ∨ ∃ i, i < j ∧ byte i = byte j) →
      (∀ k, k < j → byte k < 64 ∧ ∀ i, i < k → byte i ≠ byte k) →
      s.StreamTraps (.mzstCmap novf r f c b z a) cSPMETA (BitVec.ofNat 64 j))

/-- MCFG, MCFG.RD, MPROG and MZPOI (09 R182, R200, R201): a value that breaks Table 9.2 traps with MCONF unchanged. -/
def Sys2Proof.Says.MatrixRegisters : Prop :=
  (∀ (s : State) (a : QReg) (z : ZReg), s.MReads [a] →
    let v := s.eng.g[a]
    let old := s.here.m.z[z]
    let fa := (v.extractLsb' 0 4).toNat
    let fb := (v.extractLsb' 4 4).toNat
    let fp8 (n : Nat) : Prop := n = 3 ∨ n = 4
    let sound := v.extractLsb' 22 42 = 0 ∧ v.extractLsb' 9 7 = 0 ∧
      (fa = fb ∧ (fa = 0 ∨ fa = 1 ∨ fa = 2 ∨ fa = 5 ∨ fa = 10) ∨ fp8 fa ∧ fp8 fb) ∧
      (v.getLsbD 8 = true → (fp8 fa ∨ fa = 5) ∧ (fp8 fb ∨ fb = 5))
    let reads (i : Instr) (bound : Nat) (v : Word) : Prop := ∃ t, exec i s = .next t ∧
      s.MAfter t 4 1 bound [.g a] none s.here.qovf 0 s.here.m.mconf s.here.spad ∧ t.here.m.z = s.here.m.z ∧
      t.eng.g = s.eng.g.set a v
    (sound → ∃ t, exec (.mcfg a) s = .next t ∧ s.MAfter t 4 1 2 [] none s.here.qovf 0 v s.here.spad ∧
      t.here.m.z = s.here.m.z ∧ t.eng.g = s.eng.g) ∧
    (¬sound → s.here.m.arrFree ≤ s.eng.clk → s.StreamTraps (.mcfg a) cILLEGAL v) ∧
    reads (.mcfgRd a) 2 s.here.m.mconf ∧
    reads (.mzpoiRd z a) 20 old.poison ∧
    s.MTile (.mzpoiWr z a) 4 1 20 z (fun t => t = { old with poison := v }) ∧
    s.MTile (.mzpoiOr z a) 4 1 20 z (fun t => t = { old with poison := old.poison ||| v }) ∧
    (∃ p, s.StreamWrites (.mprog a) a (BitVec.ofNat 64 (s.here.m.issued % 4096 * 2 ^ 20 + p)) 4 2 ∧
      (s.here.m.arr = none → p = 0) ∧ ∀ x e, s.here.m.arr = some x → x.word = .failed e → p = 16 * e)) ∧
  ∀ (s : State) (a : QReg) (x : ArrExec), s.cur.stream = .m → (∃ p, s.eng.run = some p) → s.here.m.arr = some x →
    let shows (p : Nat) : Prop := s.StreamWrites (.mprog a) a (BitVec.ofNat 64 (s.here.m.issued % 4096 * 2 ^ 20 + p)) 4 2
    (∀ z l n k f e w, x.word = .mmg z l n k f e w → shows (16 * e)) ∧
    (∀ z l p q f c m t h w, x.word = .mmas z l p q f c m t h w → shows c) ∧ (x.word.inParts = false →
      (∀ e, x.word ≠ .failed e) → shows 0)

/-- An array word that issues while another is in the array (09 R185, R186, R193): the other performs its effects first; it
waits for one that runs in parts. -/
def Sys2Proof.Says.ArrayOrder : Prop :=
  ∀ (s : State) (i : Instr), s.cur.stream = .m →
    ((∃ z, i = .mzero z ∨ i = .mzeroC16 z ∨ (∃ a, i = .mzld z a ∨ i = .mzpoiRd z a ∨ i = .mzpoiWr z a ∨ i = .mzpoiOr z a) ∨
        (∃ y, i = .mxpMov y z ∨ i = .mxpTrn y z ∨ i = .mxpAdd y z) ∨ (∃ a b, i = .mmaC16 z a b ∨ i = .mmaClrC16 z a b) ∨
        (∃ l c b a, i = .mma l c b z a ∨ i = .mma24 l c b z a ∨ i = .mmas l b z a ∨ i = .mmg c b z a) ∨
        (∃ p n l c b a, i = .mmac p n l c b z a) ∨
        ∃ o r f c b a, i = .mzst o r f c z a ∨ i = .mzstCmap o r f c b z a) ∨ ∃ a, i = .mcfg a ∨ i = .mcfgRd a) →
    (∀ x, s.here.m.arr = some x → x.word.inParts = false → exec i s = exec i (s.arrPerform s.cur.cell)) ∧
    ∀ x, s.here.m.arr = some x → x.word.inParts = true → s.eng.stopped = false → ∃ t, exec i s = .next t ∧
      s.OnlyEngine t
        { s.eng with wait := some .array, waitSince := if s.eng.wait = some .array then s.eng.waitSince else s.now }

/-! ## Array words that run in parts; steps of the engines without an encoding (05 R73, R86, R87; 09 R193, R194; 10) -/

/-- `t` differs from `s` in one cell only. -/
def Sys2Proof.Machine.State.OnlyCell (s t : State) (c : Nat) : Prop :=
  t = { s with cells := t.cells } ∧ ∀ d, d ≠ c → t.cell d = s.cell d

/-- An array word that runs in parts is taken: it stands in the array for `time` CCLK to begin with, and its flight carries
the produce of its TOK until its last part. -/
def Sys2Proof.Machine.State.ArrayTakes (s : State) (i : Instr) (w : ArrWord) (time : Nat) : Prop :=
  ∃ t, exec i s = .next t ∧ s.MAfter t 4 time 0 [] (some w) s.here.qovf 0 s.here.m.mconf s.here.spad ∧ t.eng.g = s.eng.g ∧
    t.here.m.z = s.here.m.z

/-- The array word `w` that runs in parts is in execution, its flight before those of other words, and neither the
scratchpad nor its tile has been written since it began. -/
def Sys2Proof.Machine.State.PartRuns (s : State) (w : ArrWord) (began : Nat) (rest : List Flight) : Prop :=
  (∃ n, s.here.m.arr = some { word := w, seq := n, began := began, past := [], base := none, raced := 0 }) ∧
    (∃ dl, s.here.m.eng.flights = .word dl [.part] none false :: rest) ∧ ∀ f ∈ rest, ∃ dl ds q d, f = .word dl ds q d

/-- After a part of an array word: it goes on as `w`. -/
def Sys2Proof.Machine.State.PartGoesOn (s t : State) (w : ArrWord) : Prop :=
  t.here.m.arr = s.here.m.arr.map (fun x => { x with word := w }) ∧ t.here.m.eng = s.here.m.eng ∧
    t.here.m.arrFree = s.here.m.arrFree

/-- After the last part of an array word: the array is empty, free from a CCLK on, and the word has completed. -/
def Sys2Proof.Machine.State.PartEnds (s t : State) (free : Nat) (rest : List Flight) : Prop :=
  t.here.m.arr = none ∧ t.here.m.eng = { s.here.m.eng with flights := rest } ∧
    t.here.m.arrFree = max s.here.m.arrFree free

/-- MMG and MMG_ENTRY_BOUNDARY (09 R193, R194): the list is taken when its checks pass; each entry is read when it begins,
checked, and performed with its own rows; entries before a failing one stay performed. -/
def Sys2Proof.Says.GroupedProducts : Prop :=
  (∀ (s : State) (c b a : QReg) (z : ZReg), s.MReads [c, b, a] →
    let n := (s.eng.g[b]).toNat
    let list := (s.eng.g[a]).toNat
    let k := s.eng.g[c]
    let idle := s.here.m.arrFree ≤ s.eng.clk
    let i : Instr := .mmg c b z a
    (idle → 65535 < n → s.StreamTraps i cILLEGAL s.eng.g[b]) ∧
    (idle → n ≤ 65535 → ¬depthFits k.toNat → s.StreamTraps i cILLEGAL k) ∧
    (idle → n ≤ 65535 → depthFits k.toNat → list % 16 ≠ 0 → s.StreamTraps i cALIGN s.eng.g[a]) ∧
    (n ≤ 65535 → depthFits k.toNat → list % 16 = 0 → n = 0 →
      ∃ t, exec i s = .next t ∧ s.MAfter t 4 1 33 [] none s.here.qovf 0 s.here.m.mconf s.here.spad ∧
        t.here.m.z = s.here.m.z ∧ t.eng.g = s.eng.g) ∧
    (idle → n ≤ 65535 → depthFits k.toNat → list % 16 = 0 → n ≠ 0 → 0xF0000 < list + 16 * n →
      s.StreamTraps i cAPERTURE s.eng.g[a]) ∧
    (n ≤ 65535 → depthFits k.toNat → list % 16 = 0 → n ≠ 0 → list + 16 * n ≤ 0xF0000 →
      s.ArrayTakes i (.mmg z list n k s.here.m.mconf 0 s.epc)
        (n * (k.toNat / groupSize (confA s.here.m.mconf) + 2)))) ∧
  ∀ (s : State) (z : ZReg) (list n i began : Nat) (k conf word : Word) (rest : List Flight),
    let c := s.cur.cell
    let p := s.here.spad
    let at_ := list + 16 * i
    let a := s.ownBytes at_ 4
    let b := s.ownBytes (at_ + 4) 4
    let rows := s.ownBytes (at_ + 8) 1
    let zrow := s.ownBytes (at_ + 9) 1
    let flags := s.ownBytes (at_ + 12) 1
    let mx := confMx conf
    let fa := confA conf
    let fb := confB conf
    let la := tileBytes fa mx rows k.toNat
    let lb := tileBytes fb mx 64 k.toNat
    s.PartRuns (.mmg z list n k conf i word) began rest → i < n → s.active c = true →
    a < 2 ^ 20 → b < 2 ^ 20 → zrow + rows ≤ 64 → zrow ≤ 63 → flags ≤ 1 → s.ownBytes (at_ + 13) 3 = 0 →
    a % 16 = 0 → b % 16 = 0 → b + lb ≤ 0xF0000 → b / 0x40000 = (b + lb - 1) / 0x40000 → (la ≠ 0 → regionsOk a la b lb) →
    p.bad b lb = false →
    ∃ t, exec (.mmgEntryBoundary c) s = .next t ∧ s.OnlyHere t ∧
      (∀ y, y ≠ z → t.here.m.z[y] = s.here.m.z[y]) ∧ t.here.spad = s.here.spad ∧ t.here.k = s.here.k ∧
      t.here.fibres = s.here.fibres ∧ t.here.v = (if rows = 0 then s.here.v else s.here.v.aged z s.here.m.z[z]) ∧ t.here.m.mconf = s.here.m.mconf ∧
      s.here.m.z[z].Accumulates t.here.m.z[z] conf k.toNat zrow (flags == 1) (p.tileRows fa mx a rows k.toNat)
        (p.tilePoison fa mx a rows k.toNat) (p.tileRows fb mx b 64 k.toNat) false ∧
      (i + 1 < n → s.PartGoesOn t (.mmg z list n k conf (i + 1) word)) ∧ (i + 1 = n → s.PartEnds t 0 rest)

/-- MMAS and MMAS_CHUNK_BOUNDARY (10 R203-R213): the pair is taken when its checks pass; the setup reads and checks both
tiles; each of the four chunks accumulates the products of its 16 values of k for which both bitmaps have a bit; where a
pre-empt request or cancel is seen the chunk completes and the word halts after it. -/
def Sys2Proof.Says.SparseProducts : Prop :=
  (∀ (s : State) (l : Bool) (b a : QReg) (z : ZReg), s.MReads [b, a] →
    let conf := s.here.m.mconf
    let av := (s.eng.g[a]).toNat
    let bv := (s.eng.g[b]).toNat
    let extent (f : Fmt) : Nat := 0x2D0 + 512 * f.width
    (s.here.m.arrFree ≤ s.eng.clk → confMx conf = true → s.StreamTraps (.mmas l b z a) cILLEGAL conf) ∧
    (confMx conf = false → regionsOk av (extent (confA conf)) bv (extent (confB conf)) →
      s.ArrayTakes (.mmas l b z a) (.mmas z l av bv conf 0 none 0 false s.epc) 4)) ∧
  (∀ (s : State) (c : Nat) (x : ArrExec), (s.cell c).m.arr = some x →
    (∃ z l a b f n md spent w, x.word = .mmas z l a b f n md spent true w) → exec (.mmasChunkBoundary c) s = .next s) ∧
  ∀ (s : State) (z : ZReg) (clear : Bool) (a b : Nat) (conf word : Word) (chunk spent began : Nat) (md : Option SpMeta)
      (m : SpMeta) (rest : List Flight),
    let c := s.cur.cell
    let p := s.here.spad
    let old : Tile := if clear = true ∧ chunk = 0 then .zero else s.here.m.z[z]
    let rowA (i : Nat) : Nat := s.ownBytes (a + 16 + 8 * i) 8
    let rowB (j : Nat) : Nat := s.ownBytes (b + 16 + 8 * j) 8
    let bits (x n : Nat) : Nat := ((List.range n).filter (fun k => x.testBit k)).length
    let offs (t i : Nat) : Nat := s.ownBytes (t + 0x210 + 2 * i) 2
    let values (t : Nat) : Nat := t + (if s.ownBytes (t + 4) 1 % 2 = 1 then 0x2D0 else 0x290)
    let sound (t fmt orient : Nat) : Prop :=
      s.ownBytes t 1 = fmt ∧ s.ownBytes (t + 1) 1 = orient ∧ s.ownBytes (t + 6) 10 = 0 ∧ s.ownBytes (t + 4) 2 ≤ 1 ∧
      (orient = 0 → s.ownBytes (t + 4) 2 = 0) ∧ s.ownBytes (t + 2) 2 ≤ 4096 ∧
      s.ownBytes (t + 2) 2 = ((List.range 64).map (fun i => bits (s.ownBytes (t + 16 + 8 * i) 8) 64)).sum ∧
      ∀ i, i < 64 → offs t i = ((List.range i).map (fun i => bits (s.ownBytes (t + 16 + 8 * i) 8) 64)).sum
    let whole : SpMeta := {
      a := (List.range 64).map rowA
      b := (List.range 64).map rowB
      aoff := (List.range 64).map (offs a)
      boff := (List.range 64).map (offs b)
      abase := values a
      bbase := values b
      skip := false }
    let n := spent + m.chunkTime (s.launchOf c).umbra (groupSize (confA conf)) chunk
    s.PartRuns (.mmas z clear a b conf chunk md spent false word) began rest → chunk < 4 →
    (md = some m ∨ md = none ∧ m = whole) → m = whole → p.bad a 0x290 = false → p.bad b 0x290 = false →
    sound a (conf.extractLsb' 0 4).toNat 0 → sound b (conf.extractLsb' 4 4).toNat 1 →
    (∀ j, j < 64 → p.spRowBad (confB conf) (values b) (rowB j) (offs b j) = false) →
    ∃ t, exec (.mmasChunkBoundary c) s = .next t ∧ s.OnlyHere t ∧
      (∀ y, y ≠ z → t.here.m.z[y] = s.here.m.z[y]) ∧ t.here = { s.here with m := t.here.m, v := s.here.v.aged z s.here.m.z[z] } ∧
      (∀ i j, i < 64 → j < 64 → t.here.m.z[z].el i j =
        spRun (confI32 conf) (groupSize (confA conf)) (rowA i &&& rowB j)
          (fun k => prodE (p.spVal (confA conf) (values a) (rowA i) (offs a i) k)
            (p.spVal (confB conf) (values b) (rowB j) (offs b j) k))
          (16 / groupSize (confA conf)) (16 * chunk) (old.el i j) % 2 ^ 32) ∧
      (∀ i, i < 64 → t.here.m.z[z].poison.getLsbD i =
        (old.poison.getLsbD i || p.spRowBad (confA conf) (values a) (rowA i) (offs a i))) ∧
      (chunk < 3 → s.PartGoesOn t (.mmas z clear a b conf (chunk + 1) (some m) n (!s.active c) word)) ∧
      (chunk = 3 → s.PartEnds t (began + 4 + n) rest)

/-- STREAM_START, STREAM_WORD_COMPLETE and VSTRM_VECTOR_FETCH (05 R73, R86, R87; 08 R178): the next stream of the fork
queue starts with its arguments; a word in flight that is no array word completes and its produce counts; an array word
performs its effects and completes; a read stream fetches a vector. -/
def Sys2Proof.Says.EngineSteps : Prop :=
  (∀ (s : State) (c : Nat) (st : Stream) (r : ForkReq) (rest : List ForkReq),
    let e := (s.cell c).engOf st
    st ≠ .s → e.forks = r :: rest → e.run = none → e.stopped = false → (∀ f ∈ e.flights, ∃ dl ds p, f = .word dl ds p true) →
    (st = .m → ∀ x, (s.cell c).m.arr = some x → x.word.inParts = false) → s.active c = true →
    ∃ t, exec (.streamStart c st) s = .next t ∧ s.OnlyCell t c ∧
      ∃ g : Vector Word 16, g[0] = r.a0 ∧ g[1] = r.a1 ∧ g[2] = r.a2 ∧ g[3] = r.a3 ∧
        (∀ n : Fin 16, 4 ≤ n.val → g[n] = 0) ∧
        t.cell c = (s.cell c).updEngOf st (fun e => { e with
          run := some { pc := r.pc, blk := none, branch := none }
          tok := none
          wait := none
          flights := []
          stale := []
          loop := none
          forks := rest
          g := g })) ∧
  (∀ (s : State) (st : Stream) (i dl : Nat) (ds : List Dest) (p : Option Produce),
    let c := s.cur.cell
    let e := s.here.engOf st
    st ≠ .s → e.flights[i]? = some (.word dl ds p false) → ds.contains .part = false →
    (∀ f ∈ e.flights, ∃ dl ds q d, f = .word dl ds q d) →
    let done (x : Cell) : Cell := x.updEngOf st (fun e => { e with flights := e.flights.set i (.word dl ds none true) })
    ((∀ n, .arr n ∉ ds) → ∃ t, exec (.streamWordComplete c st i) s = .next t ∧ s.OnlyHere t ∧ t.here = done (match p with
      | none => s.here
      | some p => { s.here with
        k := s.here.k.set p.k (BitVec.ofNat 32 (min ((s.here.k[p.k]).toNat + p.n) 4294967295))
        acts := s.here.acts ++
          [{ k := p.k, sat := decide (4294967295 < (s.here.k[p.k]).toNat + p.n), source := some (st, p.word) }] })) ∧
    ∀ x, st = .m → s.here.m.arr = some x → ds = [.arr x.seq] → (∀ z l k f a b w, x.word ≠ .mma24 z l k f a b w) →
      exec (.streamWordComplete c st i) s = exec (.streamWordComplete c st i) (s.arrPerform c)) ∧
  ∀ (s : State) (c : Nat) (r : VReg) (b : Binding),
    let i := b.pos + b.fetched.length
    let p := (s.cell c).spad
    let off := ((b.base : Int) + i * b.stride).toNat
    (s.cell c).v.binds.find r.val = some b → b.write = false → i < b.count →
    ∃ t x, exec (.vstrmVectorFetch c r) s = .next t ∧ s.OnlyCell t c ∧
      t.cell c = { s.cell c with v := { (s.cell c).v with
        binds := (s.cell c).v.binds.put r.val { b with fetched := b.fetched ++ [x] } } } ∧
      (∀ k, k < 512 → x.1.extractLsb' (8 * k) 8 = Mem.read p.bytes (off + k)) ∧
      ∀ g, g < 8 → x.2.getLsbD g = p.bad (off + 64 * g) 64

/-! ## Steps without an encoding: tasks, steals, messages (04 R60-R72; 12 R236-R260; 01 R16-R21) -/

/-- A fibre with the body `b` has started in a slot of a cell under a fresh name; its start has acquired at a scope (04
R67, 12 R249); `f` says what else the cell has taken. -/
def Sys2Proof.Machine.State.Started (s t : State) (c slot : Nat) (b : FBody) (sc : Scope) (f : Cell → Cell) : Prop :=
  let u := s.acqL1 c sc
  t = { u with cells := t.cells, nextId := s.nextId + 1 } ∧ (∀ d, d ≠ c → t.cell d = u.cell d) ∧
    t.cell c = f ((u.cell c).setFibre slot { Fibre.zero with body := { b with fid := s.nextId } })

/-- TASK_POP and COLD_END_PROMOTE (04 R60-R62, Table 4.1; 11 R222): a FREE task slot takes the hot end of the deque, or the
cold end once it has stood there 1,048,576 CCLK; g0-g3 hold the record's arguments, g6 the private region's base and
size, every other register is 0; the region is taken from the job's pool and meets no other region in use. -/
def Sys2Proof.Says.TaskStarts : Prop :=
  ∀ (s : State) (c slot l : Nat) (x : TaskRec) (rest : List DequeEntry) (e : DequeEntry) (r : List DequeEntry),
    let q := (s.cell c).deque
    let y := s.launch l
    let due := e.entered + 1048576 ≤ s.now
    s.active c = true → (s.cell c).launch = some l → (s.cell c).fibres.lowestFree 239 17 = some slot → q = e :: r →
    (due → x = e.task ∧ rest = r) → (¬due → ∃ h, q = rest ++ [h] ∧ x = h.task) →
    let body (n : Nat) (p : Option Nat) : FBody := { FBody.zero with
      pc := x.pc
      g := ((((((Vector.replicate 8 0).set 0 x.a0).set 1 x.a1).set 2 x.a2).set 3 x.a3).set 6
        (if n = 0 then 0 else BitVec.ofNat 64 (0xB000000000000000 + n)) : Vector Word 8)
      startNo := (s.cell c).started
      since := some s.now
      priv := p }
    let takes (z : Cell) : Cell := { z with deque := rest, started := z.started + 1 }
    (y.privSize = 0 → ∃ t, exec (.taskPop c) s = .next t ∧ s.Started t c slot (body 0 none) .device takes ∧
      (due → exec (.coldEndPromote c) s = .next t)) ∧
    (∀ b, y.privSize ≠ 0 → s.newRegion l = some b →
      let j := s.job y.job
      (j.poolBase ≤ b ∧ b + y.privSize ≤ j.poolBase + j.poolSize ∧
        ∀ k z, (k, z) ∈ s.launches → z.job = y.job → ∀ u ∈ z.regions, b + y.privSize ≤ u ∨ u + z.privSize ≤ b) ∧
      ∃ t, exec (.taskPop c) s = .next t ∧ (due → exec (.coldEndPromote c) s = .next t) ∧
        (s.updLaunch l (fun y => { y with regions := y.regions ++ [b] })).Started t c slot (body y.privSize (some b)) .device
          takes)

/-- Stealing (04 R70): an idle thief asks the next victim of its role; a record goes into the thief's deque; after a round
of EMPTY answers the thief waits 1,024 CCLK. That the first victim is the one of lowest index is the model's choice
(log 34). -/
def Obligations.Stealing : Prop :=
  ∀ (s : State) (c : Nat) (x : TaskRec),
    let cell := s.cell c
    let st := cell.steal
    let idle := cell.deque = [] ∧ ∀ e ∈ cell.fibres, e.1 < 17 ∨ (e.2.status ≠ .ready ∧ ∀ n, e.2.status ≠ .issued n)
    let set (p : Steal) (z : Cell) : Cell := { z with steal := p }
    (∀ j, s.active c = true → idle → s.noSteal c = false → st.phase = .idle → nextVictim st.last (s.victims c) = some j →
      ∃ t, exec (.stealSend c) s = .next t ∧ s.OnlyCell t c ∧
        t.cell c = set { st with last := some j, phase := .asked ((s.launchOf c).physIdx j) } cell) ∧
    (st.phase = .answered (some x) → cell.deque.length < 64 → ∃ t, exec (.stealAnswerArrive c) s = .next t ∧ s.OnlyCell t c ∧
      t.cell c = { cell with deque := cell.deque ++ [{ task := x, entered := s.now }], steal := { st with empties := 0, phase := .idle } }) ∧
    (st.phase = .answered none → ∃ t, exec (.stealAnswerArrive c) s = .next t ∧ s.OnlyCell t c ∧
      t.cell c = set (if (s.victims c).length ≤ st.empties + 1 then { st with empties := 0, phase := .backoff s.now }
        else { st with empties := st.empties + 1, phase := .idle }) cell) ∧
    (∀ n, st.phase = .backoff n → n + 1024 ≤ s.now → ∃ t, exec (.stealBackoffExpire c) s = .next t ∧ s.OnlyCell t c ∧
      t.cell c = set { st with phase := .idle } cell)

/-- The victim's answer (04 R71): the cold-end record, removed from the deque in the same step, when the deque holds at
least two records, or one while no task slot is FREE; EMPTY in every other case, with the deque kept. It comes after
the victim's own pop and the records that have arrived for it (04 R66). -/
def Obligations.StealAnswers : Prop :=
  ∀ (s : State) (c v : Nat), (s.cell c).steal.phase = .asked v → v ≠ c →
    let y := s.cell v
    let busy := ∀ n, 17 ≤ n → n < 256 → y.fibres.find n ≠ none
    let gives (a : Option TaskRec) (q : List DequeEntry) (src : Nat) : Prop :=
      ∃ t, exec (.stealServe c) s = .next t ∧ t = { s with cells := t.cells } ∧
        (∀ d, d ≠ c → d ≠ v → t.cell d = s.cell d) ∧
        t.cell c = { s.cell c with steal := { (s.cell c).steal with phase := .answered a } } ∧
        t.cell v = { y.count src 1 with deque := q }
    (s.canPop v = true ∨ s.spawnWaits v = true → exec (.stealServe c) s = .next s) ∧
    (s.canPop v = false → s.spawnWaits v = false →
    (y.deque = [] → gives none [] 17) ∧
    (∀ e, y.deque = [e] → (busy → gives (some e.task) [] 16) ∧ (¬busy → gives none [e] 17)) ∧
    (∀ e f r, y.deque = e :: f :: r → gives (some e.task) (f :: r) 16))

/-- A message that has landed is the next of its order at its destination: it has a number of its own and nothing that
comes before it is still there (01 R20). -/
def Sys2Proof.Machine.State.Lands (s : State) (m : Msg) (before after : List Msg) : Prop :=
  s.net = before ++ m :: after ∧ m.stage = .landed ∧ (∀ x ∈ before, x.id ≠ m.id ∧ x.before m = false) ∧
    ∀ x ∈ after, x.id ≠ m.id

/-- A message as it stands at the network interface of its source (01 R19). -/
def Sys2Proof.Machine.State.sent (s : State) (src dst : Node) (cls : MsgClass) (b : MsgBody) : Msg :=
  stagedMsg s.nextId src dst cls b

/-- The network (01 R16-R22): space is reserved for a part whose request has arrived; a message is delivered when all of it
has arrived and nothing of its order is before it; every node whose injection has waited 256 NCLK holds its four
neighbours (that one under a hold asserts none: log 78); a reassembly that a fenced source has left partial for 65,536 NCLK is dropped,
counted and reported. -/
def Sys2Proof.Says.NetworkSteps : Prop :=
  (∀ (s : State) (m : Msg) (before after : List Msg), s.net = before ++ m :: after →
    (∀ x ∈ before ++ after, x.id ≠ m.id) →
    (m.stage = .asked → exec (.reassemblyReserve m.id) s =
      .next { s with net := before ++ { m with stage := .granting, since := 2 * s.now } :: after }) ∧
    (m.stage ≠ .asked → exec (.reassemblyReserve m.id) s = .next s) ∧
    (m.arrived = true → (∀ x ∈ before, x.before m = true → x.stage = .landed) →
      ((∀ n, m.body ≠ .dropReport n) →
        exec (.messageDeliver m.id) s = .next { s with net := before ++ { m with stage := .landed } :: after }) ∧
      ∀ n, m.body = .dropReport n →
        exec (.messageDeliver m.id) s = .next { s with net := before ++ after, dropReports := s.dropReports ++ [n] }) ∧
    (m.arrived = false ∨ (∃ x ∈ before, x.before m = true ∧ x.stage ≠ .landed) →
      exec (.messageDeliver m.id) s = .next s) ∧
    let half := m.stage = .granting ∨ m.stage = .granted ∨ m.stage = .opened ∧ m.partFlits ≠ 1
    (half → s.senderFenced m.src = true → m.since + 65536 ≤ 2 * s.now →
      ∃ t, exec (.reassemblyDrop m.id) s = .next t ∧
        t.net = before ++ after ++ [s.sent m.dst .xdie .control (.dropReport m.src)] ∧ t.nextId = s.nextId + 1 ∧
        t.torus = { s.torus with flits := s.torus.flits.filter (fun f => f.msg != m.id) } ∧
        t.cells = s.cells ∧ t.mem = s.mem ∧ t.launches = s.launches ∧ t.fabricOut = s.fabricOut) ∧
    (¬half ∨ s.senderFenced m.src = false ∨ 2 * s.now < m.since + 65536 →
      exec (.reassemblyDrop m.id) s = .next s)) ∧
  ∀ s : State, ∃ u, exec .injectionHold s = .next u ∧ u = { s with torus := { s.torus with holds := u.torus.holds } } ∧
    let due (n : Nat) := ∃ t, (n, t) ∈ s.torus.waits ∧ t + 256 ≤ 2 * s.now
    let under (x : Torus) (n : Nat) := ∃ p, p < 4 ∧ x.holds.contains (neighbour n p) = true
    (∀ n, u.torus.holds.contains n = true → s.torus.holds.contains n = true ∨ (due n ∧ ¬under s.torus n)) ∧
    (∀ n, s.torus.holds.contains n = true → u.torus.holds.contains n = true) ∧
    ∀ n, due n → u.torus.holds.contains n = true ∨ under u.torus n

/-- A node of the torus in one NCLK (01 R16, R17), with no more flits than it has inputs: it ejects at most two, all of them
at their destination; each other flit leaves by an output port of its own and is at the neighbour 2 NCLK later; the first of
them, the oldest, is ejected or leaves by a port that brings it nearer. -/
def Sys2Proof.Says.TorusNodes : Prop :=
  ∀ (n t : Nat) (draw : Nat × Nat) (fs : List Flit), n < 768 → fs.length ≤ 4 → (∀ f ∈ fs, f.dst < 768) →
    let o := fs.foldl (NodeOut.assign n t draw) { used := [], moved := [], ejected := [], deflected := 0 }
    o.ejected.length ≤ 2 ∧ (∀ f ∈ o.ejected, f ∈ fs ∧ f.dst = n) ∧ o.ejected.length + o.moved.length = fs.length ∧
    (∀ g ∈ o.moved, ∃ f ∈ fs, ∃ p, p < 4 ∧ g = { f with node := neighbour n p, port := facing p, due := t + 2 }) ∧
    (o.moved.map (fun g => g.port)).Nodup ∧
    ∀ f rest, fs = f :: rest →
      (f.dst = n → f ∈ o.ejected) ∧
      (f.dst ≠ n → ∃ p, p < 4 ∧ hops (neighbour n p) f.dst + 1 = hops n f.dst ∧
        { f with node := neighbour n p, port := facing p, due := t + 2 } ∈ o.moved)

/-- SPAWN's messages (04 R69): after the cell's own pop (04 R66) the record is pushed, or refused by a full deque; the fibre that waits goes on, or runs
the child inline. -/
def Sys2Proof.Says.SpawnMessages : Prop :=
  ∀ (s : State) (m : Msg) (before after : List Msg) (w : Asker) (x : TaskRec) (c : Nat),
    s.Lands m before after →
    (m.body = .spawn w x → m.dst = .cell c → w.dev = s.device → s.canPop c = false →
      let answer (ok : Bool) : Msg := s.sent (.cell c) (.cell w.cell) .response (.spawnAns w ok)
      ((s.cell c).deque.length < 64 → ∃ t, exec (.spawnRecordArrive m.id) s = .next t ∧
        t = { s with net := before ++ after ++ [answer true], nextId := s.nextId + 1, cells := t.cells } ∧
        (∀ d, d ≠ c → t.cell d = s.cell d) ∧
        t.cell c = { s.cell c with deque := (s.cell c).deque ++ [{ task := x, entered := s.now }] }) ∧
      (64 ≤ (s.cell c).deque.length → ∃ t, exec (.spawnRecordArrive m.id) s = .next t ∧
        t = { s with net := before ++ after ++ [answer false], nextId := s.nextId + 1, cells := t.cells } ∧
        (∀ d, d ≠ c → t.cell d = s.cell d) ∧ t.cell c = (s.cell c).count 18 1)) ∧
    (∀ f a y len since ok, m.body = .spawnAns w ok → (s.cell w.cell).fibres.find w.slot = some f →
      f.status = .parked (.spawn w.id a y len) since → f.body.fid = w.fid →
      ∃ t, exec (.spawnAnswerArrive m.id) s = .next t ∧ t = { s with net := before ++ after, cells := t.cells } ∧
        (∀ d, d ≠ w.cell → t.cell d = s.cell d) ∧
        (ok = true → t.cell w.cell = (s.cell w.cell).setFibre w.slot { f with body := f.body.past len, status := .ready, parkSeq := none }) ∧
        (ok = false → t.cell w.cell = ((s.cell w.cell).count 19 1).setFibre w.slot { f with
          body := { f.body with
            g := ((((f.body.g.set 0 y.a0).set 1 y.a1).set 2 y.a2).set 3 y.a3).set 7 f.body.bend
            pc := y.pc
            blk := none
            branch := some f.body.pc }
          status := .issued (s.now + 3)
          parkSeq := none }))

/-- Active messages on their way (12 R247, R248, R251; 18 R375): a reservation takes the lowest free entry or waits, or is
refused at a fenced cell; a grant sends the message, the message fills its entry and is acknowledged, the sender that waits for that goes on. -/
def Sys2Proof.Says.MessageArrivals : Prop :=
  ∀ (s : State) (m : Msg) (before after : List Msg) (a : AmMsg) (c e : Nat),
    s.Lands m before after →
    let w := a.who
    (m.body = .amReserve a → m.dst = .cell c → s.excluded.contains c = true → a.buffered = false → w.dev = s.device →
      exec (.amReserveArrive m.id) s =
        .next { s with net := before ++ after ++ [s.sent (.cell c) (.cell w.cell) .response (.amRefused w)],
                       nextId := s.nextId + 1 }) ∧
    (m.body = .amReserve a → m.dst = .cell c → s.excluded.contains c = false →
      (∀ i, (s.cell c).freeAm = some i → w.dev = s.device → ∃ t, exec (.amReserveArrive m.id) s = .next t ∧
        t = { s with net := before ++ after ++ [s.sent (.cell c) (.cell w.cell) .response (.amGrant a i)], nextId := s.nextId + 1,
                     cells := t.cells } ∧
        (∀ d, d ≠ c → t.cell d = s.cell d) ∧
        t.cell c = { s.cell c with
          nextOrder := (s.cell c).nextOrder + 1
          am := (s.cell c).am.put i (AmEntry.granted (s.cell c).nextOrder a) }) ∧
      ((s.cell c).freeAm = none → ∃ t, exec (.amReserveArrive m.id) s = .next t ∧
        t = { s with net := before ++ after, cells := t.cells } ∧ (∀ d, d ≠ c → t.cell d = s.cell d) ∧
        t.cell c = { s.cell c with amWaiting := (s.cell c).amWaiting ++ [a] })) ∧
    (m.body = .amGrant a e → a.toDev = s.device → exec (.amGrantArrive m.id) s =
      .next { s with net := before ++ after ++ [s.sent (.cell w.cell) (.cell a.toCell) .request (.am a e)], nextId := s.nextId + 1 }) ∧
    (∀ x, m.body = .am a e → m.dst = .cell c → a.buffered = false → w.dev = s.device → (s.cell c).am.find e = some x →
      ∃ t, exec (.amMessageArrive m.id) s = .next t ∧
        t = { s with net := before ++ after ++ [s.sent (.cell c) (.cell w.cell) .response (.amTaken w)], nextId := s.nextId + 1,
                     cells := t.cells } ∧
        (∀ d, d ≠ c → t.cell d = s.cell d) ∧
        t.cell c = { s.cell c with am := (s.cell c).am.put e { x with
          valid := true
          running := false
          held := false
          deleg := a.deleg
          reply := a.reply
          id := a.id
          sender := a.sender
          target := a.target
          a0 := a.a0
          a1 := a.a1
          a2 := a.a2
          a3 := a.a3
          pc := a.pc
          scope := a.scope
          from_ := w } }) ∧
    (∀ f x len since, m.body = .amTaken w → (s.cell w.cell).fibres.find w.slot = some f → f.body.fid = w.fid →
      f.status = .parked (.amAccept w.id x len) since → ∃ t, exec (.amReplyArrive m.id) s = .next t ∧
        t = { s with net := before ++ after, cells := t.cells } ∧ (∀ d, d ≠ w.cell → t.cell d = s.cell d) ∧
        t.cell w.cell = (s.cell w.cell).setFibre w.slot { f with body := f.body.past len, status := .ready, parkSeq := none }) ∧
    ∀ f x rd sc dg taken len since v, m.body = .amReply w v → (s.cell w.cell).fibres.find w.slot = some f → f.body.fid = w.fid →
      f.status = .parked (.amReply w.id x rd sc dg taken len) since → ∃ t, exec (.amReplyArrive m.id) s = .next t ∧
        let u := s.acqL1 w.cell sc
        t = { u with net := before ++ after, cells := t.cells } ∧ (∀ d, d ≠ w.cell → t.cell d = u.cell d) ∧
        t.cell w.cell = (u.cell w.cell).setFibre w.slot
          { f with body := { f.body with g := f.body.g.set rd v }.past len, status := .ready, parkSeq := none }

/-- A trap of a stream waits for a word that its stream has issued (22 R393). -/
def Sys2Proof.Machine.Cell.TrapWaits (x : Cell) (src : TrapSrc) : Prop :=
  (src = .v ∧ ∃ f ∈ x.v.eng.flights, f.isDone = false) ∨ (src = .m ∧ ∃ f ∈ x.m.eng.flights, f.isDone = false)

/-- HANDLER_START, DELEG_ROUTINE_START and TRAP_HANDLER_START (12 R249, R252; 13 R275; 18 R354, R359, R366; 22 R393): in a
FREE handler slot starts the first message or completion in queue order, behind the handlers of unit traps; a routine in
slot 16; registers and acquire at the message's scope. The first trap that waits for no word is taken: its handler starts,
or the launch fails. -/
def Sys2Proof.Says.HandlerStarts : Prop :=
  ∀ (s : State) (c slot i : Nat) (e : AmEntry) (q : CompReq),
    let x := s.cell c
    let body (k : FKind) (g : Vector Word 8) (pc : Word) : FBody :=
      { FBody.zero with kind := k, g := g, pc := pc, order := x.nextOrder }
    let regs : Vector Word 8 :=
      ((((((Vector.replicate 8 0).set 0 e.a0).set 1 e.a1).set 2 e.a2).set 3 e.a3).set 4 e.target).set 5 e.sender
    let runs (z : Cell) : Cell :=
      { z with am := z.am.put i { e with running := true, front := 0 }, nextOrder := z.nextOrder + 1 }
    (s.active c = true → (∀ e ∈ x.traps, x.TrapWaits e.1) → x.fibres.lowestFree 16 0 = some slot →
      (x.nextHandler = some (.msg i e) → ∃ t, exec (.handlerStart c) s = .next t ∧
        (s.count c 14 1).Started t c slot (body (.handler i) regs e.pc) e.scope runs) ∧
      (x.nextHandler = some (.completion q) → ∃ t, exec (.handlerStart c) s = .next t ∧
        (s.count c 14 1).Started t c slot (body (.completion q)
          ((((((Vector.replicate 8 0).set 0 q.id).set 1 q.status).set 2 q.done).set 4 q.word0).set 5 (q.seq.setWidth 64)) q.pc)
          q.scope (fun z => { z with copy := { z.copy with comps := z.copy.comps.erase q }, nextOrder := z.nextOrder + 1 }))) ∧
    (s.active c = true → x.fibres.find 16 = none → x.nextDeleg = some (.msg i e) →
      ∃ t, exec (.delegRoutineStart c) s = .next t ∧ s.Started t c 16 (body (.server i) regs e.pc) e.scope runs) ∧
    ∀ src r before after, x.traps = before ++ (src, r) :: after → (∀ e ∈ before, x.TrapWaits e.1) → ¬x.TrapWaits src →
      (trapAction (s.launchOf c).actions r.cls ≠ 1 → exec (.trapHandlerStart c) s =
        .next ((s.updCell c (fun z => { z with traps := before ++ after })).failLaunch c
          (s.trapRecord c r.regs 255 false false))) ∧
      (trapAction (s.launchOf c).actions r.cls = 1 → x.fibres.lowestFree 16 0 = some slot →
      ∃ t f, exec (.trapHandlerStart c) s = .next t ∧ s.OnlyCell { t with nextId := s.nextId } c ∧
        t.cell c = { x.setFibre slot f with traps := before ++ after, nextOrder := x.nextOrder + 1 } ∧ f.frame = none ∧
        f.status = .ready ∧ f.body.kind = .trap src ∧ f.body.pc = (s.launchOf c).handlerPc ∧ f.trap = r.regs ∧
        f.body.g[0] = r.regs.code ∧ f.body.g[1] = r.detail ∧ f.body.g[2] = r.pc ∧ f.body.g[3] = r.seq ∧
        f.body.g[4] = r.regs.stream ∧ f.body.g[5] = 0 ∧ f.body.g[6] = 0 ∧ f.body.g[7] = 0)

/-! ## Steps without an encoding: requests and answers, waits and budgets, channels (12 R236-R259; 16; 18) -/

/-- An answer leaves a unit for the fibre that waits on this device, and beside it only the cells and the L1s of `u`
differ. -/
def Sys2Proof.Machine.State.Answers (u t : State) (net : List Msg) (src : Node) (r : MemReq) (a : AnsRes) : Prop :=
  t = { u with
    net := net ++ [u.sent src (.cell r.who.cell) .response
      (.memAns { who := r.who, posted := r.posted, seq := r.seq, pc := r.pc, addr := r.addr, res := a })]
    nextId := u.nextId + 1
    authors := t.authors }

/-- REMOTE_REQUEST_SERVE (12 R236, R237, R241, R245; 11 R233, R234): a load, store or atomic performed at a scratchpad, at its
home or through the asker's L1, and refused when poison, translation or protection stands against it; a posted request to
an unmapped address is refused late (R259). -/
def Sys2Proof.Says.RemoteRequests : Prop :=
  ∀ (s : State) (m : Msg) (before after : List Msg) (r : MemReq), s.Lands m before after → m.body = .mem r →
    r.who.dev = s.device →
    let net := before ++ after
    let does (u : State) (a : AnsRes) : Prop := ∃ t, exec (.remoteRequestServe m.id) s = .next t ∧ u.Answers t net m.dst r a
    let put (c : Nat) (p : Spad) : State := s.updCell c (fun x => { x with spad := p })
    (∀ c off, r.place = .spad c off → s.excluded.contains c = false →
      let p := (s.cell c).spad
      (∀ z h, r.op = .load z h → does (put c p) (.ok (BitVec.ofNat 64 (p.read off z.bytes)) (p.bad off z.bytes))) ∧
      (∀ n v h, r.op = .store n v h → does (put c (p.write off n v.toNat false)) (.ok 0 false)) ∧
      (∀ f z b e, r.op = .amo f z b e →
        let n := z.bytes
        let old := p.read off n
        (p.bad off n = true → does (put c p) (.refused cPOISON)) ∧
        (p.bad off n = false → does
          (put c (match amoNew f (8 * n) old (b.toNat % 2 ^ (8 * n)) (e.toNat % 2 ^ (8 * n)) with
            | some x => p.write off n x false | none => p)) (.ok (BitVec.ofNat 64 old) false)))) ∧
    (∀ c off z h, r.place = .spad c off → r.op = .load z h → s.excluded.contains c = true →
      does s (.refused (if r.posted then cXLATELATE else cXLATE))) ∧
    let used (va : Nat) : State := s.tlbUse r.who.cell r.ctx.job va
    (∀ va z h, r.place = .global va → r.op = .load z h →
      let tr := s.translate r.ctx.job va .read
      let u := used va
      (∀ cls, tr = .fault cls → does s (.refused (if r.posted ∧ cls = cXLATE then cXLATELATE else cls))) ∧
      (∀ x y, tr = .window x y → does s (.refused cPROTECT)) ∧
      (∀ pa, tr = .pa pa → h = false →
        let x := (u.countL1 r.who.cell va z.bytes).l1Load r.who.cell va pa z.bytes
        does x.1 (.ok (BitVec.ofNat 64 x.2.1) x.2.2)) ∧
      (∀ pa, tr = .pa pa → h = true → (∀ x ∈ (s.cell (s.l1Owner r.who.cell va)).l1, x.va ≠ va / 64) →
        does u (.ok (BitVec.ofNat 64 (Mem.readNat s.mem z.bytes pa)) (s.homeBad pa z.bytes)))) ∧
    (∀ va n v pa h, r.place = .global va → r.op = .store n v h → s.translate r.ctx.job va .write = .pa pa →
      (h = false → does ((used va).l1Store r.who.cell va pa n v.toNat) (.ok 0 false)) ∧
      (h = true → (∀ x ∈ (s.cell (s.l1Owner r.who.cell va)).l1, x.va ≠ va / 64) →
        does ((used va).homeWrite pa n v.toNat false) (.ok 0 false))) ∧
    ∀ va f z b e pa, r.place = .global va → r.op = .amo f z b e → s.translate r.ctx.job va .write = .pa pa →
      (∀ x ∈ (s.cell (s.l1Owner r.who.cell va)).l1, x.va ≠ va / 64) →
      let n := z.bytes
      let old := Mem.readNat s.mem n pa
      (s.homeBad pa n = true → does (used va) (.refused cPOISON)) ∧
      (s.homeBad pa n = false → does
        (match amoNew f (8 * n) old (b.toNat % 2 ^ (8 * n)) (e.toNat % 2 ^ (8 * n)) with
          | some x => (used va).homeWrite pa n x false | none => used va) (.ok (BitVec.ofNat 64 old) false))

/-- FE_REQUEST_SERVE (12 R242, R243): each full/empty operation at the cell that owns the word, where no other request
waits, asked for by another cell: performed and answered at once, refused for poison, or left waiting there in arrival
order; a PUT from there releases beyond the cell (17 R346). -/
def Sys2Proof.Says.FullEmptyRequests : Prop :=
  ∀ (s : State) (m : Msg) (before after : List Msg) (r : MemReq) (f : FeFn) (v : Word) (c off : Nat),
    s.Lands m before after → m.body = .mem r → r.who.dev = s.device → r.op = .fe f v → r.place = .spad c off →
    s.excluded.contains c = false → (s.cell c).fe = [] → (s.cell c).acqDue = false → r.who.cell ≠ c →
    let net := before ++ after
    let x := s.cell c
    let p := x.spad
    let old := BitVec.ofNat 64 (p.read off 8)
    let stored := p.write off 8 v.toNat false
    let does (q : Spad) (a : AnsRes) : Prop := ∃ t, exec (.feRequestServe m.id) s = .next t ∧
      (s.updCell c (fun x => { x with spad := q, feWide := (t.cell c).feWide })).Answers t net m.dst r a ∧
      ∀ k, (t.cell c).feWide.contains k = true ↔ x.feWide.contains k = true ∨ f = .put ∧ k = off / 8
    let waits (w : FeWait) : Prop := exec (.feRequestServe m.id) s =
      .next (({ s with net := net }).updCell c (fun x => { x with fe := [{ word := off / 8, mode := w, data := v, who := r.who, addr := r.addr }] }))
    (f = .tag → does p (.ok (if p.tag off then 1 else 0) false)) ∧
    (f = .clear → does (p.setTag off false) (.ok 0 false)) ∧
    (f = .force → does (stored.setTag off true) (.ok 0 false)) ∧
    (p.tag off = true → p.bad off 8 = false →
      (f = .take → does (p.setTag off false) (.ok old false)) ∧ (f = .peek → does p (.ok old false))) ∧
    (p.tag off = true → p.bad off 8 = true → f = .take ∨ f = .peek →
      ∃ t, exec (.feRequestServe m.id) s = .next t ∧ s.Answers t net m.dst r (.refused cPOISON)) ∧
    (p.tag off = false → f = .put → does (stored.setTag off true) (.ok 0 false)) ∧
    (p.tag off = true → f = .put → waits .put) ∧
    (p.tag off = false → (f = .take → waits .take) ∧ (f = .peek → waits .peek))

/-- Answers at the fibre (12 R237, R238, R258, R259; 18 R365): a load's data is extended into rd and acquires; a refusal
or poison is an exact trap at the word; a posted answer counts OUTST down, that of the fibre in a trap frame too; a late refusal is kept in ascending number and
delivered at a boundary of the fibre. -/
def Sys2Proof.Says.AnswersAtFibres : Prop :=
  ∀ (s : State) (m : Msg) (before after : List Msg) (a : MemAns) (f : Fibre),
    let w := a.who
    let b := f.body
    let net := before ++ after
    (s.Lands m before after → m.body = .memAns a → (s.cell w.cell).fibres.find w.slot = some f → b.fid = w.fid →
      let s1 : State := { s with net := net }
      let traps (cls : Nat) : Prop := exec (.loadReplyArrive m.id) s =
        .next (s1.takeTrap w.cell w.slot b cls 0 a.addr 0 b.pc b.pc 0)
      (∀ x rd z acq len since, a.posted = false → f.status = .parked (.reply w.id x rd z acq len) since →
        (∀ v bad, a.res = .ok v bad →
          (bad = false → ∃ t, exec (.loadReplyArrive m.id) s = .next t ∧
            let u := match acq with | some sc => s1.acqL1 w.cell sc | none => s1
            t = { u with cells := t.cells } ∧ (∀ d, d ≠ w.cell → t.cell d = u.cell d) ∧
            t.cell w.cell = (u.cell w.cell).setFibre w.slot { f with
              body := { b with g := match rd with | some d => b.g.set d (z.extend v.toNat) | none => b.g }.past len
              status := .ready
              parkSeq := none }) ∧
          (bad = true → z ≠ .dp → traps cPOISON)) ∧
        (∀ cls, a.res = .refused cls → traps cls)) ∧
      (f.frame = none → ∀ v bad, a.posted = true → a.res = .ok v bad → exec (.postedAnswerArrive m.id) s =
        .next (s1.updCell w.cell (fun x => x.setFibre w.slot { f with body := { b with outst := b.outst - 1 } }))) ∧
      (f.frame = none → ∀ cls, a.posted = true → a.res = .refused cls → b.refusals.Pairwise (fun x y => x.seq.toNat < y.seq.toNat) →
        (∀ x ∈ b.refusals, x.seq ≠ a.seq) → ∃ l,
        exec (.lateRefusalArrive m.id) s = .next ((s1.count w.cell 23 1).updCell w.cell (fun x =>
          x.setFibre w.slot { f with body := { b with outst := b.outst - 1, refusals := l } })) ∧
        l.Pairwise (fun x y => x.seq.toNat < y.seq.toNat) ∧
        ∀ x, x ∈ l ↔ x ∈ b.refusals ∨
          x = { seq := a.seq, addr := a.addr, cls := cls, word := if b.window.2 = a.seq then some b.window.1 else none })) ∧
    (s.Lands m before after → m.body = .memAns a → (s.cell w.cell).fibres.find w.slot = some f → b.fid ≠ w.fid →
      ∀ o v bad, f.frame = some o → o.fid = w.fid → a.posted = true → a.res = .ok v bad →
      exec (.postedAnswerArrive m.id) s = .next (({ s with net := net } : State).updCell w.cell (fun x =>
        x.setFibre w.slot { f with frame := some { o with outst := o.outst - 1 } }))) ∧
    ∀ c slot x rest, (s.cell c).fibres.find slot = some f → s.active c = true →
      (f.status = .ready ∨ ∃ k d n, f.status = .parked (.retry .outst0 k d) n) → b.refusals = x :: rest →
      exec (.lateTrapDeliver c slot) s = .next (s.takeTrap c slot { b with refusals := rest } x.cls 0 x.addr
        (x.seq.setWidth 64) (if b.ending then 0 else b.pc) (x.word.getD 0) (if x.word.isSome then 2 else 3))

/-- WAIT_LIMIT_EXPIRE (16 R323, 18 R358, Table 18.4): a wait of a fibre that has reached the launch's limit is withdrawn,
wherever its request stands, and the fibre takes WAITLIMIT with the wait's kind and detail, under a pre-empt request too
(R371); another device is asked, once, to withdraw what waits there; a stall of an engine on counters traps its stream. -/
def Sys2Proof.Says.WaitLimits : Prop :=
  ∀ (s : State) (c slot since : Nat) (f : Fibre) (p : Park),
    let l := s.launchOf c
    (s.cell c).launch ≠ none → l.stage = .running → l.cancel = false → since + l.waitlim ≤ s.now →
    (slot < 256 → (s.cell c).fibres.find slot = some f → f.status = .parked p since →
      let b := f.body
      let traps (u : State) (kind : Nat) (d : Word) : Prop := exec (.waitLimitExpire c slot) s =
        .next ((u.count c 22 1).takeTrap c slot b cWAITLIMIT kind d 0 b.pc b.pc 0)
      (∀ k n take len, p = .counter k n take len → traps s 1 (BitVec.ofNat 64 k.val)) ∧
      (∀ q kind d, p = .retry q kind d →
        (q = .outst0 ∨ q = .outstLow → traps s 15 (BitVec.ofNat 64 b.outst)) ∧
        (q ≠ .outst0 → q ≠ .outstLow → traps s kind d)) ∧
      (∀ r, p = .copy r → traps s 11 0) ∧
      (∀ r k t rep rd, p = .arm r k t rep rd → traps s 11 0) ∧
      (∀ r off, p = .exch r off → traps s 10 off) ∧
      (∀ id a, (∃ rd z acq len, p = .reply id a rd z acq len) ∨ (∃ rd acq len, p = .fe id a rd acq len) →
        let w : Asker := { dev := s.device, cell := c, slot := slot, fid := b.fid, id := id }
        (∀ d, s.waitDevice c p = some d →
          (s.recalls.contains w = true → exec (.waitLimitExpire c slot) s = .next s) ∧
          (s.recalls.contains w = false → ∃ t, exec (.waitLimitExpire c slot) s = .next t ∧
            s.SendsFrame t d .request (.withdraw w) ∧
            t = { s with recalls := s.recalls ++ [w], fabricOut := t.fabricOut, fabricKept := t.fabricKept,
                         fabricSeqOut := t.fabricSeqOut })) ∧
        (s.waitDevice c p = none → s.answerComing w = false → (∀ m ∈ s.net, m.body.grantOf w = none) →
        ∃ u, traps u (if p.limit.1 = 4 then 4 else 14) a ∧ u = { s with net := u.net, cells := u.cells } ∧
          u.net = s.net.filter (fun m => !m.body.carries w) ∧
          ∀ d, u.cell d = { s.cell d with
            fe := (s.cell d).fe.filter (fun q => q.who != w)
            amWaiting := (s.cell d).amWaiting.filter (fun m => m.who != w) }))) ∧
    ((s.cell c).v.eng.waitSince = since → s.cur = { cell := c, slot := 0, stream := .v } →
      (∀ k n len, (s.cell c).v.eng.wait = some (.skwait k n len) →
        exec (.waitLimitExpire c 256) s = .next ((s.count c 22 1).etrapSub cWAITLIMIT 2 (BitVec.ofNat 64 k.val))) ∧
      ∀ t, (s.cell c).v.eng.wait = some (.tok t) →
        exec (.waitLimitExpire c 256) s = .next ((s.count c 22 1).etrapSub cWAITLIMIT 3 (tokDetail t.use)))

/-- Budgets and completion (04 R64; 06 R108; 18 R356, R360, R364): a task past its budget is saved under a pre-empt
request and takes WATCHDOG otherwise, its budget starting anew under IGNORE; a handler past its budget is aborted, a unit's
trap handler past it is a nested trap; the word in flight of a fibre completes. -/
def Sys2Proof.Says.BudgetsAndCompletion : Prop :=
  ∀ (s : State) (c slot : Nat) (f : Fibre), (s.cell c).fibres.find slot = some f →
    let l := s.launchOf c
    let b := f.body
    let act := fld l.actions (2 * 0x0E + 1) (2 * 0x0E)
    let puts (g : Fibre) : State := s.updCell c (fun x => x.setFibre slot g)
    (b.kind = .task → (f.status = .ready ∨ ∃ n, n ≤ s.now ∧ f.status = .issued n) → l.budget ≤ b.usedAt s.now → l.cancel = false →
      (l.preempt = true → exec (.taskBudgetExpire c slot) s =
        .next (puts { f with status := .saved, body := { b with used := b.usedAt s.now, since := none } })) ∧
      (l.preempt = false → act = 2 → exec (.taskBudgetExpire c slot) s =
        .next (puts { f with body := { b with used := 0, since := some s.now } })) ∧
      (l.preempt = false → act ≠ 2 → exec (.taskBudgetExpire c slot) s =
        .next (s.takeTrap c slot b cWATCHDOG 0 (BitVec.ofNat 64 l.budget) 0 b.pc b.pc 0))) ∧
    (Config.handlerBudget ≤ b.usedAt s.now →
      (b.kind.isHandler = true → (∀ p n, f.status ≠ .parked p n) → exec (.handlerBudgetExpire c slot) s =
        .next (s.handlerAbort c slot 0 0 0)) ∧
      (∀ src, b.kind = .trap src → src ≠ .fibre → ∃ rec, exec (.handlerBudgetExpire c slot) s = .next (s.failLaunch c rec))) ∧
    ∀ n, f.status = .issued n → exec (.sInstructionCompletion c slot) s =
      .next ((({ s with now := max s.now n } : State)).updCell c (fun x => x.setFibre slot { f with status := .ready }))

/-- Channel slots and grants at their cells (16 R327, R328): the slot's bytes stand in the endpoint's array, Filled and
the filled counter rise by one; a grant raises the sender's allowance. -/
def Sys2Proof.Says.ChannelArrivals : Prop :=
  ∀ (s : State) (m : Msg) (before after : List Msg) (c e n off : Nat) (d : List Byte) (bad : List Nat), s.Lands m before after →
    let x := s.cell c
    let i : Fin 16 := Fin.ofNat 16 e
    let p := x.chans[i]
    (m.body = .slot c e d bad off → (x.k[p.k]).toNat + 1 < 2 ^ 32 → Memory.wf x.spad.bytes = true →
      ∃ t, exec (.channelSlotArrive m.id) s = .next t ∧ t = { s with net := before ++ after, cells := t.cells } ∧
        (∀ y, y ≠ c → t.cell y = s.cell y) ∧
        t.cell c = { x with
          spad := (t.cell c).spad
          chans := x.chans.set i { p with filled := p.filled + 1 }
          k := x.k.set p.k (x.k[p.k] + 1)
          acts := x.acts ++ [{ k := p.k, sat := false, source := none }]
          kwide := if s.l1Scope c .device = true then x.kwide ||| BitVec.ofNat 32 (2 ^ p.k.val) else x.kwide } ∧
        (t.cell c).spad.full = x.spad.full ∧
        (∀ k, (h : k < d.length) → Mem.read (t.cell c).spad.bytes (p.array + off + k) = d[k]) ∧
        ∀ k, k < p.array + off ∨ p.array + off + d.length ≤ k → Mem.read (t.cell c).spad.bytes k = Mem.read x.spad.bytes k) ∧
    (∀ y, m.body = .grant c e n → m.dst = .cell y → ∃ t, exec (.channelGrantArrive m.id) s = .next t ∧
      t = { s with net := before ++ after, cells := t.cells } ∧ (∀ y, y ≠ c → t.cell y = s.cell y) ∧
      t.cell c = { x with chans := x.chans.set i { p with count := p.count + n } })

/-! ## Steps without an encoding: the Copy Engine (13 R263-R280, 19 R378) -/

/-- The transfers of a cell with one of a number replaced. -/
def Sys2Proof.Machine.Cell.withXfer (c : Cell) (x : Transfer) : Cell :=
  { c with copy := { c.copy with xfers := c.copy.xfers.map (fun y => if y.id = x.id then x else y) } }

/-- The transfers of a cell without one of a number. -/
def Sys2Proof.Machine.Cell.dropXfer (c : Cell) (id : Nat) : Cell :=
  { c with copy := { c.copy with xfers := c.copy.xfers.filter (fun y => y.id != id) } }

/-- What stands at a place of this device. -/
def Sys2Proof.Machine.State.byteAt (s : State) : CPlace → Nat → Byte
  | .spad c off, k => Mem.read (s.cell c).spad.bytes (off + k)
  | .mem pa, k => Mem.read s.mem (pa + k)
  | _, _ => 0

/-- From `s` to `t` the `n` bytes at a place have become `d`, and every other byte of memory and of every scratchpad is as
before; of the cells nothing but scratchpads differs, and of their L1s, where the place is in memory, that they have lost
dirty bytes that the write overtakes (17 R347). -/
def Sys2Proof.Machine.State.Placed (s t : State) (p : CPlace) (n : Nat) (d : Nat → Byte) : Prop :=
  t = { s with cells := t.cells, mem := t.mem, memPoison := t.memPoison, authors := t.authors } ∧
  (∀ c, t.cell c = { s.cell c with spad := (t.cell c).spad, l1 := (t.cell c).l1 } ∧
    (t.cell c).spad.full = (s.cell c).spad.full ∧ ((∀ a, p ≠ .mem a) → (t.cell c).l1 = (s.cell c).l1) ∧
    ∀ x ∈ (t.cell c).l1, ∃ y ∈ (s.cell c).l1,
      x = { y with valid := x.valid, dirty := x.dirty } ∧ x.dirty &&& y.dirty = x.dirty) ∧
  (∀ k, k < n → t.byteAt p k = d k) ∧
  (∀ c b, (∀ k, k < n → p ≠ .spad c (b - k) ∨ b < k) → Mem.read (t.cell c).spad.bytes b = Mem.read (s.cell c).spad.bytes b) ∧
  ∀ a, (∀ k, k < n → p ≠ .mem (a - k) ∨ a < k) → Mem.read t.mem a = Mem.read s.mem a

/-- TRANSFER_START, ARMED_SLOT_FIRE, COPY_CHUNK_REISSUE (13 R270, R272; 18 R376): the head of the FIFO starts while fewer
than 8 transfers are in flight; an armed slot whose counter has reached its threshold takes that much from it and its
request enters the FIFO under a fresh number, after an increment with the other tests of its CCLK (16 R321); a chunk that
is sent again changes nothing. -/
def Sys2Proof.Says.TransferStarts : Prop :=
  ∀ (s : State) (c : Nat),
    let x := s.cell c
    let waiting := ∀ e ∈ x.fibres, ∀ p n, e.2.status = .parked p n → (∀ r, p ≠ .copy r) ∧ ∀ r k t rep rd, p ≠ .arm r k t rep rd
    (∀ r rest, x.copy.fifo = r :: rest → (s.launchOf c).preempt = false → (s.launchOf c).cancel = false →
      x.copy.xfers.length < 8 → waiting → x.copy.slots = [] →
      ∃ t y, exec (.transferStart c) s = .next t ∧ s.OnlyCell { t with nextId := s.nextId } c ∧
        t.cell c = { x with copy := { x.copy with fifo := rest, xfers := x.copy.xfers ++ [y] } } ∧
        y.id = s.nextId ∧ y.req = r ∧ y.done = 0 ∧ y.checked = false ∧ y.asked = 0 ∧ y.plan = [] ∧ y.pending = [] ∧ y.failed = none ∧
        y.segs = [] ∧ y.crc = (if y.descending then 0 else BitVec.allOnes 64) ∧
        (y.descending = true → r.scat = none ∧ (r.op = 0 ∨ r.op = 5))) ∧
    (∀ i a, x.acts = [] → x.copy.slots = [(i, a)] → a.armed = true → a.pending = 0 → a.threshold.toNat ≤ (x.k[a.k]).toNat →
      x.copy.fifo.length < 16 → waiting →
      ∃ t, exec (.armedSlotFire c) s = .next t ∧ s.OnlyCell t c ∧
        t.cell c = { x with
          k := x.k.set a.k (x.k[a.k] - a.threshold)
          reqseq := x.reqseq + 1
          copy := { x.copy with
            slots := [(i, { a with fired := true, armed := a.rep, pending := 0 })]
            fifo := x.copy.fifo ++ [{ a.req with seq := x.reqseq }] } }) ∧
    (x.acts ≠ [] → exec (.armedSlotFire c) s = .next s) ∧ ∀ id, exec (.copyChunkReissue c id) s = .next s

/-- A chunk of a LINEAR request (13 R263, R272) whose bytes lie together at both ends: all are read, then written, and the
transfer has done them; bytes of device memory count as the launch's (log 57). -/
def Sys2Proof.Says.LinearChunks : Prop :=
  ∀ (s : State) (c : Nat) (x : Transfer) (p q : CPlace),
    let r := x.req
    let n := r.total
    (s.cell c).xfer x.id = some x → (s.launchOf c).preempt = false → (s.launchOf c).cancel = false →
    r.scat = none → r.op = 0 → x.descending = false → x.done = 0 → x.segs = [] → x.failed = none → x.plan = [] → 1 ≤ n → n ≤ 4096 →
    r.w1.toNat % 4096 + n ≤ 4096 → r.w2.toNat % 4096 + n ≤ 4096 →
    s.cpyPlace c r.w1 .read = .ok p → s.cpyPlace c r.w2 .write = .ok q →
    (∃ a o, p = .spad a o) ∨ (∃ a, p = .mem a) → (∃ a o, q = .spad a o) ∨ (∃ a, q = .mem a) →
    s.MemWf → (∀ d, Memory.wf (s.cell d).spad.bytes = true) →
    ∃ t u, exec (.copyChunkPerform c x.id) s = .next t ∧ s.Placed u q n (s.byteAt p) ∧
      (∀ a k l, q = .mem a → k < n → (s.cell c).launch = some l → t.authors.find (a + k) = some l) ∧
      t = { u with cells := t.cells } ∧ (∀ d, d ≠ c → t.cell d = u.cell d) ∧
      t.cell c = (u.cell c).withXfer { x with done := n }

/-- TRANSFER_COMPLETE and UMBRA_GATH_DEADLINE (13 R275, R280): the transfer leaves the engine, its counter rises, its
completion handler joins the queue with what the request and the transfer say; under Umbra a gather or scatter completes
at the least multiple of its bound after issue by which its work was over. -/
def Sys2Proof.Says.TransferEnds : Prop :=
  ∀ (s : State) (c : Nat) (x : Transfer),
    let r := x.req
    let y := s.cell c
    y.xfer x.id = some x → x.segs = [] → x.pending = [] → x.done = r.total → x.failed = none → (s.launchOf c).cancel = false →
    (∀ k, r.counter = some k → (y.k[k]).toNat + 1 < 2 ^ 32) →
    let bytes := if r.scat = none then r.total else r.count * r.esize
    let z : Cell := match r.counter with
      | some k => { y.dropXfer x.id with
        k := y.k.set k (y.k[k] + 1)
        acts := y.acts ++ [{ k := k, sat := false, source := none }]
        kwide := if s.l1Scope c r.scope = true then y.kwide ||| BitVec.ofNat 32 (2 ^ k.val) else y.kwide }
      | none => y.dropXfer x.id
    let ended (u : State) (i : Instr) : Prop := ∃ t, exec i s = .next t ∧ u.OnlyCell t c ∧
      (r.handler = false → t.cell c = z) ∧
      (r.handler = true → ∃ q : CompReq, t.cell c = { z with
          nextOrder := y.nextOrder + 1
          copy := { z.copy with comps := y.copy.comps ++ [q] } } ∧
        q.pc = (r.hword.extractLsb' 0 48).setWidth 64 ∧ q.id = (r.hword.extractLsb' 48 16).setWidth 64 ∧ q.status = 0 ∧
        q.done = BitVec.ofNat 64 bytes ∧ q.word0 = r.w0 ∧ q.seq = r.seq)
    (r.scat = none → r.op ≠ 5 ∨ x.checked = true → ended s (.transferComplete c x.id)) ∧
    (r.scat ≠ none → (s.launchOf c).umbra = false → ended s (.transferComplete c x.id)) ∧
    (r.scat ≠ none → (s.launchOf c).umbra = true →
      let bound := match s.resolve c none r.base 1 with
        | some (.spad _ _) => 256 + 4 * r.count
        | some (.global _) => 1024 + 4 * r.count
        | _ => 16384 + 4 * r.count
      ∃ m, 1 ≤ m ∧ s.now ≤ r.issued + m * bound ∧ (m = 1 ∨ r.issued + (m - 1) * bound < s.now) ∧
      ended { s with now := r.issued + m * bound } (.umbraGathDeadline c x.id) ∧
      exec (.transferComplete c x.id) s = .next s)

/-- Elements of GATH and SCAT (13 R278): a gather reads the index of its next element; its reply puts the element's bytes
in its own place of the buffer; a scatter writes its next element from the buffer; an index outside the extent fails its
element with status 5 and the others go on. An element that has been asked for keeps the place that its address had then (11
R235). -/
def Sys2Proof.Says.Elements : Prop :=
  ∀ (s : State) (c : Nat) (x : Transfer) (t : Nat),
    let r := x.req
    let e := r.esize
    let i := (s.cell c).spad.read (r.list + 4 * t) 4
    let addr := r.base + BitVec.ofNat 64 (i * e)
    let buffer : CPlace := .spad c (r.buffer + t * e)
    let inside := (i + 1) * e ≤ r.extent ∧ addr.toNat % 4096 + e ≤ 4096
    (s.cell c).xfer x.id = some x → (s.launchOf c).preempt = false → (s.launchOf c).cancel = false → x.segs = [] → 1 ≤ e →
    s.MemWf → (∀ d, Memory.wf (s.cell d).spad.bytes = true) →
    (r.scat = some false → x.asked = t → t < r.count → inside →
      ∀ p, s.cpyPlace c addr .read = .ok p → p.external = false →
      ∃ u, exec (.copyChunkPerform c x.id) s = .next u ∧ s.OnlyCell u c ∧
        u.cell c = (s.cell c).withXfer { x with
          asked := t + 1, pending := x.pending ++ [{ t := t, i := i, status := 0, places := [(p, e)] }] }) ∧
    (∀ p, r.scat = some false →
      let g : GathEl := { t := t, i := i, status := 0, places := [(p, e)] }
      x.pending.find? (fun y => y.t = t) = some g →
      ((∃ a o, p = .spad a o) ∨ ∃ a, p = .mem a) →
      ∃ u v, exec (.gathElementReply c x.id t) s = .next u ∧ s.Placed v buffer e (s.byteAt p) ∧
        u = { v with cells := u.cells } ∧ (∀ d, d ≠ c → u.cell d = v.cell d) ∧
        u.cell c = (v.cell c).withXfer { x with pending := x.pending.erase g, done := x.done + 1 }) ∧
    (∀ p, r.scat = some true → x.done = t → t < r.count → inside → s.cpyPlace c addr .write = .ok p →
      ((∃ a o, p = .spad a o) ∨ ∃ a, p = .mem a) →
      ∃ u v, exec (.copyChunkPerform c x.id) s = .next u ∧ s.Placed v p e (s.byteAt buffer) ∧
        u = { v with cells := u.cells } ∧ (∀ d, d ≠ c → u.cell d = v.cell d) ∧
        u.cell c = (v.cell c).withXfer { x with done := t + 1 }) ∧
    (r.scat = some true → x.done = t → t < r.count → r.extent < (i + 1) * e →
      ∃ u, exec (.copyChunkPerform c x.id) s = .next u ∧ s.OnlyCell u c ∧
        u.cell c = (s.cell c).withXfer { x with
          done := t + 1
          failed := match x.failed with
            | some f => if t < f.2 then some (5, t) else some f
            | none => some (5, t) })

/-- HOST_WINDOW_TIMEOUT (19 R378; 00 R2): a segment of a host window that has had no answer for 100 ms is answered as
unreachable, status 6. -/
def Sys2Proof.Says.WindowTimeouts : Prop :=
  (∀ (s : State) (c seg : Nat), (∀ y ∈ s.winOps, y.cell = c → y.seg = seg → s.ns < y.sentAt + 100000000) →
    exec (.hostWindowTimeout c seg) s = .next s) ∧
  ∀ (s : State) (w : WinOp), s.winOps.find? (fun y => y.cell = w.cell ∧ y.seg = w.seg) = some w → w.dev = s.device →
    w.sentAt + 100000000 ≤ s.ns → w.cell < 768 → ∃ t, exec (.hostWindowTimeout w.cell w.seg) s = .next t ∧
      t = { s with winOps := s.winOps.erase w, cells := t.cells } ∧ (∀ d, d ≠ w.cell → t.cell d = s.cell d) ∧
      t.cell w.cell = { s.cell w.cell with copy := { (s.cell w.cell).copy with
        xfers := (s.cell w.cell).copy.xfers.map (fun x => { x with
          segs := x.segs.map (fun g => if g.id = w.seg ∧ g.answer = none then { g with answer := some (.refused 6) } else g) }) } }

/-! ## Steps without an encoding: routing and the exchange (14 R284-R297) -/

/-- ROUTER_TOKEN_DECIDE (14 R284-R286): the oldest token is decided and leaves a record of 128 bytes that names it; its
dispatcher, of those on the Router's die, gets it as the next slot of its channel, or the Router keeps it, not yet counted
in its histogram, while there is no allowance. (Where a launch that has moved has no dispatcher on the die: log 33.) -/
def Sys2Proof.Says.RoutingDecisions : Prop :=
  ∀ (s : State) (die : Nat) (x : RouterTok) (q : List RouterTok),
    let r := s.router die
    let p := x.policy
    let mine := match r.launch with
      | some l => p.disp.filter (fun i => dieOf ((s.launch l).physIdx i) = die)
      | none => []
    let all := if mine = [] then p.disp else mine
    let d := all.getD (x.token.toNat % all.length) 0
    let have_ := (r.allow.find d).getD 0
    r.queue = x :: q → r.held = [] →
    ∃ t rec, exec (.routerTokenDecide die) s = .next t ∧
      t = { s with
        routers := t.routers
        net := t.net
        nextId := t.nextId
        dieMon := t.dieMon
        routeEmpty := t.routeEmpty } ∧
      (∀ e, e ≠ die → t.router e = s.router e) ∧ (t.router die).queue = q ∧ (t.router die).loaded = r.loaded ∧
      rec.length = 128 ∧ rec.take 4 = natBytes 4 x.token.toNat ∧
      (∃ n, n ≤ p.k ∧ rec.getD 8 0 = BitVec.ofNat 8 n) ∧ (∃ n, n ≤ p.r ∧ rec.getD 9 0 = BitVec.ofNat 8 n) ∧
      rec.getD 11 0 = BitVec.ofNat 8 p.k ∧
      ((r.launch = none ∨ have_ = 0) → (∃ n, (t.router die).held = [{ disp := d, record := rec, counted := n }]) ∧
        (t.router die).hist = r.hist ∧ t.net = s.net ∧ t.nextId = s.nextId) ∧
      ∀ l, r.launch = some l → have_ ≠ 0 →
        let c := (s.launch l).physIdx d
        let ep := (s.cell c).chans[0]
        let n := (r.sent.find d).getD 0
        (t.router die).held = [] ∧ (t.router die).allow = r.allow.put d (have_ - 1) ∧
        (t.router die).sent = r.sent.put d (n + 1) ∧ t.nextId = s.nextId + 1 ∧
        t.net = s.net ++ [s.sent (.router die) (.cell c) .exchange (.slot c 0 rec [] (n % ep.slots * ep.size))]

/-- The permit of a round (14 R293): demands within the capacity are granted; otherwise every source gets its whole share,
one pass in source order spends what is left, and the grants are the capacity. -/
def Obligations.PermitGrants : Prop :=
  ∀ (c : Nat) (d : List Nat),
    let g := grants c d
    g.length = d.length ∧ (d.sum ≤ c → g = d) ∧
    (c < d.sum → g.sum = c ∧ ∀ i, i < d.length →
      let share (j : Nat) : Nat := c * d.getD j 0 / d.sum
      share i ≤ g.getD i 0 ∧ g.getD i 0 ≤ share i + 1 ∧ g.getD i 0 ≤ d.getD i 0 ∧
      ∀ j, j < i → g.getD i 0 = share i + 1 → g.getD j 0 = share j + 1 ∨ g.getD j 0 = d.getD j 0)

/-- What a round has of entries that wait for a slot. -/
def Sys2Proof.Machine.Round.demand (r : Round) (x : ExSlot) : Nat :=
  (r.ents.filter (fun e => e.state = .waiting ∧ e.dest = x.dest)).length

/-- A slot charged with what a permit grants it (14 R293): its demand, as far as its capacity goes. -/
def Sys2Proof.Machine.Round.charge (r : Round) (x : ExSlot) : ExSlot :=
  { x with granted := x.granted + min (x.cap - x.granted) (r.demand x) }

/-- The rounds of DISPATCH (14 R289, R292-R294): a round starts when every source has submitted and opens the used slots;
once every device has told of its slots the first permit grants each slot what its capacity bears; entries that overflow are
tried once more under the policies 1 and 2 and dropped otherwise; after the last permit no entry waits. A FAST round has no
permit: it drops the entries whose slot is not in use and sends the others. -/
def Sys2Proof.Says.ExchangeRounds : Prop :=
  (∀ (s : State) (l : Nat) (u : ExSub) (rest : List ExSub) (slots : List ExSlot),
    let y := s.launch l
    y.stage = .running → y.preempt = false → y.cancel = false → s.roundReady l = some (u :: rest) →
    (∀ x ∈ rest, sameRound u x = true) → u.req.role = u.round % 16 →
    s.readSlots y u.req.slotDir.toNat u.req.rowSize y.dies = .ok slots →
    ∃ t r, exec (.dispatchRoundStart l) s = .next t ∧
      t = { s with
        rounds := s.rounds ++ [r]
        exch := t.exch
        nextId := s.nextId + 1
        fabricOut := t.fabricOut
        fabricKept := t.fabricKept
        fabricSeqOut := t.fabricSeqOut } ∧
      t.exch = s.exch.map (fun x => if (u :: rest).any (fun z => z.id = x.id) then { x with started := true } else x) ∧
      r.id = s.nextId ∧ r.n = u.round ∧ r.launch = l ∧ r.fast = u.req.fast ∧ r.phase = .permit ∧ r.far = [] ∧
      r.subs = (u :: rest).map (·.id) ∧ r.slots = slots ∧
      r.ents.map (·.ent) = (u :: rest).flatMap (·.req.ents) ∧ ∀ e ∈ r.ents, e.src < r.subs.length ∧ e.state ≠ .granted) ∧
  ∀ (s : State) (r : Round),
    s.round r.id = some r → (∀ e ∈ r.ents, e.src < r.subs.length) →
    let decided (t : State) : Prop := ∃ z, t.round r.id = some z ∧ z.phase = .decided ∧ (∀ e ∈ z.ents, e.state ≠ .waiting) ∧
      z.slots.map (fun x => { x with finished := false }) = (r.slots.map r.charge).map (fun x => { x with finished := false })
    (r.phase = .permit → s.farReady r = false → exec (.permitRound r.id) s = .next s) ∧
    (r.phase = .permit → s.farReady r = true → r.fast = true → ∃ t z, exec (.permitRound r.id) s = .next t ∧
      (∀ a, Mem.read t.mem a = Mem.read s.mem a) ∧ t.launches = s.launches ∧ t.round r.id = some z ∧ z.phase = .decided ∧
      z.ents = r.ents.map (fun e =>
        if e.state = .waiting ∧ (∀ x ∈ r.slots ++ s.farOf r, x.dest ≠ e.dest) then { e with state := .dropped } else e)) ∧
    (r.phase = .permit → s.farReady r = true → r.fast = false → ∃ t, exec (.permitRound r.id) s = .next t ∧
      (∀ a, Mem.read t.mem a = Mem.read s.mem a) ∧ t.launches = s.launches ∧
      (r.policy = 1 ∨ r.policy = 2 → ∃ z, t.round r.id = some z ∧ z.phase = .second ∧ z.slots = r.slots.map r.charge ∧
        t.cells = s.cells) ∧
      (r.policy ≠ 1 → r.policy ≠ 2 → decided t)) ∧
    (r.phase = .second → ∃ t, exec (.secondRound r.id) s = .next t ∧ (∀ a, Mem.read t.mem a = Mem.read s.mem a) ∧
      t.launches = s.launches ∧ decided t)

/-- PRISM_PACKET_ARRIVE (14 R295): the row goes to the next place of its slot's buffer and its tag beside it, the filled
counter rises, and with its last granted row the slot's done counter. -/
def Sys2Proof.Says.RowsAtExperts : Prop :=
  ∀ (s : State) (m : Msg) (before after : List Msg) (r : Round) (x : ExSlot) (sub : Nat) (token : W32) (seq : Nat)
    (bad byp : Bool) (o dev : Nat) (w : W32) (row : List Byte) (poison : List Nat) (org : ExOrg),
    let c := x.cell
    let y := s.cell c
    s.Lands m before after → m.body = .packet r.id sub token seq bad byp o dev [(x.dest, w)] row poison org →
    org.dev = s.device → s.round r.id = some r → r.fast = false → r.phase = .decided →
    r.slots.find? (fun z => z.dest = x.dest) = some x → x.started = true → x.finished = false → x.pos < x.granted →
    (∀ z ∈ r.slots, z.dest ≠ x.dest → z.finished = true ∨ z.pos ≠ z.granted) →
    (r.slots.map (·.dest)).Pairwise (· ≠ ·) → (s.rounds.map (·.id)).Pairwise (· ≠ ·) →
    (∀ k : Fin 32, (y.k[k]).toNat + 2 < 2 ^ 32) → Memory.wf y.spad.bytes = true →
    let last := x.pos + 1 = x.granted
    let k1 := y.k.set x.filled (y.k[x.filled] + 1)
    let tag := natBytes 16 (expertTag token seq (bad || !poison.isEmpty) o dev w)
    let at_ := x.buffer + x.pos * row.length
    ∃ t, exec (.prismPacketArrive m.id) s = .next t ∧
      t = { s with
        net := before ++ after
        cells := t.cells
        exch := s.exch.map (fun u => if u.id = sub then { u with owed := u.owed - 1 } else u)
        rounds := t.rounds } ∧
      (∀ d, d ≠ c → t.cell d = s.cell d) ∧
      (let act (k : KReg) : KAct := { k := k, sat := false, source := none }
       let wide (b : BitVec 32) (k : KReg) : BitVec 32 :=
         if s.l1Scope c .device = true then b ||| BitVec.ofNat 32 (2 ^ k.val) else b
       t.cell c = { y with
        k := if last then k1.set x.done (k1[x.done] + 1) else k1
        acts := y.acts ++ (if last then [act x.filled, act x.done] else [act x.filled])
        kwide := if last then wide (wide y.kwide x.filled) x.done else wide y.kwide x.filled
        spad := (t.cell c).spad }) ∧
      (t.cell c).spad.full = y.spad.full ∧
      (∀ b, Mem.read (t.cell c).spad.bytes b =
        if x.tags + 16 * x.pos ≤ b ∧ b < x.tags + 16 * x.pos + 16 then tag.getD (b - (x.tags + 16 * x.pos)) 0
        else if at_ ≤ b ∧ b < at_ + row.length then row.getD (b - at_) 0
        else Mem.read y.spad.bytes b) ∧
      t.round r.id = some { r with slots := r.slots.map (fun z =>
        if z.dest = x.dest then { z with pos := x.pos + 1, toCome := x.toCome - 1, finished := decide last } else z) }

/-- From a step that takes a row or notice at combine entry `t`, the entry has become `e` (14 R297): while it lacks a
notice or a granted row that is all; otherwise it is posted under its token and number, and its weights stand at the
weights table. The case of a poisoned token, which also goes into the poison log, is not stated here. -/
def Sys2Proof.Machine.State.EntryTakes (s t : State) (c n : Nat) (ct : CombTable) (e : CombEntry) (p : Spad) : Prop :=
  let g := e.notices.filter (fun x => x.status = .granted)
  let ready := ct.k ≤ e.notices.length ∧ ∀ x ∈ g, ∃ y ∈ e.rows, y.1 = x.j
  let y := s.cell c
  (¬ready → t.cell c = { y with comb := y.comb.put n e, spad := p }) ∧
  (ready → (∀ x ∈ e.notices, x.poison = false) → (∀ x ∈ e.rows, x.2 = false) → n < 65536 →
    ∃ v, t.cell c = { y with
        comb := (y.comb.put n e).put n { e with posted := true }
        readyQ := y.readyQ ++ [v]
        spad := (t.cell c).spad } ∧
      v.toNat / 2 ^ 32 = e.token.toNat ∧ v.toNat % 2 ^ 16 = n ∧
      (∀ j, j < ct.k → j < 8 → (t.cell c).spad.read (ct.weights + 4 * (n * ct.k + j)) 4 =
        (match e.weights.find? (fun z => z.1 = j) with | some z => z.2.toNat | none => 0)) ∧
      ∀ b, b < ct.weights + 4 * (n * ct.k) ∨ ct.weights + 4 * (n * ct.k + ct.k) ≤ b →
        Mem.read (t.cell c).spad.bytes b = Mem.read p.bytes b)

/-- NOTICE_ARRIVE and RETURN_ROW_ARRIVE (14 R290, R296, R297): a notice enters its token's combine entry; a row goes to
the slot of its granted notice. -/
def Sys2Proof.Says.CombineEntries : Prop :=
  ∀ (s : State) (m : Msg) (before after : List Msg) (c n : Nat) (ct : CombTable) (sub : Nat) (org : ExOrg) (e : CombEntry),
    let y := s.cell c
    let took (t : State) : Prop := t = { s with
        net := before ++ after
        cells := t.cells
        exch := s.exch.map (fun u => if u.id = sub then { u with owed := u.owed - 1 } else u) } ∧
      ∀ d, d ≠ c → t.cell d = s.cell d
    s.Lands m before after → org.dev = s.device → e.posted = false → Memory.wf y.spad.bytes = true →
    (∀ x, m.body = .notice c n ct x sub org → e.token = x.token →
      (y.comb.find n = some e ∨ (y.comb.find n = none ∧ e.notices = [] ∧ e.rows = [])) → x.poison = false →
      (∀ z ∈ e.notices, z.poison = false) → (∀ z ∈ e.rows, z.2 = false) →
      ∃ t, exec (.noticeArrive m.id) s = .next t ∧ took t ∧
        s.EntryTakes t c n ct { e with notices := e.notices.filter (fun z => z.j != x.j) ++ [x] } y.spad) ∧
    ∀ x dest row, m.body = .retRow c n ct e.token dest false row [] sub org → y.comb.find n = some e →
      e.sorted.find? (fun z => z.status = .granted ∧ z.dest = dest) = some x →
      (∀ z ∈ e.notices, z.poison = false) → (∀ z ∈ e.rows, z.2 = false) →
      ∃ t p, exec (.returnRowArrive m.id) s = .next t ∧ took t ∧ p.full = y.spad.full ∧
        (∀ b, let at_ := ct.buffer + (n * ct.k + x.j) * ct.rowSize
          Mem.read p.bytes b = if at_ ≤ b ∧ b < at_ + row.length then row.getD (b - at_) 0 else Mem.read y.spad.bytes b) ∧
        s.EntryTakes t c n ct { e with rows := e.rows.filter (fun z => z.1 != x.j) ++ [(x.j, false)] } p

/-- EXCHANGE_COMPLETE (14 R291): a request whose rows and notices have all been performed leaves the engine and its
counter rises. -/
def Sys2Proof.Says.ExchangeEnds : Prop :=
  ∀ (s : State) (u : ExSub),
    let c := (s.launch u.req.launch).physIdx u.req.idx
    let y := s.cell c
    let k : KReg := Fin.ofNat 32 u.req.comp
    s.exSub u.id = some u → u.decided = true → u.owed = 0 → u.req.device = s.device → u.req.comp.testBit 5 = true →
    (y.k[k]).toNat + 1 < 2 ^ 32 →
    (∀ e ∈ y.fibres, ∀ r off n, e.2.status ≠ .parked (.exch r off) n) →
    ∃ t, exec (.exchangeComplete u.id) s = .next t ∧
      t = { s with exch := s.exch.filter (fun x => x.id != u.id), cells := t.cells } ∧
      (∀ d, d ≠ c → t.cell d = s.cell d) ∧
      t.cell c = { y with
        k := y.k.set k (y.k[k] + 1)
        acts := y.acts ++ [{ k := k, sat := false, source := none }]
        kwide := if s.l1Scope c u.req.scope = true then y.kwide ||| BitVec.ofNat 32 (2 ^ k.val) else y.kwide }

/-! ## Steps without an encoding: event units, combining, leases, frames, faults and power -/

/-- A store to an event line is the next of its unit: it has a number of its own and no earlier store to the cluster is on
its way. -/
def Sys2Proof.Machine.State.StoreNext (s : State) (m : Msg) (before after : List Msg) (cl : Nat) : Prop :=
  s.net = before ++ m :: after ∧ (∀ x ∈ before, x.id ≠ m.id ∧ ∀ w q l g v, x.body ≠ .eventStore w q cl l g v) ∧
    ∀ x ∈ after, x.id ≠ m.id

/-- EVENT_LINE_STORE_APPLY (16 R331-R334): a configuration starts the line anew; a store to an OFF line does nothing; 1
sets an event and 0 clears it; a mutex goes to its oldest waiter, or is free; an arrival counts, and the last one ends
the phase or tells the parent. Each store is answered. -/
def Sys2Proof.Says.EventLineStores : Prop :=
  ∀ (s : State) (m : Msg) (before after : List Msg) (w : Asker) (seq : W32) (cl : Nat) (line : Fin 16) (cfg : Bool) (v : Word),
    let key := 16 * cl + line.val
    let l := s.line key
    let reply : MsgBody := .memAns { who := w, posted := true, seq := seq, pc := 0, addr := 0, res := .ok 0 false }
    let ack (n : Nat) : Msg := { s.sent m.dst (.cell w.cell) .response reply with id := n }
    let u := if s.l1Scope w.cell l.scope then s.flushL1 (s.l1Cells w.cell) (fun _ => true) else s
    let becomes (r : State) (k : Line) : Prop := exec (.eventLineStoreApply m.id) s = .next { r with
      net := before ++ after ++ [ack s.nextId]
      nextId := s.nextId + 1
      lines := s.lines.put key k }
    s.StoreNext m before after cl → m.body = .eventStore w seq cl line cfg v → w.dev = s.device →
    (cfg = true → l.waiters = [] → ∃ t, exec (.eventLineStoreApply m.id) s = .next t ∧ t = { s with
      net := before ++ after ++ [ack s.nextId]
      nextId := s.nextId + 1
      lines := s.lines.put key { Line.off with cfg := v, kind := lineKindOf v }
      launches := t.launches }) ∧
    (cfg = false → l.kind = .off → exec (.eventLineStoreApply m.id) s =
      .next { s with net := before ++ after ++ [ack s.nextId], nextId := s.nextId + 1 }) ∧
    (cfg = false → l.kind = .event → v = 0 → becomes s { l with set := false }) ∧
    (cfg = false → s.mayApply w = true →
      (l.kind = .event → v = 1 → l.waiters = [] → becomes u { l with set := true }) ∧
      (l.kind = .mutex → l.waiters = [] → becomes u { l with busy := false }) ∧
      (∀ y rest f a rd len n, l.kind = .mutex → l.waiters = y :: rest →
        f = (s.cell y.who.cell).fibre y.who.slot → f.status = .parked (.event a rd len) n → f.body.fid = y.who.fid →
        let z := u.acqL1 y.who.cell .cluster
        ∃ t, exec (.eventLineStoreApply m.id) s = .next t ∧
          t = { z with
            net := before ++ after ++ [ack s.nextId]
            nextId := s.nextId + 1
            lines := s.lines.put key { l with waiters := rest }
            cells := t.cells } ∧
          (∀ d, d ≠ y.who.cell → t.cell d = z.cell d) ∧
          t.cell y.who.cell = (z.cell y.who.cell).setFibre y.who.slot
            { f with body := { f.body with g := f.body.g.set rd 0 }.past len, status := .ready, parkSeq := none }) ∧
      (l.kind = .barrier → l.arrivals + 1 < fld l.cfg 31 16 → becomes u { l with arrivals := l.arrivals + 1 }) ∧
      (l.kind = .barrier → fld l.cfg 31 16 ≤ l.arrivals + 1 →
        let k : Line := { l with arrivals := 0, closed := l.closed + 1 }
        (s.lineParent key l = none → l.waiters = [] → (∀ e ∈ s.lines, s.lineParent e.1 e.2 ≠ some key) →
          ∃ t, exec (.eventLineStoreApply m.id) s = .next t ∧
            t = { u with net := before ++ after ++ [ack s.nextId], nextId := s.nextId + 1, lines := t.lines } ∧
            t.line key = { k with phase := l.closed + 1 } ∧ ∀ j, j ≠ key → t.line j = s.line j) ∧
        ∀ p, s.lineParent key l = some p → exec (.eventLineStoreApply m.id) s = .next { u with
          net := before ++ after ++ [s.sent (.line key) (.line p) .control (.lineArrive p), ack (s.nextId + 1)]
          nextId := s.nextId + 2
          lines := s.lines.put key k }))

/-- PARENT_ARRIVAL and PARENT_RELEASE_ARRIVE (16 R334): a parent counts the arrival of a child line; the release of a
phase ends it at the child, and its fibres go on with the phase's number. -/
def Sys2Proof.Says.ParentLines : Prop :=
  ∀ (s : State) (m : Msg) (before after : List Msg) (key : Nat),
    let l := s.line key
    s.net = before ++ m :: after → (∀ x ∈ before, x.id ≠ m.id ∧ x.before m = false) → (∀ x ∈ after, x.id ≠ m.id) →
    (m.body = .lineArrive key → l.kind = .barrier → l.arrivals + 1 < fld l.cfg 31 16 →
      exec (.parentArrival m.id) s =
        .next { s with net := before ++ after, lines := s.lines.put key { l with arrivals := l.arrivals + 1 } }) ∧
    (m.body = .lineArrive key → l.kind ≠ .barrier →
      exec (.parentArrival m.id) s = .next { s with net := before ++ after }) ∧
    (∀ y f a rd len n, m.body = .lineRelease key → l.kind = .barrier → l.phase < l.closed → l.waiters = [y] →
      y.phase ≤ l.phase + 1 → (∀ e ∈ s.lines, s.lineParent e.1 e.2 ≠ some key) →
      f = (s.cell y.who.cell).fibre y.who.slot → f.status = .parked (.event a rd len) n → f.body.fid = y.who.fid →
      let z := s.acqL1 y.who.cell l.scope
      ∃ t, exec (.parentReleaseArrive m.id) s = .next t ∧
        t = { z with net := before ++ after, lines := t.lines, cells := t.cells } ∧
        t.line key = { l with phase := l.phase + 1, waiters := [] } ∧ (∀ j, j ≠ key → t.line j = s.line j) ∧
        (∀ d, d ≠ y.who.cell → t.cell d = z.cell d) ∧
        t.cell y.who.cell = (z.cell y.who.cell).setFibre y.who.slot
          { f with
            body := { f.body with g := f.body.g.set rd (BitVec.ofNat 64 y.phase) }.past len
            status := .ready
            parkSeq := none })

/-- COMBINE_RESULT_ARRIVE and COMBINE_REDO (16 R337-R339): once every cell of the launch has contributed to an operation,
each gets its result, over the values in contributor order; a repetition shows only in the die monitors. -/
def Sys2Proof.Says.CombiningResults : Prop :=
  ∀ (s : State) (g : Group) (n m : Nat) (v : Nat → Contrib) (op : CombOp),
    let l := s.launch g.launch
    let key := n
    let count := l.w * l.h
    s.groups.find key = some g → l.key = none → l.spread = [] → l.saved = none → 1 ≤ count →
    (∀ i j, i < count → j < count → l.physIdx i = l.physIdx j → i = j) →
    (∀ i, i < count → (v i).who = i ∧ (v i).op = op ∧ (v i).m = m) →
    (∀ c ∈ g.contribs, c.m = m → ∃ i, i < count ∧ c = v i) → (∀ i, i < count → v i ∈ g.contribs) →
    let vals := (List.range count).map (fun i => (v i).value)
    (∃ t r, exec (.combineResultArrive key m) s = .next t ∧
      t = { s with
        groups := s.groups.put key { g with contribs := g.contribs.filter (fun x => x.m != m) }
        cells := t.cells
        farContribs := t.farContribs } ∧
      (∀ i, i < count → t.cell (l.physIdx i) =
        { s.cell (l.physIdx i) with results := (s.cell (l.physIdx i)).results ++ [r] }) ∧
      (∀ c, (∀ i, i < count → l.physIdx i ≠ c) → t.cell c = s.cell c) ∧
      r.group = key % 16 ∧ r.m = m ∧ r.op = op ∧ r.code = 0 ∧
      (op = .iadd → r.value = vals.foldl (· + ·) 0) ∧
      (op = .qadd → let sum := (vals.map BitVec.toInt).sum
        r.value = BitVec.ofInt 64 sum ∧ (r.ovf = true ↔ sum < -(2 ^ 63) ∨ 2 ^ 63 ≤ sum)) ∧
      (op = .imin → r.value ∈ vals ∧ ∀ x ∈ vals, r.value.toInt ≤ x.toInt) ∧
      (op = .imax → r.value ∈ vals ∧ ∀ x ∈ vals, x.toInt ≤ r.value.toInt) ∧
      (op = .and → r.value = vals.foldl (· &&& ·) (BitVec.allOnes 64)) ∧
      (op = .or → r.value = vals.foldl (· ||| ·) 0) ∧ (op = .barrier → r.value = 0)) ∧
    ∃ t, exec (.combineRedo key m) s = .next t ∧ t = { s with dieMon := t.dieMon } ∧
      (∀ d, d < 4 → t.dieMon.find (32 * d + 23) = some ((s.dieMon.find (32 * d + 23)).getD 0 + 1)) ∧
      ∀ k, (∀ d, d < 4 → k ≠ 32 * d + 23) → t.dieMon.find k = s.dieMon.find k

/-- The Lease Controller at the destination (15 R311, R313): a request takes pairs that are both offered and free, in
grant order, as many as it asks for; with none it waits, and a pair of the victim, which has held its lease for longer than
20 µs, is revoked for it and stands under notice. -/
def Sys2Proof.Says.LeaseService : Prop :=
  ∀ (s : State) (src id count : Nat) (offers : List Nat),
    let q : InReq := { src := src, id := id, count := count, offers := offers, revoking := none }
    let take := ((grantOrder src s.device).filter (fun p => offers.contains p && !s.ingressBusy.contains p)).take count
    let old := s.inLeases.find? (fun l => l.src = src ∧ l.id = id ∧ l.pairs ≠ [])
    (∀ i at_, s.inbox[i]? = some ⟨src, .leaseReq id count offers, at_⟩ →
      (∀ r ∈ s.inReqs, r.revoking ≠ none ∧ (r.src ≠ src ∨ r.id ≠ id)) →
      (take ≠ [] → ∃ t, exec (.leaseRequestArrive i) s = .next t ∧ s.SendsFrame t src .control (.leaseGrant id take) ∧
        t = { s with
          inbox := s.inbox.eraseIdx i
          inLeases := s.inLeases.filter (fun l => !(l.src = src && l.id = id)) ++
            [{ src := src, id := id, since := old.elim s.ns (·.since), pairs := old.elim [] (·.pairs) ++ take }]
          fabricOut := t.fabricOut
          fabricKept := t.fabricKept
          fabricSeqOut := t.fabricSeqOut }) ∧
      (take = [] → (∀ l ∈ s.inLeases, s.ns ≤ l.since + 20000) → exec (.leaseRequestArrive i) s =
        .next { s with inbox := s.inbox.eraseIdx i, inReqs := s.inReqs ++ [q] })) ∧
    (∀ v p rest, s.inReqs = q :: rest → (∀ r ∈ rest, r.revoking ≠ none ∧ (r.src ≠ src ∨ r.id ≠ id)) → take = [] →
      s.inLeases = [v] → (v.src ≠ src ∨ v.id ≠ id) → v.since + 20000 < s.ns →
      (grantOrder src s.device).find? (fun p => v.pairs.contains p && offers.contains p) = some p →
      ∃ t, exec .leaseReclaimRetry s = .next t ∧ s.SendsFrame t v.src .control (.leaseNotice v.id p false) ∧
        t = { s with
          inLeases := [{ v with pairs := v.pairs.erase p }]
          inReqs := { q with revoking := some p } :: rest
          noticed := s.noticed ++ [(v.src, p)]
          fabricOut := t.fabricOut
          fabricKept := t.fabricKept
          fabricSeqOut := t.fabricSeqOut }) ∧
    (take.length ≤ count ∧ take.Pairwise (· ≠ ·) ∧ ∀ p ∈ take, p ∈ offers ∧ p ∉ s.ingressBusy ∧ p < 192)

/-- Leases at their source (15 R312-R314): a grant is set up, what exceeds the count in grant order drains and the counter
rises once; a pair drains when the 2 µs of its notice are over and not before; at the end of the term every pair drains, a
request in flight is cancelled and the counter rises; a pair is given back once no frame on it waits for an
acknowledgement. -/
def Sys2Proof.Says.LeaseTurns : Prop :=
  ∀ (s : State) (l : Lease) (x : Launch) (slot : Nat),
    let y := s.here
    let rises (t : State) : Prop := (∀ d, d ≠ s.cur.cell → t.cell d = s.cell d) ∧
      t.here = { y with
        k := y.k.set l.k (y.k[l.k] + 1)
        acts := y.acts ++ [{ k := l.k, sat := false, source := none }] }
    let drained (ps : List Nat) : List (Nat × Nat) := s.draining ++ ps.map (fun p => (p, l.dest))
    s.leases.find slot = some l → l.id % 4096 = slot → (∀ f ∈ s.fencedFns, f.1 ≠ 3) → s.launches.find l.launch = some x →
    x.saved = none → x.physIdx l.idx = s.cur.cell → (y.k[l.k]).toNat + 1 < 2 ^ 32 →
    (∀ new, l.arrived = some new →
      let all := (grantOrder s.device l.dest).filter (l.pairs ++ new).contains
      ∃ t, exec (.leaseGrantSettle slot) s = .next t ∧ rises t ∧
        t = { s with
          leases := s.leases.put slot { l with st := .granted, pairs := all.take l.want, arrived := none }
          draining := drained (all.drop l.want)
          cells := t.cells }) ∧
    (∀ p n, l.notice.find? (fun n => n.1 = p) = some n →
      (n.2 ≤ s.ns → exec (.leaseNoticeExpire slot p) s =
        .next { s with leases := s.leases.put slot { l with notice := l.notice.erase n }, draining := drained [p] }) ∧
      (s.ns < n.2 → exec (.leaseNoticeExpire slot p) s = .next s)) ∧
    (s.ns < l.endsAt → exec (.leaseTermExpire slot) s = .next s) ∧
    (l.live = true → l.endsAt ≤ s.ns → ∃ t, exec (.leaseTermExpire slot) s = .next t ∧ rises t ∧
      t = { s with
        leases := s.leases.put slot { l with st := .ended, pairs := [], notice := [], arrived := none }
        draining := drained (l.pairs ++ l.notice.map Prod.fst ++ l.arrived.getD [])
        cells := t.cells
        fabricOut := t.fabricOut
        fabricKept := t.fabricKept
        fabricSeqOut := t.fabricSeqOut } ∧
      (s.asking l = true → s.SendsFrame t l.dest .control (.leaseCancel l.id)) ∧
      (s.asking l = false → t.fabricOut = s.fabricOut ∧ t.fabricKept = s.fabricKept ∧ t.fabricSeqOut = s.fabricSeqOut)) ∧
    ∀ p dest rest, s.draining = (p, dest) :: rest →
      ((∀ k ∈ s.fabricKept, k.frame.dev = dest → k.frame.pair ≠ some p) → ∃ t, exec (.leasePairDrained p) s = .next t ∧
        t = { s with
          draining := rest
          fabricOut := t.fabricOut
          fabricKept := t.fabricKept
          fabricSeqOut := t.fabricSeqOut } ∧
        s.SendsFrame t dest .control (.leaseFree p)) ∧
      ∀ k ∈ s.fabricKept, k.frame.dev = dest → k.frame.pair = some p → exec (.leasePairDrained p) s = .next s

/-- Frames of the fabric (15 R307, R308): the next frame of its series is taken and acknowledged; a spoiled frame and a
duplicate are discarded and answered, one that comes early waits; an acknowledgement ends the keeping of its frame; a kept
frame that has failed, or has been without an answer for 4 µs, is sent again under its number, and no other is. -/
def Sys2Proof.Says.Frames : Prop :=
  (∀ (s : State) (i : Nat) (f : FabricMsg), s.fabricIn[i]? = some f →
    let key := 8 * f.dev + f.cls.code
    let next := (s.fabricSeqIn.find key).getD 0
    let rest := s.fabricIn.eraseIdx i
    let ack (good : Bool) : FabricMsg :=
      { dev := f.dev, seq := f.seq, good := true, cls := .response, body := .frameAck f.cls f.seq good, pair := none }
    (∀ c n g, f.body = .frameAck c n g →
      let it (k : KeptFrame) : Bool := k.frame.dev == f.dev && k.frame.cls == c && k.frame.seq == n
      exec (.turobFrameReceive i) s = .next { s with
        fabricIn := rest
        fabricKept :=
          if f.good = false then s.fabricKept
          else if g = true then s.fabricKept.filter (fun k => !it k)
          else s.fabricKept.map (fun k => if it k = true then { k with failed := true } else k) }) ∧
    ((∀ c n g, f.body ≠ .frameAck c n g) →
      ((f.good = false ∨ f.seq < next) → exec (.turobFrameReceive i) s =
        .next { s with fabricIn := rest, fabricOut := s.fabricOut ++ [ack f.good] }) ∧
      (f.good = true → next < f.seq → exec (.turobFrameReceive i) s = .next s)) ∧
    (∀ a, f.good = true → f.seq = next → f.body = .memAns a → exec (.turobFrameReceive i) s = .next { s with
      fabricIn := rest
      fabricSeqIn := s.fabricSeqIn.put key (next + 1)
      fabricOut := s.fabricOut ++ [ack true]
      net := s.net ++ [s.sent (.device f.dev) (.cell a.who.cell) .response f.body]
      nextId := s.nextId + 1 }) ∧
    (∀ r va, f.good = true → f.seq = next → f.body = .mem r → (∀ g ∈ s.fencedFns, g.1 ≠ 4) → fld r.addr 63 60 = 0x1 →
      va = fld r.addr 47 0 → exec (.turobFrameReceive i) s = .next { s with
        fabricIn := rest
        fabricSeqIn := s.fabricSeqIn.put key (next + 1)
        fabricOut := s.fabricOut ++ [ack true]
        net := s.net ++ [s.sent (.device f.dev) (s.homeNode r.ctx.job (.global va)) .request (.mem { r with place := .global va })]
        nextId := s.nextId + 1 })) ∧
  ∀ (s : State) (i : Nat) (k : KeptFrame), s.fabricKept[i]? = some k →
    ((k.failed = true ∨ k.sentAt + 4000 ≤ s.ns) → ∃ t pair, exec (.turobFrameResend i) s = .next t ∧
      let f : FabricMsg := { k.frame with pair := pair }
      t = { s with
        fabricOut := s.fabricOut ++ [f]
        fabricKept := s.fabricKept.set i { frame := f, sentAt := s.ns, failed := false, tries := k.tries + 1 }
        dieMon := t.dieMon }) ∧
    (k.failed = false → s.ns < k.sentAt + 4000 → exec (.turobFrameResend i) s = .next s)

/-- Every open session has been told of something by an EVENT of a kind (19 R380). -/
def Sys2Proof.Machine.State.Tells (s t : State) (kind : Nat) (data : List Byte) : Prop :=
  t.hostOut = s.hostOut ++ s.sessions.map (fun e =>
    { session := e.1, op := e.2.devNext, body := .event kind (e.2.job.getD 0) data
      segs := HostBody.segs (.event kind (e.2.job.getD 0) data) }) ∧
  t.sessions = s.sessions.map (fun e => (e.1, { e.2 with devNext := e.2.devNext + 1 }))

/-- UNCORRECTABLE_ERROR and FUNCTION_FENCE (11 R227, R230; 18 R373): the sector is poisoned, once; an error in device
memory is counted at the C-die of its stack; a fenced cell is excluded and its launch is to end as FENCED with the cell's
number as detail; every session hears of the fence. -/
def Sys2Proof.Says.FaultsAndFences : Prop :=
  ∀ (s : State) (c sector : Nat), c < 768 →
    (sector < 16384 → (s.cell c).spad.poison.contains sector = true → exec (.uncorrectableError (some c) sector) s = .next s) ∧
    (s.memPoison.contains sector = true → exec (.uncorrectableError none sector) s = .next s) ∧
    (sector < 16384 → (s.cell c).launch = none → (s.cell c).spad.poison.contains sector = false → ∃ t, exec (.uncorrectableError (some c) sector) s = .next t ∧ s.OnlyCell t c ∧
      t.cell c = { s.cell c with spad := { (s.cell c).spad with poison := setAdd (s.cell c).spad.poison sector } }) ∧
    (sector < 2 ^ 33 → s.memPoison.contains sector = false → (∀ e ∈ s.jobs, 64 * sector < e.2.allotBase ∨ e.2.allotBase + e.2.allotSize ≤ 64 * sector) →
      ∃ t, exec (.uncorrectableError none sector) s = .next t ∧
        t = { s with memPoison := setAdd s.memPoison sector, dieMon := t.dieMon } ∧
        let key := 32 * (stackOf (64 * sector) / 2) + 9
        t.dieMon.find key = some ((s.dieMon.find key).getD 0 + 1) ∧ ∀ k, k ≠ key → t.dieMon.find k = s.dieMon.find k) ∧
    (c ∉ s.excluded → AMap.wf s.sessions = true → ∃ t, exec (.functionFence 0 c) s = .next t ∧
      s.Tells t 3 (natBytes 8 (Config.fenceDetail 0 c)) ∧ t.cells = s.cells ∧
      ((∀ e ∈ s.authors, some e.2 ≠ (s.cell c).launch) → t.mem = s.mem) ∧ Config.fenceDetail 0 c % 4096 = c ∧
      (∀ d, d ∈ t.excluded ↔ d ∈ s.excluded ∨ d = c) ∧ t.fencedFns = s.fencedFns ∧
      ∀ n l, (s.cell c).launch = some n → s.launches.find n = some l → AMap.wf s.launches = true → l.cancel = false →
        l.key = none → ∃ k, t.launches.find n = some k ∧ k.cancel = true ∧ k.preempt = false ∧
          (l.ended = none → k.ended = some (.fenced (Config.fenceDetail 0 c))))

/-- POWER_GOOD, POWER_CAP_EXCEED, POWER_STEP_UP and THERMAL_LIMIT (19 R387, R388): power leaves memory and scratchpads
zero with clear poison and nothing running, and what boot reads once it has verified the repair map; a window above the cap
and the thermal limit force the half step; the step up comes 100 ms after the last thermal limit (DEDUCED, log 82) and the
last window of 90 % of the cap or more, and not before; every session
hears of a change; the hard limit fences the device. -/
def Sys2Proof.Says.PowerSteps : Prop :=
  ∀ (s : State), AMap.wf s.sessions = true →
    (∃ t, exec .powerGood s = .next t ∧ t.bootFailed = bootStep ∧
      (bootReaches 3 = true → t.device = Config.deviceNumber ∧ t.device < 2304 ∧
        ∀ c, c ∈ t.excluded ↔ c ∈ Config.repairMap) ∧
      (bootReaches 3 = false → t.device = 0 ∧ t.excluded = []) ∧ (bootReaches 5 = false → t.form = none) ∧
      t.measured.length = 4 ∧ 1000 ≤ t.cap ∧ t.cap ≤ 3200 ∧
      t = { State.reset with
        agenda := s.agenda
        fresh := s.fresh
        nextId := s.nextId
        fabricIn := s.fabricIn
        device := t.device
        excluded := t.excluded
        up := true
        bootFailed := t.bootFailed
        measured := t.measured
        form := t.form
        sources := t.sources
        cap := t.cap } ∧
      (∀ a, Mem.read t.mem a = 0) ∧ t.memPoison = [] ∧ ∀ c a, Mem.read (t.cell c).spad.bytes a = 0 ∧ (t.cell c).spad.poison = []) ∧
    (let moves (i : Instr) (half : Bool) (warm : Nat) : Prop := ∃ t, exec i s = .next t ∧
        t = { s with
          half := half
          warmAt := warm
          stepAt := t.stepAt
          sevenths := t.sevenths
          dieMon := t.dieMon
          hostOut := t.hostOut
          unacked := t.unacked
          sessions := t.sessions } ∧
        t.ns = s.ns ∧
        (s.half = half → t.hostOut = s.hostOut) ∧ (s.half ≠ half → s.Tells t 4 [if half then 1 else 0])
     let above := Config.windowPower s.fresh + 1
     (s.cap < above → moves .powerCapExceed true s.ns) ∧
     (above ≤ s.cap → 9 * s.cap ≤ 10 * above → exec .powerCapExceed s = .next { s with warmAt := s.ns }) ∧
     (10 * above < 9 * s.cap → exec .powerCapExceed s = .next s) ∧
     (s.warmAt + 100000000 ≤ s.ns → moves .powerStepUp false s.warmAt) ∧
     (s.ns < s.warmAt + 100000000 → exec .powerStepUp s = .next s) ∧ moves (.thermalLimit false) true s.ns) ∧
    ((∀ f ∈ s.fencedFns, f.1 ≠ 4) → s.launches = [] → ∃ t, exec (.thermalLimit true) s = .next t ∧ t.half = true ∧
      (∀ c, c < 768 → c ∈ t.excluded) ∧ (4, 0) ∈ t.fencedFns ∧ t.cells = s.cells ∧ t.mem = s.mem)

/-! ## Steps without an encoding: the host (03 R42-R44, R55-R58; 11 R234, R235; 19 R378, R384, R385) -/

/-- The next operation of a session has the code and the payload, and none is under way; the one after it, if it is here,
has an assigned code. -/
def Sys2Proof.Machine.State.Requests (s : State) (session : Nat) (x : Session) (code : Nat) (d : List Byte) : Prop :=
  s.sessions.find session = some x ∧ x.ready = some (code, d) ∧ x.busy = false ∧
    ∀ c e, x.past.ready = some (c, e) → assignedCode c = true

/-- The operation of a session has been answered (03 R57): the message is kept until it is acknowledged, and the session
is past the operation. -/
def Sys2Proof.Machine.State.says (s : State) (session : Nat) (x : Session) (b : HostBody) : State :=
  let m : HostMsg := { session := session, op := x.next, body := b, segs := b.segs }
  { s with
    hostOut := s.hostOut ++ [m]
    unacked := s.unacked ++ [(m, b.segs.map (fun i => (i, s.ns)))]
    sessions := s.sessions.put session x.past }

/-- A reply with a status of 03 Table 3.8. -/
def Sys2Proof.Machine.State.replies (s : State) (session : Nat) (x : Session) (code status : Nat) (d : List Byte) : State :=
  s.says session x (.reply code status d)

/-- OPEN and CLOSE (03 R42, R58): once every segment of an OPEN is here, the credential's digest decides; a session opens
under a fresh number; CLOSE ends it. That an OPEN of a job that does not exist is answered NONE is the model's reading (log
44), and that the operation after OPEN has number 1 its choice (log 74). -/
def Sys2Proof.Says.Sessions : Prop :=
  (∀ (s : State) (i c : Nat) (o : InSeg) (d : List Byte) (g : List Byte),
    let job := bAt d 0 4
    let n := s.nextId + 1
    let y : Session := { job := if job = 0 then none else some job, next := 1, devNext := 1, segs := [], busy := false }
    let sends (u : State) (session st : Nat) : State :=
      let m : HostMsg := { session := session, op := o.op, body := .reply 1 st [], segs := HostBody.segs (.reply 1 st []) }
      { u with
        opens := s.opens.filter (fun p => p.op != o.op)
        hostOut := s.hostOut ++ [m]
        unacked := s.unacked ++ [(m, m.segs.map (fun i => (i, s.ns)))] }
    s.opens[i]? = some o → assembled s.opens o.op = some (c, d) → d.length = 36 → s.sessions.length < 256 →
    (job = 0 → g = Config.adminDigest) → (job ≠ 0 → (s.jobs.find job).map (·.digest) = some g) →
    (Config.sha384 (d.drop 4) = g →
      exec (.hostOpen i) s = .next (sends { s with nextId := n, sessions := s.sessions.put n y } n 0)) ∧
    (Config.sha384 (d.drop 4) ≠ g → exec (.hostOpen i) s = .next (sends s 0 6))) ∧
  ∀ (s : State) (session : Nat) (x : Session), s.Requests session x 2 [] → exec (.close session) s =
    .next { s.replies session x 2 0 [] with sessions := (s.sessions.put session x.past).del session }

/-- WRITE and READ inside one page (03 R43): the bytes go where the job's page tables say, and come from there; an
unmapped page gives XLATE and nothing is written. -/
def Sys2Proof.Says.HostMemory : Prop :=
  ∀ (s : State) (session : Nat) (x : Session) (d : List Byte) (job n p : Nat),
    let va := bAt d 0 8
    x.job = some job → va < 2 ^ 57 → 1 ≤ n → va % 65536 + n ≤ 65536 →
    (s.Requests session x 3 d → d.length = 8 + n →
      (s.MemWf → s.translate job va .write = .pa p → ∃ (t u : State), exec (.write session) s = .next t ∧
        t = u.replies session x 3 0 (natBytes 8 n) ∧ u = { s with mem := u.mem, memPoison := u.memPoison, authors := u.authors } ∧
        (∀ k, k < n → Mem.read u.mem (p + k) = d.getD (8 + k) 0) ∧
        ∀ a, a < p ∨ p + n ≤ a → Mem.read u.mem a = Mem.read s.mem a) ∧
      ((s.job job).walk va 3 = none → (∀ e ∈ s.invs, e.2.job ≠ job) → exec (.write session) s = .next (s.replies session x 3 4 (natBytes 8 0)))) ∧
    (s.Requests session x 4 d → d.length = 12 → bAt d 8 4 = n → s.translate job va .read = .pa p →
      ∃ b, exec (.read session) s = .next (s.replies session x 4 0 b) ∧ b.length = n ∧
        ∀ k, k < n → b.getD k 0 = Mem.read s.mem (p + k))

/-- QREG, QDEL and APPEND (03 R44): a queue gets the lowest free number; an empty queue goes; entries are written at the
tail, and then the tail moves; every reply to an APPEND to a queue gives its free slots, which leave out that of a GRAPH
whose instance is being built (02 R39). That the lowest free number is taken is the model's choice (log 45). -/
def Sys2Proof.Says.HostQueues : Prop :=
  ∀ (s : State) (session : Nat) (x : Session) (d : List Byte) (job q : Nat),
    x.job = some job →
    (s.Requests session x 5 d → d.length = 10 →
      let base := bAt d 0 8
      let n := bAt d 8 1
      base % 64 = 0 → 4 ≤ n → n ≤ 16 → bAt d 9 1 ≤ 1 → s.queues.lowestFree 4096 0 = some q →
      (∀ p, base / 65536 ≤ p → p ≤ (base + 64 * 2 ^ n - 1) / 65536 → 65536 * p < 2 ^ 57 ∧
        (s.job job).walk (65536 * p) 3 ≠ none) →
      ∃ y : Queue, exec (.qreg session) s = .next ({ s with queues := s.queues.put q y }.replies session x 5 0 (natBytes 2 q)) ∧
        y.job = job ∧ y.base = base ∧ y.logN = n ∧ y.notify = decide (bAt d 9 1 = 1) ∧ y.tail = 0 ∧ y.taken = 0 ∧ y.phase = none ∧
        y.slot = none) ∧
    (∀ y, s.Requests session x 6 d → d.length = 2 → bAt d 0 2 = q → s.queues.find q = some y → y.job = job →
      (y.taken = y.tail → y.phase = none → s.queueWorks q = [] →
        exec (.qdel session) s = .next ({ s with queues := s.queues.del q }.replies session x 6 0 [])) ∧
      (y.taken ≠ y.tail → exec (.qdel session) s = .next (s.replies session x 6 8 []))) ∧
    ∀ y l, s.Requests session x 7 d → bAt d 0 2 = q → s.queues.find q = some y → y.job = job → 4 ≤ d.length →
      let n := bAt d 2 2
      let free := s.freeSlots q y
      ((∀ e ∈ s.queueWorks q, e.2.kind = 2 → e.2.started = true) → free = 2 ^ y.logN - (y.tail - y.taken)) ∧
      (n = 0 ∨ 16 < n → exec (.append session) s = .next (s.replies session x 7 11 (natBytes 4 free))) ∧
      (1 ≤ n → n ≤ 16 → d.length ≠ 4 + 64 * n → exec (.append session) s = .next (s.replies session x 7 7 (natBytes 4 free))) ∧
      (1 ≤ n → n ≤ 16 → d.length = 4 + 64 * n → (s.job job).cancel = false →
      (free < n → exec (.append session) s = .next (s.replies session x 7 2 (natBytes 4 free))) ∧
      (n ≤ free → s.ringSlots y (upFrom n y.tail) = .ok l → l.Pairwise (fun a b => a + 64 ≤ b ∨ b + 64 ≤ a) → s.MemWf →
        ∃ (t u : State) (z : Queue), exec (.append session) s = .next t ∧ t = u.replies session x 7 0 (natBytes 4 (free - n)) ∧
          u = { s with mem := u.mem, memPoison := u.memPoison, authors := u.authors, queues := s.queues.put q z } ∧
          z = { y with tail := y.tail + n, owners := y.owners ++ List.replicate n session, waitSince := z.waitSince } ∧
          (∀ e k, e < n → k < 64 → Mem.read u.mem (l.getD e 0 + k) = d.getD (4 + 64 * e + k) 0) ∧
          ∀ a, (∀ p ∈ l, a < p ∨ p + 64 ≤ a) → Mem.read u.mem a = Mem.read s.mem a))

/-- CANCEL (03 R55, R56): an entry of the ring that it names leaves the ring; what names nothing is answered NONE. -/
def Sys2Proof.Says.HostCancels : Prop :=
  ∀ (s : State) (session : Nat) (x : Session) (d : List Byte) (job q : Nat) (y : Queue) (b : List Byte) (o : Nat),
    let level := bAt d 0 1
    s.Requests session x 8 d → d.length = 10 → x.job = some job → level = 2 ∨ level = 3 → bAt d 1 1 = 0 → bAt d 2 2 = q →
    s.queues.find q = some y → y.job = job → s.queueWorks q = [] → y.removed = [] → y.leaving = none →
    (y.tail = y.taken → exec (.cancel session) s = .next (s.replies session x 8 3 [])) ∧
    (y.tail = y.taken + 1 → y.owners = [o] → s.entryBytes y y.taken = .ok b → (bAt b 0 8).testBit 9 = false → y.notify = false →
      bAt b 0 1 = (if level = 2 then 2 else 1) → bAt b 4 4 = bAt d 4 4 →
      exec (.cancel session) s = .next ({ s with
        queues := s.queues.put q { y with taken := y.taken + 1, owners := [] } }.replies session x 8 0 []))

/-- WREG, WDEL and WACK (19 R378): a window is registered, removed when nothing uses it; the host's answer reaches the
segment that waits for it. -/
def Sys2Proof.Says.HostWindows : Prop :=
  ∀ (s : State) (session : Nat) (x : Session) (d : List Byte) (job : Nat) (j : Job),
    let n := bAt d 1 8
    x.job = some job → s.jobs.find job = some j →
    (s.Requests session x 9 d → d.length = 9 → n ≠ 0 → n % 65536 = 0 → n ≤ 2 ^ 40 →
      exec (.wreg session) s = .next ({ s with
        jobs := s.jobs.put job { j with windows := j.windows.put (bAt d 0 1) (session, n) } }.replies session x 9 0 [])) ∧
    (s.Requests session x 10 d → d.length = 1 → j.windows.find (bAt d 0 1) ≠ none → s.windowUsed job (bAt d 0 1) = false →
      exec (.wdel session) s = .next ({ s with
        jobs := s.jobs.put job { j with windows := j.windows.del (bAt d 0 1) } }.replies session x 10 0 [])) ∧
    ∀ w, s.Requests session x 11 d → s.winOps.find? (fun w => w.session = session ∧ w.op = bAt d 0 4) = some w → bAt d 4 2 = 0 →
      d.length = 6 + w.n.getD 0 → w.dev = s.device → w.cell < 768 →
      ∃ t, exec (.wack session) s = .next t ∧
        t = { s with winOps := s.winOps.erase w, sessions := s.sessions.put session x.past, cells := t.cells } ∧
        (∀ c, c ≠ w.cell → t.cell c = s.cell c) ∧
        t.cell w.cell = { s.cell w.cell with copy := { (s.cell w.cell).copy with
          xfers := (s.cell w.cell).copy.xfers.map (fun x => { x with
            segs := x.segs.map (fun g => if g.id = w.seg ∧ g.answer = none then
              { g with answer := some (.data ((d.drop 6).map (fun b => (b, false)))) } else g) }) } }

/-- DESC, ATTEST and PMREAD (03 R57; 19 R384, R385): the device's description; a report of the measurements that boot took,
over the nonce, whose signature is an opaque value (log 14); the 32 monitors of a die, of which the reserved ones read 0 and those that the model does
not keep are free (log 18). -/
def Sys2Proof.Says.DeviceReports : Prop :=
  ∀ (s : State) (session : Nat) (x : Session) (d : List Byte),
    (s.Requests session x 12 [] → ∃ u ex, exec (.desc session) s = .next (s.says session x
      (.desc s.device u ex s.fencedFns Config.securityVersion Config.certificates s.form s.bootFailed)) ∧
      u = 768 - s.excluded.length ∧ ex = s.excluded.map (fun c => (c % 24, c / 24))) ∧
    (s.Requests session x 13 d → d.length = 32 → ∃ sig, exec (.attest session) s = .next (s.says session x
      (.report Config.serial Config.securityVersion
        s.measured d sig))) ∧
    (s.Requests session x 14 d → d.length = 1 → bAt d 0 1 ≤ 3 → ∃ b, exec (.pmread session) s = .next (s.replies session x 14 0 b) ∧
      b.length = 256 ∧ ∀ i, i < 32 →
        (29 ≤ i → bAt b (8 * i) 8 = 0) ∧
        (i = 6 → bAt b (8 * i) 8 = (s.jobs.map (fun e => e.2.pins.length)).sum % 2 ^ 64) ∧
        (i = 24 → bAt b (8 * i) 8 =
          ((s.dieMon.find (32 * bAt d 0 1 + i)).getD 0 + if s.half = true then s.now - s.stepAt else 0) % 2 ^ 64) ∧
        (i ∈ [7, 8, 9, 10, 11, 12, 13, 14, 15, 21, 22, 23, 25, 28] →
          bAt b (8 * i) 8 = (s.dieMon.find (32 * bAt d 0 1 + i)).getD 0 % 2 ^ 64))

/-- JOBNEW, JOBDEL and JOBSET (03 R58): a job enters the table with what its description says; a device set is defined; a
job whose cancel is over leaves with its queues and sessions. -/
def Sys2Proof.Says.HostJobs : Prop :=
  ∀ (s : State) (session : Nat) (x : Session) (d : List Byte),
    let job := bAt d 0 4
    x.job = none →
    (s.Requests session x 16 d → d.length = 128 → bAt d 4 4 = 0 → bAt d 0xE 10 = 0 → jobNewOk d = true → s.jobs.find job = none →
      s.jobs.length < 1024 → (s.jobs.map (fun e => e.2.quota)).sum + bAt d 0xC 1 ≤ 192 →
      ∃ j, exec (.jobnew session) s = .next ({ s with jobs := s.jobs.put job j }.replies session x 16 0 []) ∧
        j.priority = bAt d 8 1 ∧ j.preemptible = decide (bAt d 9 1 = 1) ∧ j.umbra = bAt d 0xA 1 ∧ j.containment = bAt d 0xB 1 ∧
        j.quota = bAt d 0xC 1 ∧ j.poisonN = bAt d 0xD 1 ∧ j.digest = (d.drop 0x18).take 48 ∧ j.allotBase = bAt d 0x48 8 ∧
        j.allotSize = bAt d 0x50 8 ∧ j.poolBase = bAt d 0x58 8 ∧ j.poolSize = bAt d 0x60 8 ∧ j.poisonRing = bAt d 0x68 8 ∧
        j.poisonBlock = bAt d 0x70 8 ∧ j.shadowSize = bAt d 0x78 8 ∧ j.devSet = [s.device] ∧ j.pt = [] ∧ j.pins = [] ∧
        j.sets = [] ∧ j.windows = [] ∧ j.phases = 0 ∧ j.cancel = false) ∧
    (∀ j, s.sessions.find session = some x → x.ready = some (17, d) → d.length = 4 → s.jobs.find job = some j →
      (∀ e ∈ s.works, e.2.job ≠ job) →
      (x.busy = false → (∀ e ∈ s.queues, e.2.job ≠ job) → (∀ p ∈ s.phases, p.job ≠ job) → j.devSet = [s.device] →
        ∃ t, exec (.jobdel session) s = .next t ∧ t.sessions.find session = some { x with busy := true } ∧
          (∀ e ∈ t.sessions, e.2.job ≠ some job) ∧ t.hostOut = s.hostOut ∧ t.mem = s.mem ∧ t.cells = s.cells) ∧
      (x.busy = true → j.cancel = false → (∀ e ∈ s.leases, e.2.job = job → e.2.live = false) →
        (∀ c e, x.past.ready = some (c, e) → assignedCode c = true) →
        exec (.jobdel session) s = .next ({ s with
          jobs := s.jobs.del job
          queues := s.queues.filter (fun e => e.2.job != job)
          sessions := s.sessions.filter (fun e => e.2.job != some job)
          phases := s.phases.filter (fun p => p.job != job)
          invs := s.invs.filter (fun e => e.2.job != job)
          tlbs := s.tlbs.map (fun t : Nat × List TlbEntry => (t.1, t.2.filter (fun e => e.job != job))) }.replies session x 17 0 []))) ∧
    ∀ j, s.Requests session x 21 d → s.jobs.find job = some j →
      let n := bAt d 6 2
      let devs := (List.range n).map (fun i => bAt d (8 + 2 * i) 2)
      d.length = 8 + 2 * n → bAt d 5 1 = 0 → bAt d 4 1 ≤ 15 → 1 ≤ n → n ≤ 2304 → (∀ a ∈ devs, a ≤ 2303) →
      ∃ all, exec (.jobset session) s = .next ({ s with
          jobs := s.jobs.put job { j with sets := j.sets.put (bAt d 4 1) devs, devSet := all } }.replies session x 21 0 []) ∧
        ∀ a, a ∈ all ↔ a = s.device ∨ ∃ e ∈ j.sets.put (bAt d 4 1) devs, a ∈ e.2

/-- JOBMAP, JOBUNMAP, INVALIDATION_COMPLETE and JOBPIN of one page (03 R58; 11 R231-R235): the walk of every address of
the page ends at the new leaf, or nowhere after an unmap; the operation is answered when the invalidation is complete, which
waits for every chunk or element that has begun on the page, and after which no TLB and no L1 of the job holds the page;
a page that is pinned is one entry of the pin table. -/
def Sys2Proof.Says.PageTables : Prop :=
  ∀ (s : State) (session : Nat) (x : Session) (d : List Byte) (j : Job),
    let job := bAt d 0 4
    let level := bAt d 4 1
    let va := bAt d 0xC 8
    let size := 2 ^ ptShift level
    let attr := bAt d 5 1
    let pa := bAt d 0x14 8
    let begun (t : State) : Prop := t.hostOut = s.hostOut ∧ t.sessions.find session = some { x with busy := true } ∧
      (∃ i, t.invs = s.invs.put s.nextId i ∧ i.session = session ∧ i.op = x.next ∧ i.job = job ∧ i.page = va / 65536 ∧
        i.n = 2 ^ (ptShift level - 16)) ∧
      t = { s with jobs := t.jobs, invs := t.invs, sessions := t.sessions, dieMon := t.dieMon, nextId := s.nextId + 1 }
    s.jobs.find job = some j →
    (x.job = none → level ≤ 2 → va % size = 0 → va + size ≤ 2 ^ 57 → j.clash level va = false →
      (s.Requests session x 18 d → d.length = 28 → bAt d 6 2 = 0 → bAt d 8 4 = 1 → attr ≤ 7 → pa % size = 0 →
        pa + size ≤ Config.memBytes → j.allotBase ≤ pa → pa + size ≤ j.allotBase + j.allotSize →
        ∃ t k, exec (.jobmap session) s = .next t ∧ begun t ∧ t.jobs = s.jobs.put job k ∧
          ∀ a, va ≤ a → a < va + size → k.walk a 3 = some (BitVec.ofNat 64 (pa + 4 * attr + 1), level)) ∧
      (s.Requests session x 19 d → d.length = 20 → bAt d 5 3 = 0 → bAt d 8 4 = 1 → j.leafLevel va = some level →
        ∃ t k, exec (.jobunmap session) s = .next t ∧ begun t ∧ t.jobs = s.jobs.put job k ∧
          ∀ a, va ≤ a → a < va + size → k.walk a 3 = none)) ∧
    (∀ inv i, s.invs.find inv = some i → i.job = job → s.sessions.find i.session = some x → i.op = x.next →
      (∀ c e, x.past.ready = some (c, e) → assignedCode c = true) →
      (s.unitsOn i = true → exec (.invalidationComplete inv) s = .next s) ∧
      (s.unitsOn i = false →
      let u := (s.flushPages i).tlbDrop i.job i.page i.n
      (∀ z, (z ∈ u.tlbs) → ∀ (t : TlbEntry), t ∈ z.2 → t.job = job → i.page + i.n ≤ t.span.1 ∨ t.span.1 + t.span.2 ≤ i.page) ∧
      (∀ c ∈ s.jobCells job, ∀ y ∈ (u.cell c).l1, i.covers (64 * y.va) 64 = false) ∧
      exec (.invalidationComplete inv) s = .next ({ u with
        invs := s.invs.del inv
        jobs := s.jobs.put job { j with pins := j.pins.filter (fun p =>
          !(p.revoking && decide (p.page < i.page + i.n ∧ i.page < p.page + p.n))) } }.replies i.session x i.code 0 []))) ∧
    ∀ l, s.Requests session x 20 d → x.job = none → d.length = 20 → bAt d 5 3 = 0 → bAt d 8 4 = 1 → level ≤ 1 →
      j.leafLevel va = some l → va % 2 ^ ptShift l = 0 →
      let rest := j.pins.filter (fun p => p.page != va / 65536)
      let pin : Pin := { page := va / 65536, n := 2 ^ (ptShift l - 16), revoking := false }
      (level = 1 → exec (.jobpin session) s =
        .next ({ s with jobs := s.jobs.put job { j with pins := rest } }.replies session x 20 0 [])) ∧
      (level = 0 → ((s.jobs.filter (fun e => e.1 != job)).map (fun e => e.2.pins.length)).sum + rest.length + 1 ≤ 1024 →
        exec (.jobpin session) s =
          .next ({ s with jobs := s.jobs.put job { j with pins := rest ++ [pin] } }.replies session x 20 0 []))

/-- BRUGUS_SEGMENT_RECEIVE, BRUGUS_ACK and BRUGUS_RETRANSMIT (03 R57, 19 R386): a datagram from an address, of 6 bytes (PRESUMED, log
29), that the source filter does not let in has no effect; a new segment is kept and acknowledged, one that is here already is not kept twice,
one of a session that is not open is answered NONE; an OPEN waits for its turn; the segments that have had no
acknowledgement for 500 µs are sent again, and no others. -/
def Sys2Proof.Says.Segments : Prop :=
  (∀ (s : State) (src dg : List Byte) (g : SegHdr) (x : Session), src.length = 6 →
    let ack (session : Nat) : HostMsg := { session := session, op := 0, body := .ack [(g.op, g.idx)], segs := [0] }
    let k : InSeg := { op := g.op, idx := g.idx, code := g.code, last := g.last, data := g.data }
    let y : Session := { x with segs := x.segs ++ [k] }
    (s.sourceOk src = false → exec (.brugusSegmentReceive (src ++ dg)) s = .next s) ∧
    (parseSegment dg = some g → s.up = true → s.sourceOk src = true → s.bootFailed = none → g.isReply = false →
    (g.code = 1 → (∀ o ∈ s.opens, o.op ≠ g.op ∨ o.idx ≠ g.idx) → exec (.brugusSegmentReceive (src ++ dg)) s =
      .next { s with opens := s.opens ++ [k], hostOut := s.hostOut ++ [ack 0] }) ∧
    (g.code ≠ 1 → g.code ≠ 48 → s.sessions.find g.session = some x →
      (x.next ≤ g.op → (∀ z ∈ x.segs, z.op ≠ g.op ∨ z.idx ≠ g.idx) → (∀ c e, y.ready = some (c, e) → assignedCode c = true) →
        exec (.brugusSegmentReceive (src ++ dg)) s = .next { s with
          sessions := s.sessions.put g.session y
          hostOut := s.hostOut ++ [ack g.session] }) ∧
      ((g.op < x.next ∨ ∃ z ∈ x.segs, z.op = g.op ∧ z.idx = g.idx) → exec (.brugusSegmentReceive (src ++ dg)) s = .next s)) ∧
    (g.code ≠ 1 → g.code ≠ 48 → s.sessions.find g.session = none →
      let b : HostBody := .reply g.code 3 []
      let m : HostMsg := { session := g.session, op := g.op, body := b, segs := b.segs }
      exec (.brugusSegmentReceive (src ++ dg)) s =
        .next { s with hostOut := s.hostOut ++ [m], unacked := s.unacked ++ [(m, b.segs.map (fun i => (i, s.ns)))] }))) ∧
  ∀ (s : State) (session op seg : Nat) (x : Session), s.sessions.find session = some x →
    (∃ t, exec (.brugusAck session op seg) s = .next t ∧ t = { s with unacked := t.unacked } ∧
      ∀ m l, (m, l) ∈ t.unacked → l ≠ [] ∧ (m.session = session → m.op = op → ∀ n, (seg, n) ∉ l)) ∧
    ∀ i m l, s.unacked[i]? = some (m, l) →
      let due := l.filter (fun g => decide (g.2 + 500000 ≤ s.ns))
      (due = [] → exec (.brugusRetransmit i) s = .next s) ∧
      (due ≠ [] → exec (.brugusRetransmit i) s = .next { s with
        hostOut := s.hostOut ++ [{ m with segs := due.map Prod.fst }]
        unacked := s.unacked.set i (m, l.map (fun g => if g.2 + 500000 ≤ s.ns then (g.1, s.ns) else g)) })

/-! ## Steps without an encoding: the Launch Scheduler (02 R36-R41; 03 R44-R54; 18 R367-R370; 19 R377, R379) -/

/-- Work `n` is an entry of a queue that asks for no record and counts in no phase, its job is not being cancelled, and no
cancelled unit of its queue stands before it. -/
def Sys2Proof.Machine.State.PlainEntry (s : State) (n : Nat) (w : Work) (q : Nat) (y : Queue) : Prop :=
  s.works.find n = some w ∧ AMap.wf s.works = true ∧ AMap.wf s.queues = true ∧ w.node = none ∧ w.entry.map Prod.fst = some q ∧
    s.queues.find q = some y ∧ w.notify = false ∧ w.phase = none ∧ (s.job w.job).cancel = false ∧ s.drainFor ≠ some n ∧ s.mayBegin w = true

/-- The queues when the head of queue `q` starts (03 R51): its wait is over, and a rotation that waited for it takes the
queue's slot. -/
def Sys2Proof.Machine.State.queuesAtStart (s : State) (w : Work) (q : Nat) (y : Queue) : AMap Queue :=
  let goes := y.leaving ≠ none ∧ y.leaving = w.entry.map Prod.snd
  if w.started then s.queues
  else s.queues.put q { y with
    waitSince := s.ns
    aged := 0
    blockedSince := none
    slot := if goes then none else y.slot
    leaving := if goes then none else y.leaving }

/-- A plain entry has completed (03 R47): it is gone, and when it had not started its queue's wait is over. -/
def Sys2Proof.Machine.State.over (s : State) (n : Nat) (w : Work) (q : Nat) (y : Queue) : State :=
  { s with works := s.works.del n, queues := s.queuesAtStart w q y }

/-- Hardware slots (03 R51 rules 1, 2, 4, 5, 6): the runnable queue of the highest effective priority, then the longest
wait, then the lowest number, takes the lowest free slot (log 73); a wait of 10 ms is worth a level; a blocked queue leaves its
slot after 50 µs; a waiting queue makes the lowest and oldest of those that have had 1 ms leave when its current head
starts, or at once when it has none; a LAUNCH that has waited
10 ms longest drains the device. -/
def Sys2Proof.Says.HardwareSlots : Prop :=
  ∀ (s : State) (q : Nat) (y : Queue), AMap.wf s.queues = true → s.queues.find q = some y →
    let p := s.queuePrio y
    let becomes (i : Instr) (z : Queue) : Prop := exec i s = .next { s with queues := s.queues.put q z }
    (∀ i, y.slot = none → s.runnable q y = true → i < 64 → (∀ e ∈ s.queues, e.2.slot.map Prod.fst ≠ some i) →
      (∀ j, j < i → ∃ e ∈ s.queues, e.2.slot.map Prod.fst = some j) →
      (∀ e ∈ s.queues, e.1 ≠ q → e.2.slot = none → s.runnable e.1 e.2 = true →
        s.queuePrio e.2 < p ∨ (s.queuePrio e.2 = p ∧ (y.waitSince < e.2.waitSince ∨ (y.waitSince = e.2.waitSince ∧ q < e.1)))) →
      becomes (.queueMap q) { y with slot := some (i, s.ns), leaving := none }) ∧
    (y.taken < y.tail → p < 3 → y.waitSince + 10000000 * (y.aged + 1) ≤ s.ns →
      becomes (.priorityAge q) { y with aged := y.aged + 1 }) ∧
    (∀ n, y.slot ≠ none → y.blockedSince = some n → n + 50000 ≤ s.ns → s.runnable q y = false →
      becomes (.queueUnmapBlocked q) { y with slot := none, leaving := none }) ∧
    (∀ i n, y.slot = some (i, n) → n + 1000000 ≤ s.ns → (∀ e ∈ s.queues, e.2.leaving = none) →
      (∃ e ∈ s.queues, e.2.slot = none ∧ s.runnable e.1 e.2 = true ∧ e.2.waitSince + 1000000 ≤ s.ns) →
      (∀ e ∈ s.queues, e.1 ≠ q → ∀ j m, e.2.slot = some (j, m) → m + 1000000 ≤ s.ns →
        p < s.queuePrio e.2 ∨ (p = s.queuePrio e.2 ∧ n < m)) →
      (s.headWaits q = false → y.tail = y.taken → becomes .queueRotate { y with slot := none }) ∧
      (s.headWaits q = false → y.tail ≠ y.taken → becomes .queueRotate { y with leaving := some y.taken }) ∧
      ∀ h w k, (s.queueWorks q).find? (fun e => !e.2.started) = some (h, w) → w.entry = some (q, k) →
        becomes .queueRotate { y with leaving := some k }) ∧
    ∀ n w, s.works.find n = some w → s.drainFor = none → w.launch = none → s.candidate w = true →
      w.waitSince + 10000000 ≤ s.ns →
      (∀ e ∈ s.works, e.1 ≠ n → s.candidate e.2 = true → e.2.launch = none ∧ w.waitSince < e.2.waitSince) →
      exec (.drainStart n) s = .next { s with drainFor := some n }

/-- ENTRY_TAKE (03 R45-R49): the next entry of a mapped queue leaves the ring with its header's tag, kind and NOTIFY; one
with the WAITPREV bit waits until every earlier one has completed. -/
def Sys2Proof.Says.EntriesTaken : Prop :=
  ∀ (s : State) (q : Nat) (y : Queue) (b : List Byte),
    let h := bAt b 0 8
    let kind := h % 256
    s.queues.find q = some y → y.slot ≠ none → y.taken < y.tail → s.headWaits q = false → s.cancelling q y.taken = false →
    s.entryBytes y y.taken = .ok b → y.removed = [] →
    (h.testBit 8 = true → s.queueWorks q ≠ [] → exec (.entryTake q) s = .next s) ∧
    ((h.testBit 8 = false ∨ s.queueWorks q = []) → entryBad b (s.job y.job) s.device = false →
      kind = 1 ∨ kind = 2 ∨ kind = 5 ∨ kind = 6 ∨ kind = 7 →
      ∃ w z, exec (.entryTake q) s = .next { s with
          nextId := s.nextId + 1
          works := s.works.put s.nextId w
          queues := s.queues.put q z } ∧
        z = { y with taken := y.taken + 1, owners := y.owners.drop 1, blockedSince := z.blockedSince } ∧
        w.job = y.job ∧ w.entry = some (q, y.taken) ∧ w.node = none ∧ w.notify = (h.testBit 9 || y.notify) ∧ w.tag = h / 2 ^ 32 ∧
        w.kind = kind ∧ w.bytes = b ∧ w.started = false ∧ w.launch = none ∧
        w.phase = (if kind = 1 ∨ kind = 2 then y.phase.map Prod.fst else none)) ∧
    (kind = 4 → (h.testBit 8 = false ∨ s.queueWorks q = []) → entryBad b (s.job y.job) s.device = false →
      y.phase.map Prod.fst = some (bAt b 8 4) → ∃ t w, exec (.entryTake q) s = .next t ∧ t.works = s.works.put s.nextId w ∧
        w.kind = 4 ∧ w.bytes = b)

/-- PHASE_COMPLETE (03 R49, 02 Table 2.8): once nothing of the phase is left on any device of its set, the job's phase
counter advances, the phase ends, its PHASE_END completes, and every session of the job hears of it. -/
def Sys2Proof.Says.PhasesEnd : Prop :=
  ∀ (s : State) (n : Nat) (w : Work) (q : Nat) (y : Queue) (p : Phase) (j : Job),
    let id := bAt w.bytes 8 4
    s.PlainEntry n w q y → w.kind = 4 → s.phase? w.job id = some p → s.jobs.find w.job = some j →
    ((∃ e ∈ s.works, e.2.job = w.job ∧ e.2.phase = some id) → exec (.phaseComplete n) s = .next s) ∧
    ((∀ e ∈ s.works, e.2.job = w.job → e.2.phase ≠ some id) → (∀ d ∈ p.set, d = s.device) → AMap.wf s.sessions = true →
      ∃ t, exec (.phaseComplete n) s = .next t ∧
        t = { s with
          works := s.works.del n
          jobs := s.jobs.put w.job { j with phases := j.phases + 1 }
          phases := t.phases
          queues := t.queues
          hostOut := t.hostOut
          unacked := t.unacked
          sessions := t.sessions } ∧
        (∀ x ∈ t.phases, x.job ≠ w.job ∨ x.id ≠ id) ∧ (t.queues.find q).map (·.phase) = some none ∧
        t.hostOut = s.hostOut ++ (s.sessions.filter (fun e => e.2.job == some w.job)).map (fun e =>
          let b : HostBody := .event 1 w.job (natBytes 4 id ++ natBytes 8 (j.phases + 1))
          { session := e.1, op := e.2.devNext, body := b, segs := b.segs }))

/-- SEM_RECHECK and SEM_SIGNAL (03 R50): a wait completes when its word is at least n and not before; a signal sets the
word or adds to it once every earlier entry has completed. -/
def Sys2Proof.Says.Semaphores : Prop :=
  ∀ (s : State) (n : Nat) (w : Work) (q : Nat) (y : Queue) (p : Nat),
    let a := bAt w.bytes 8 8
    let v := bAt w.bytes 0x10 8
    s.PlainEntry n w q y → w.param = none → a % 8 = 0 → a < 2 ^ 57 →
    (w.kind = 5 → s.translate w.job a .read = .pa p →
      (v ≤ Mem.readNat s.mem 8 p → exec (.semRecheck n) s = .next (s.over n w q y)) ∧
      (Mem.readNat s.mem 8 p < v → exec (.semRecheck n) s = .next s)) ∧
    (w.kind = 6 → s.translate w.job a .write = .pa p → (∀ e ∈ s.queueWorks q, e.1 = n) → s.MemWf →
      ∃ t u, exec (.semSignal n) s = .next t ∧ t = ({ s with mem := u.mem, memPoison := u.memPoison, authors := u.authors } : State).over n w q y ∧
        u = s.homeWrite p 8 (if bAt w.bytes 0x18 1 = 0 then v else (Mem.readNat s.mem 8 p + v) % 2 ^ 64) false ∧
        Mem.readNat t.mem 8 p = (if bAt w.bytes 0x18 1 = 0 then v else (Mem.readNat s.mem 8 p + v) % 2 ^ 64) ∧
        ∀ b, b < p ∨ p + 8 ≤ b → Mem.read t.mem b = Mem.read s.mem b)

/-- The completion record of an entry with NOTIFY (19 R379, Table 19.2), as a SEM_WAIT leaves it: 128 bytes with tag,
status OK, kind, queue number and ring index, to the session that appended the entry. -/
def Sys2Proof.Says.CompletionRecords : Prop :=
  ∀ (s : State) (n : Nat) (w : Work) (q i : Nat) (y : Queue) (p : Nat) (x : Session),
    s.works.find n = some w → w.node = none → w.entry = some (q, i) → s.queues.find q = some y → w.notify = true → w.phase = none →
    (s.job w.job).cancel = false → s.mayBegin w = true → w.kind = 5 → w.param = none → bAt w.bytes 8 8 % 8 = 0 → bAt w.bytes 8 8 < 2 ^ 57 →
    s.translate w.job (bAt w.bytes 8 8) .read = .pa p → bAt w.bytes 0x10 8 ≤ Mem.readNat s.mem 8 p →
    s.sessions.find w.session = some x → w.tag < 2 ^ 32 → q < 2 ^ 32 → i < 2 ^ 64 →
    ∃ t r, exec (.semRecheck n) s = .next t ∧
      t.hostOut = s.hostOut ++
        [{ session := w.session, op := x.devNext, body := .completion r, segs := HostBody.segs (.completion r) }] ∧ r.length = 128 ∧
      bAt r 0 4 = w.tag ∧ bAt r 4 4 = 0 ∧ bAt r 8 1 = 0 ∧ bAt r 9 1 = 5 ∧ bAt r 0xC 4 = q ∧ bAt r 0x10 8 = i % 2 ^ y.logN ∧
      bAt r 0x20 8 = 0 ∧ bAt r 0x40 64 = 0

/-- ENTRY_COPY (03 R48, Table 3.5) on this device: the entry starts when its first piece is read; every piece is read before
the first is written; a piece ends where a 4 KiB unit ends; the entry completes when all is written. What it writes counts as its own while it is under way
(log 57). -/
def Sys2Proof.Says.EntryCopies : Prop :=
  ∀ (s : State) (n : Nat) (w : Work) (q : Nat) (y : Queue) (c : CopyProg) (p : CPlace),
    let len := bAt w.bytes 0x18 8
    let src := BitVec.ofNat 64 (bAt w.bytes 8 8) + BitVec.ofNat 64 c.buf.length
    let dst := BitVec.ofNat 64 (bAt w.bytes 0x10 8) + BitVec.ofNat 64 c.written
    let kept := s.authors.filter (fun e => e.2 != n)
    let upd (z : Work) (x : CopyProg) : AMap Work := s.works.put n { z with copy := some x }
    s.PlainEntry n w q y → w.kind = 7 → w.param = none →
    (w.copy = some c → c.ending = none → c.buf.length < len → s.entryPlace w.job src .read = .ok p → p.external = false →
      ∃ d, exec (.entryCopy n) s = .next { s with
          works := upd { w with started := true } { c with buf := c.buf ++ d }
          queues := s.queuesAtStart w q y } ∧
        d.length = min (len - c.buf.length) (toEdge src) ∧ ∀ k, k < d.length → (d.getD k (0, false)).1 = s.byteAt p k) ∧
    (w.copy = some c → c.ending = none → len ≤ c.buf.length → c.written < len → s.entryPlace w.job dst .write = .ok p →
      ((∃ a o, p = .spad a o) ∨ ∃ a, p = .mem a) → s.MemWf → (∀ d, Memory.wf (s.cell d).spad.bytes = true) →
      ∃ u, let k := min (len - c.written) (toEdge dst)
        exec (.entryCopy n) s = .next { u with works := upd w { c with written := c.written + k } } ∧
        s.Placed u p k (fun i => (c.buf.getD (c.written + i) (0, false)).1) ∧
        ∀ a i, p = .mem a → i < k → u.authors.find (a + i) = some n) ∧
    (w.copy = some c → c.ending = none → len ≤ c.buf.length → len ≤ c.written → c.segs = [] →
      exec (.entryCopy n) s = .next { s.over n w q y with authors := kept }) ∧
    (w.copy = none → w.started = false → len = 0 → exec (.entryCopy n) s = .next { s.over n w q y with authors := kept })

/-- GRAPH_REPLAY_START and GRAPH_NODE_START (02 R38-R40): a replay starts with its graph checked, in a copy of the
instance area that no running replay of the object has; a node starts when every edge into it comes from a node that has
completed, as an entry of its kind, and a LAUNCH node with its argument. -/
def Sys2Proof.Says.GraphReplays : Prop :=
  ∀ (s : State) (n : Nat) (w : Work) (q : Nat) (y : Queue),
    s.PlainEntry n w q y → w.kind = 2 →
    (∀ hd s1 r, let va := bAt w.bytes 8 8
      w.started = false → va % 64 = 0 → s.gcopy w.job va 64 = .ok hd → graphHeaderBad hd = false → s.replaysOf w.job va = [] →
      (∀ e ∈ s.works, e.1 < n → e.2.job = w.job → e.2.kind = 2 → e.2.started = true ∨ bAt e.2.bytes 8 8 ≠ va) →
      s.buildReplay n w [] hd = .ok (s1, r) →
      exec (.graphReplayStart n) s = .next { s with
        mem := s1.mem
        memPoison := s1.memPoison
        authors := s1.authors
        works := s.works.put n { w with started := true, replay := some r }
        queues := s.queuesAtStart w q y } ∧
      r.nodes.length = bAt hd 8 2 ∧ r.inst = bAt hd 0x20 8 ∧ r.startedNodes = [] ∧ r.doneNodes = [] ∧
      (∀ g ∈ r.nodes, ∀ i ∈ g.succs, i < r.nodes.length)) ∧
    ∀ r node g, w.replay = some r → w.cancel = none → r.nodes[node]? = some g → node ∉ r.startedNodes → n < s.nextId →
      edgesInto r.nodes (fun j => r.doneNodes.contains j) node = g.preds → g.kind = 0 → g.param = false →
      g.body < 2 ^ 64 → g.arg < 2 ^ 64 →
      ∃ x, exec (.graphNodeStart n node) s = .next { s with
          nextId := s.nextId + 1
          works := (s.works.put s.nextId x).put n { w with replay := some { r with startedNodes := setAdd r.startedNodes node } } } ∧
        x.job = w.job ∧ x.node = some (n, node) ∧ x.entry = none ∧ x.kind = 1 ∧ x.started = false ∧ bAt x.bytes 8 8 = g.body ∧
        bAt x.bytes 0x10 8 = g.arg ∧ bAt x.bytes 0x18 1 = 255

/-- A launch has been placed (03 R52, 04 R59): each cell of its rectangle starts anew for it with its initial tasks; no
cell elsewhere differs. -/
def Sys2Proof.Machine.State.PlacedLaunch (s t : State) (m : Nat) (l : Launch) : Prop :=
  (∀ i, i < l.w * l.h → t.cell (l.physIdx i) = l.startCell m i s.now) ∧
    ∀ c, (∀ i, i < l.w * l.h → l.physIdx i ≠ c) → t.cell c = s.cell c

/-- LAUNCH_ADMIT (03 R51-R53, 04 R59): a LAUNCH that is next takes the first free rectangle in row order, and its cells
start with the tasks of their roles, ordinal 0 at the hot end. -/
def Sys2Proof.Says.Admission : Prop :=
  (∀ (s : State) (n : Nat) (w : Work) (q : Nat) (y : Queue) (l : Launch) (col row : Nat),
    let m := s.nextId
    let ok (c r : Nat) : Prop := c + l.w ≤ 24 ∧ r + l.h ≤ 32 ∧ ∀ x ∈ rectCells c r l.w l.h, s.cellFree (some n) x = true
    s.PlainEntry n w q y → w.retryAt = 0 → w.hold = none → s.candidate w = true → s.isNext n w = true → w.launch = none →
    s.headLaunch w = .ok l → l.spread = [] → 1 ≤ l.w → 1 ≤ l.h → n < m →
    ok col row → (∀ r c, ok c r → row < r ∨ (row = r ∧ col ≤ c)) → s.unitFenced l col row = none →
    s.unitsFree l col row = true → s.roomFor l = true →
    ∃ t k, exec (.launchAdmit n) s = .next t ∧ t.launches = s.launches.put m k ∧
      k = { l with work := some n, col0 := col, row0 := row, key := none, stage := .running } ∧ s.PlacedLaunch t m k ∧
      t.works = (s.works.put n { w with started := true, launch := some m, hold := none, retryAt := 0 }) ∧
      t.queues = s.queuesAtStart w q y ∧ t.mem = s.mem ∧ t.net = s.net ∧ t.nextId = m + 1) ∧
  ∀ (l : Launch) (m i now o : Nat),
    let c := l.copies
    let tasks := c.tasks (c.role i)
    o < tasks → (l.startCell m i now).deque.length = tasks ∧ (l.startCell m i now).launch = some m ∧
      (l.startCell m i now).deque[tasks - 1 - o]? = some { entered := now, task := {
        pc := c.entry l.hdrVa (c.role i)
        a0 := l.arg
        a1 := BitVec.ofNat 64 (c.role i + 256 * o)
        a2 := BitVec.ofNat 64 (i % l.w)
        a3 := BitVec.ofNat 64 (i / l.w) } }

/-- LAUNCH_SAVE (18 R367, R369): a launch that is being pre-empted and stands still is saved: its cells' scratchpads,
counters, registers and deques go into its record and its cells are given up; nothing is lost from memory. -/
def Sys2Proof.Says.Saves : Prop :=
  ∀ (s : State) (n : Nat) (l : Launch),
    s.launches.find n = some l → l.preempt = true → l.cancel = false → l.stage = .running → l.key = none → l.spread = [] → l.work = none →
    AMap.wf s.cells = true → s.sweep n = s → s.savable n = true → (∀ e ∈ s.routers, e.2.launch ≠ some n) →
    (∀ i j, i < l.w * l.h → j < l.w * l.h → l.physIdx i = l.physIdx j → i = j) →
    (∀ i, i < l.w * l.h → (s.cell (l.physIdx i)).launch = some n ∧ (s.cell (l.physIdx i)).l1 = [] ∧
      ∀ st, ((s.cell (l.physIdx i)).engOf st).flights = [] ∧ ((s.cell (l.physIdx i)).engOf st).tok = none) →
    ∃ t k x, exec (.launchSave n) s = .next t ∧ t.launches.find n = some k ∧ k.stage = .saved s.ns ∧ k.preempt = false ∧
      k.saved = some x ∧ (∀ a, Mem.read t.mem a = Mem.read s.mem a) ∧
      ∀ i, i < l.w * l.h → (t.cell (l.physIdx i)).launch = none ∧ ∃ c, x.cells.find i = some c ∧
        let o := s.cell (l.physIdx i)
        c.spad = o.spad ∧ c.k = o.k ∧ c.deque = o.deque ∧ c.am = o.am ∧ c.chans = o.chans ∧ c.v.v = o.v.v ∧ c.v.m = o.v.m ∧
        c.m.z = o.m.z ∧ c.cbase = s.now - o.cbase ∧
        ∀ e ∈ c.fibres, ∃ f ∈ o.fibres, f.1 = e.1 ∧ f.2.body.g = e.2.body.g ∧ f.2.body.pc = e.2.body.pc

/-- CELL_RETIRE and LAUNCH_COMPLETE (19 R377, R379): a cell with nothing left to do writes its L1 back and retires; when
every cell has, the launch's entry completes and its cells are given up. Of a cancelled launch the bytes that count as its
own then hold free values and every other byte is as before (03 R56; whose a byte is is the model's record, log 57). -/
def Sys2Proof.Says.Completion : Prop :=
  (∀ (s : State) (c n : Nat) (l : Launch),
    let i := (s.cell c).idx l
    let u := s.flushL1 (s.l1Cells c) (fun _ => true)
    (s.cell c).launch = some n → s.launches.find n = some l → i ∉ l.retired → s.mayRetire c = true →
    exec (.cellRetire c) s = .next { u with launches := s.launches.put n { l with retired := setAdd l.retired i } }) ∧
  (∀ (s : State) (m n : Nat) (l : Launch) (w : Work) (q : Nat) (y : Queue),
    s.launches.find m = some l → l.work = some n → l.key = none → l.spread = [] → l.stage = .running → l.cancel = true →
    s.PlainEntry n w q y → AMap.wf s.launches = true → AMap.wf s.authors = true → s.MemWf →
    (∀ e ∈ s.routers, e.2.launch ≠ some m) →
    (∀ i, i < l.w * l.h → i ∈ l.retired ∧ (s.cell (l.physIdx i)).launch = some m ∧ s.mayRetire (l.physIdx i) = true ∧
      ∀ x ∈ (s.cell (l.physIdx i)).l1, x.dirty = 0) →
    ∃ t, exec (.launchComplete m) s = .next t ∧ t.launches.find m = none ∧ ∀ a,
      (s.authors.find a = some m → Mem.read t.mem a = Config.freeByte (s.fresh * 2 ^ 60 + a) ∧ t.authors.find a = none) ∧
      (s.authors.find a ≠ some m → Mem.read t.mem a = Mem.read s.mem a ∧ t.authors.find a = s.authors.find a)) ∧
  ∀ (s : State) (m n : Nat) (l : Launch) (w : Work) (q : Nat) (y : Queue),
    s.launches.find m = some l → l.work = some n → l.key = none → l.spread = [] → l.stage = .running → l.cancel = false →
    l.ended = none → s.PlainEntry n w q y → w.started = true → AMap.wf s.launches = true → AMap.wf s.cells = true →
    (∀ e ∈ s.routers, e.2.launch ≠ some m) →
    (∀ i, i < l.w * l.h → i ∈ l.retired ∧ (s.cell (l.physIdx i)).launch = some m ∧ s.mayRetire (l.physIdx i) = true ∧
      s.l1Clean (l.physIdx i) = true) →
    ∃ t, exec (.launchComplete m) s = .next t ∧ t.launches = s.launches.del m ∧ t.works = s.works.del n ∧ t.mem = s.mem ∧
      (∀ c, (s.cell c).launch = some m → t.cell c = Cell.idle) ∧ ∀ c, (s.cell c).launch ≠ some m → t.cell c = s.cell c

/-- Spread launches (02 R35, 03 R54): a peer holds its part, when its turn among the local heads comes, and answers HELD, or
UNDEFINED, or NOROOM when the part could not be placed for 100 µs and not before; when the last part is held the origin
commits to a start at most 2 µs ahead; a part starts at that time; an origin that met NOROOM tries again after its delay. -/
def Obligations.SpreadLaunches : Prop :=
  (∀ (s : State) (i src since : Nat) (key : Nat × Nat) (job set : Nat) (devs : List Nat) (va : Nat) (h r c : List Byte) (arg : Word),
    let l : Launch := { ({ hdr := h, roles := r, chans := c } : LaunchCopy).launch (s.job job) job va arg with
      spread := devs
      key := some key
      stage := .held }
    let b : MsgBody := .spReserve key job set devs va h r c arg false
    let answers (t : State) (b : MsgBody) : Prop := s.SendsFrame t src .control b ∧ t = { s with
      inbox := s.inbox.eraseIdx i
      fabricOut := t.fabricOut
      fabricKept := t.fabricKept
      fabricSeqOut := t.fabricSeqOut }
    s.inbox[i]? = some { src := src, body := b, since := since } →
    (∀ j col row, s.jobs.find job = some j → j.set? set ≠ none → s.reserveNext i j.priority = true →
      s.placeFor none l false = .fits col row → 1 ≤ l.w → 1 ≤ l.h → col + l.w ≤ 24 →
      ∃ t, exec (.spreadReserve i) s = .next t ∧ s.SendsFrame t src .control (.spHeld key) ∧
        t.launches = s.launches.put s.nextId { l with col0 := col, row0 := row } ∧
        s.PlacedLaunch t s.nextId { l with col0 := col, row0 := row }) ∧
    (∀ j, s.jobs.find job = some j → j.set? set ≠ none → s.reserveNext i j.priority = false →
      exec (.spreadReserve i) s = .next s) ∧
    (s.jobs.find job = none → ∃ t, exec (.spreadReserve i) s = .next t ∧ answers t (.spUndefined key)) ∧
    (since + 100000 ≤ s.ns → (s.reserveFits b = none ∨ s.reserveNext i (s.job job).priority = false) →
      ∃ t, exec (.spreadNoroomTimeout i) s = .next t ∧ answers t (.spNoroom key)) ∧
    (s.ns < since + 100000 → exec (.spreadNoroomTimeout i) s = .next s)) ∧
  (∀ (s : State) (i src since m : Nat) (key : Nat × Nat) (l : Launch),
    s.launches.find? (fun e => e.2.key = some key) = some (m, l) → AMap.wf s.launches = true →
    (s.inbox[i]? = some { src := src, body := .spHeld key, since := since } → l.stage = .held → l.work = none →
      ((∃ d ∈ l.spread, d ≠ s.device ∧ d ≠ src ∧ d ∉ l.heldBy) → exec (.spreadAnswer i) s = .next { s with
        inbox := s.inbox.eraseIdx i
        launches := s.launches.put m { l with heldBy := setAdd l.heldBy src } }) ∧
      ((∀ d ∈ l.spread, d = s.device ∨ d = src ∨ d ∈ l.heldBy) → l.spread.filter (fun d => d != s.device) = [src] →
        ∃ t start, exec (.spreadAnswer i) s = .next t ∧ s.ns ≤ start ∧ start ≤ s.ns + 2000 ∧
          s.SendsFrame t src .control (.spCommit key start) ∧
          t.launches.find m = some { l with heldBy := setAdd l.heldBy src, stage := .committed start })) ∧
    (∀ start, s.inbox[i]? = some { src := src, body := .spCommit key start, since := since } →
      exec (.spreadCommit i) s = .next { s with
        inbox := s.inbox.eraseIdx i
        launches := s.launches.put m { l with stage := .committed start } }) ∧
    (∀ start, l.stage = .committed start → l.saved = none → l.preempt = false →
      (start ≤ s.ns → exec (.spreadStart m) s =
        .next { s with launches := s.launches.put m { l with stage := .running, heldBy := [], stoppedBy := [] } }) ∧
      (s.ns < start → exec (.spreadStart m) s = .next s))) ∧
  ∀ (s : State) (n : Nat) (w : Work) (q : Nat) (y : Queue) (l : Launch) (col row peer : Nat),
    let u : State := { s with works := s.works.put n { w with retryAt := 0 } }
    let m := s.nextId
    let key := (s.device, m)
    s.PlainEntry n w q y → w.retryAt ≠ 0 → s.candidate w = true → s.isNext n w = true → w.launch = none → n < m →
    u.headLaunch { w with retryAt := 0 } = .ok l → u.placeFor (some n) l false = .fits col row →
    l.spread.filter (fun d => d != s.device) = [peer] → l.heldBy = [] → 1 ≤ l.w → 1 ≤ l.h → col + l.w ≤ 24 →
    (s.ns < w.retryAt → exec (.spreadRetry n) s = .next s) ∧
    (w.retryAt ≤ s.ns → ∃ t k, exec (.spreadRetry n) s = .next t ∧
      k = { l with work := some n, col0 := col, row0 := row, key := some key, stage := .held } ∧
      t.launches = s.launches.put m k ∧ s.PlacedLaunch t m k ∧
      s.SendsFrame t peer .control
        (.spReserve key l.job (bAt w.bytes 0x18 1) l.spread l.hdrVa l.hdr l.roleMap l.chanTab l.arg false))

/-! ## The whole machine -/

/-- The state right after reset, as far as the spec gives it (01 R21, 11 R225, 19 R387): memory and scratchpads read 0 with
clear poison and every tag empty, no cell is held, no fibre and no stream runs, nothing is on its way, no job, queue,
session or lease exists; bring-up has not run. -/
def Obligations.ResetValues : Prop :=
  let s := State.reset
  (∀ a, Mem.read s.mem a = 0) ∧ s.memPoison = [] ∧ s.MemWf ∧ s.TablesWf ∧
  (∀ c, (s.cell c).launch = none ∧ (s.cell c).fibres = [] ∧ (s.cell c).v.eng.run = none ∧ (s.cell c).m.eng.run = none ∧
    (s.cell c).spad.poison = [] ∧ (s.cell c).spad.full = [] ∧ (∀ a, Mem.read (s.cell c).spad.bytes a = 0) ∧
    (∀ k : KReg, (s.cell c).k[k] = 0) ∧ (s.cell c).deque = [] ∧ (s.cell c).l1 = []) ∧
  s.net = [] ∧ s.jobs = [] ∧ s.queues = [] ∧ s.launches = [] ∧ s.sessions = [] ∧ s.leases = [] ∧ s.up = false ∧
  s.fencedFns = [] ∧ s.routeEmpty = 0

/-- Words whose encoding the spec writes out (05 Table 5.16, and the words given with the instructions) decode to the
instructions it names. -/
def Obligations.DecodeWords : Prop :=
  decodeIn .v 32 0x0001FE0C = some (.blk 0 1 12) ∧ decodeIn .v 32 0x8000FC30 = some (.tok .zero (some (3, 0))) ∧
  decodeIn .v 16 0x2A00 = some (.vldC16 2 0 0) ∧ decodeIn .v 32 0x2000F200 = some (.saddi 512 0 0) ∧
  decodeIn .v 16 0x0A4C = some (.vfmulC16 2 2 3) ∧ decodeIn .v 32 0xF0009821 = some (.vst 0x1E0 0 0 2) ∧
  decodeIn .v 32 0x0000F800 = some .shalt ∧
  decodeIn .v 32 0x2C418250 = some (.vfma .bf16 3 2 1 5) ∧
  decodeIn .v 32 0x00648A60 = some (.vcvt .f32 .e4m3 .rne false 0 4 6) ∧
  decodeIn .m 32 0x01058420 = some (.mmas true 5 0 8) ∧
  decodeIn .s 32 0x000BBE00 = some (.fenceRel .device) ∧ decodeIn .s 32 0x0001C340 = some (.cpyqNb 5) ∧
  decodeIn .s 32 0x0005CC13 = some (.gateq 5 2 3) ∧ decodeIn .s 32 0x0000CF4C = some (.binput 5 1 4) ∧
  decodeIn .s 32 0x0000D010 = some (.exsend 2) ∧ decodeIn .s 32 0x0009D100 = some (.expoll true 4) ∧
  decodeIn .s 32 0x0000D54A = some (.lease 5 1 2) ∧ decodeIn .s 32 0x0001D428 = some (.lrel 5) ∧
  decodeIn .s 32 0x0002D5A8 = some (.lqry 6 5) ∧ decodeIn .s 32 0x0105BC00 = some (.kinc 5 (.imm 1)) ∧
  decodeIn .s 16 0x3805 = some (.kincC16 5) ∧ decodeIn .s 32 0x0084BCC0 = some (.krd 4 3) ∧
  decodeIn .s 32 0x0100D210 = some (.cinj .fadd 0 2) ∧ decodeIn .s 32 0x0001D2C0 = some (.cext 0 3) ∧
  decodeIn .s 32 0x0002DA10 = some (.trap 2)

/-- The instruction has a word in a stream. -/
noncomputable def Sys2Proof.Instr.isOf (i : Instr) (st : Stream) : Bool :=
  match i.layout with
  | some p => (rowsOf st p.1.nbits).any (fun r => decide (r.segs = p.1.segs))
  | none => false

/-- Encoding and decoding agree (05 R75, R79-R100): a well-formed instruction of a stream decodes from the bytes of its
word, with every operand, whatever follows; and a word that decodes is the word of its instruction, so that no bit of it
is ignored (05 R84). -/
def Obligations.EncodingsRoundTrip : Prop :=
  ∀ (st : Stream),
    (∀ (i : Instr) (rest : List Byte), i.isOf st = true → i.wf st = true →
      ∃ n w, encode i = some (n, w) ∧ decodeBytes st (wordBytes n w ++ rest) = .instr i n) ∧
    ∀ (i : Instr) (n w : Nat), w < 2 ^ n → decodeWord st n w = some i →
      encode i = some (n, w) ∧ i.wf st = true ∧ i.isOf st = true

/-- Between two CCLK nothing that has reached a counter waits for its test (05 R89, 16 R321): the end of every step has
tested it. -/
def Sys2Proof.Says.CountersTested : Prop :=
  (∀ c, (State.reset.cell c).acts = []) ∧ ∀ (s t : State), step s = .next t → ∀ c, (t.cell c).acts = []

/-- A word of a fibre runs as its decoded instruction (04 R63; 05 R73-R78): in a CCLK that gives the Sequencer of a cell its
turn, when that picks a fibre with no refusal pending, no end and no budget due, whose bytes decode inside its block, or to a
header at a multiple of 4 outside one, then the step is the instruction's meaning at the fibre, with the word counted, and
the end of the CCLK. -/
def Sys2Proof.Says.SequencerStep : Prop :=
  ∀ (s : State) (c slot : Nat) (rest : List (List Turn)) (i : Instr) (b : List Byte) (n : Nat),
    let r : State := { s with agenda := rest }
    let u := r.begin c slot
    let f := u.fibre.body
    s.agenda = [.seq c] :: rest → (s.cell c).acts = [] → r.pickSlot c = some slot → f.refusals = [] → f.ending = false →
    u.overBudget f = false → u.fetchWord u.myLaunch.job f.pc = .ok b → decodeBytes .s b = .instr i n →
    (∃ k, f.blk = some k ∧ (b.length = 4 → 4 ≤ (k.fin - f.pc).toNat) ∧ isBlkWord b = false) ∨
      (f.blk = none ∧ isBlkWord b = true ∧ f.pc.toNat % 4 = 0) →
    step s = (match exec i (u.count c 2 1) with
      | .next t => .next t.tick
      | .fault e => .fault e
      | .refused e => .refused e) ∧
    u.cur = { cell := c, slot := slot, stream := .s } ∧ u.mem = s.mem ∧ f.g = ((s.cell c).fibre slot).body.g ∧
    f.pc = ((s.cell c).fibre slot).body.pc ∧ f.blk = ((s.cell c).fibre slot).body.blk ∧ u.fibre.status = .ready

/-- A word of a V or M stream runs as its decoded instruction (05 R78, R87-R89): in a CCLK that gives the stream its turn its
due words complete first, and for a V stream the M stream's test comes next; when the engine then runs and waits for
nothing, the word at its PC, from its loop buffer or fetched, runs; a TOK runs when the word after it may follow it. -/
def Sys2Proof.Says.StreamStep : Prop :=
  ∀ (s : State) (c : Nat) (st : Stream) (rest : List (List Turn)) (p : StreamPos) (i : Instr) (b : List Byte) (n : Nat),
    let d := ({ s with agenda := rest } : State).streamDue c st
    let r : State := { (if st = .v then d.testM c else d) with cur := { cell := c, slot := 0, stream := st } }
    let u := r.capture st r.myLaunch.job p
    s.agenda = [if st = .v then .issueV c else .issueM c] :: rest → st ≠ .s → r.eng.run = some p → r.engineRuns c st = true →
    r.eng.wait = none → r.codeWord st r.myLaunch.job p.pc p.blk = .ok b → decodeBytes st b = .instr i n →
    (∃ k, p.blk = some k ∧ (b.length = 4 → 4 ≤ (k.fin - p.pc).toNat) ∧ isBlkWord b = false) ∨
      (p.blk = none ∧ isBlkWord b = true ∧ p.pc.toNat % 4 = 0) →
    (isTok i = true → r.tokFault st r.myLaunch.job p.pc p.blk = none) →
    step s = (match exec i (if st = .v then u.count c 3 1 else u) with
      | .next t => .next t.tick
      | .fault e => .fault e
      | .refused e => .refused e) ∧
    (∃ l, u = r.updEng (fun e => { e with loop := l })) ∧
    (r.fetchWord r.myLaunch.job p.pc = .ok b ∨ r.eng.buffered p.blk p.pc = some b)

/-- The turn of a step without an encoding runs that step (log 3); a turn that names an encoded word is no turn. -/
def Sys2Proof.Says.EventStep : Prop :=
  ∀ (s : State) (i : Instr) (rest : List (List Turn)), s.agenda = [.event i] :: rest →
    (i.layout = none → step s = (match exec i { s with agenda := rest } with
      | .next t => .next t.tick
      | .fault e => .fault e
      | .refused e => .refused e)) ∧
    (i.layout ≠ none → step s = .fault .badTurn)

/-- The end of a step (00 R2, 05 R89): device time has gone on by at least one CCLK, free values are drawn anew, and nothing
but cells, messages and what reaches them from the counters' tests differs. -/
def Sys2Proof.Says.TimeGoesOn : Prop :=
  ∀ (s : State), (∃ n, 1 ≤ n ∧ s.tick.now = s.now + n) ∧ s.tick.fresh = s.fresh + 1 ∧ s.tick.agenda = s.agenda ∧
    s.tick.jobs = s.jobs ∧ s.tick.queues = s.queues ∧ s.tick.works = s.works ∧ s.tick.sessions = s.sessions ∧
    s.tick.excluded = s.excluded ∧ ((∀ e ∈ s.cells, e.2.acts = []) → s.tick.mem = s.mem ∧ s.tick.hostOut = s.hostOut)

/-- Every step keeps device memory in its canonical form: no byte is listed twice, none out of order, none with the value
that an unlisted address reads as. -/
def Obligations.StepKeepsMemory : Prop := ∀ (s t : State), s.MemWf → step s = .next t → t.MemWf

/-- Every step keeps the tables that statements of this file take as given in order: no cell, work, queue, launch, session
or fibre is listed twice, and scratchpads keep their canonical form. -/
def Obligations.StepKeepsTables : Prop := ∀ (s t : State), s.TablesWf → step s = .next t → t.TablesWf

/-! ## Where the words of the special registers, the parted array words and the Launch Scheduler's steps complete -/

/-- MFS and MTS go on at every register that they may read or write (06 R123, R124): MFS in every state, MTS to ROUTER where the
launch has a Router, to BINBASE where the table at its address is good. -/
def Sys2Proof.Says.SpecialRegisterWordsGoOn : Prop :=
  ∀ (s : State) (a d : GReg),
    (∀ r : BitVec 8, r.toNat < 0x14 ∨ (0x20 ≤ r.toNat ∧ r.toNat ≤ 0x24) → ∃ w, s.Writes (.mfs r d) d w 4 1) ∧
    (∀ r : BitVec 8, r.toNat = 0x05 ∨ (0x20 ≤ r.toNat ∧ r.toNat ≤ 0x24) → ∃ t, exec (.mts r a) s = .next t ∧ s.WroteNone t 4 1) ∧
    (∃ t, exec (.mtsSeed a) s = .next t ∧ s.WroteNone t 4 1 ∧ t.here.seed ≠ 0) ∧
    (∃ t, exec (.mtsTrappc a) s = .next t ∧ t.fibre.body = s.fibre.body.past 4) ∧
    (∀ n, s.here.launch = some n → s.myLaunch.flags.getLsbD 3 = true →
      ∃ t, exec (.mtsRouter a) s = .next t ∧ s.WroteNone t 4 1 ∧ (t.launch n).router = s.g a &&& 0xFFFFFFFFFFFFF000) ∧
    ∀ l, let v := (s.g a).extractLsb' 0 20 &&& 0xFFFF0
      loadBins s.here.spad 1024 v.toNat 0 = .ok l →
      ∃ t, exec (.mtsBinbase a) s = .next t ∧ s.WroteNone t 4 (1 + l.length) ∧ t.here.binbase = v ∧ t.here.bins = l

/-- MMG and MMAS pass into the array when their checks hold and their operands may be read (09 R185, R193, 10 R205, R206). -/
def Sys2Proof.Says.PartedWordsGoOn : Prop :=
  ∀ (s : State) (l : Bool) (c b a : QReg) (z : ZReg),
    let n := (s.eng.g[b]).toNat
    let list := (s.eng.g[a]).toNat
    let conf := s.here.m.mconf
    (s.MReads [c, b, a] → n ≤ 65535 → depthFits (s.eng.g[c]).toNat → list % 16 = 0 → (n ≠ 0 → list + 16 * n ≤ 0xF0000) →
      ∃ t, exec (.mmg c b z a) s = .next t ∧ t.here.m.issued = s.here.m.issued + 1 ∧ t.here.m.z = s.here.m.z) ∧
    (s.MReads [b, a] → confMx conf = false →
      regionsOk list (0x2D0 + 512 * (confA conf).width) n (0x2D0 + 512 * (confB conf).width) →
      ∃ t, exec (.mmas l b z a) s = .next t ∧ t.here.m.issued = s.here.m.issued + 1 ∧ t.here.m.z = s.here.m.z)

/-- Entries of a queue, nodes of a graph, cells and parts of launches go on (02 R38, 03 R48, R50, R54, 19 R377): what each step
needs, and what it then does to its own work or launch. -/
def Sys2Proof.Says.SchedulerStepsGoOn : Prop :=
  (∀ (s : State) (n : Nat) (w : Work) (q : Nat) (y : Queue) (p : Nat),
    let a := bAt w.bytes 8 8
    s.PlainEntry n w q y → w.param = none →
    (w.kind = 5 → a % 8 = 0 → a < 2 ^ 57 → s.translate w.job a .read = .pa p → bAt w.bytes 0x10 8 ≤ Mem.readNat s.mem 8 p →
      ∃ t, exec (.semRecheck n) s = .next t ∧ t.works = s.works.del n ∧ t.mem = s.mem) ∧
    (w.kind = 6 → a % 8 = 0 → a < 2 ^ 57 → s.translate w.job a .write = .pa p → (∀ e ∈ s.queueWorks q, e.1 = n) →
      ∃ t, exec (.semSignal n) s = .next t ∧ t.works = s.works.del n) ∧
    (∀ c, w.kind = 7 → w.copy = some c → c.ending = none → bAt w.bytes 0x18 8 ≤ c.buf.length →
      bAt w.bytes 0x18 8 ≤ c.written → c.segs = [] → ∃ t, exec (.entryCopy n) s = .next t ∧ t.works = s.works.del n) ∧
    ∀ r node g, w.replay = some r → w.cancel = none → r.nodes[node]? = some g → node ∉ r.startedNodes → n < s.nextId →
      edgesInto r.nodes (fun j => r.doneNodes.contains j) node = g.preds → g.kind = 0 →
      ∃ t, exec (.graphNodeStart n node) s = .next t ∧ (t.work n).replay = some { r with startedNodes := setAdd r.startedNodes node }) ∧
  (∀ (s : State) (c n : Nat) (l : Launch),
    (s.cell c).launch = some n → s.launches.find n = some l → (s.cell c).idx l ∉ l.retired → s.mayRetire c = true →
    ∃ t, exec (.cellRetire c) s = .next t ∧
      t.launches.find n = some { l with retired := setAdd l.retired ((s.cell c).idx l) }) ∧
  ∀ (s : State) (m start : Nat) (l : Launch), s.launches.find m = some l → l.stage = .committed start → l.saved = none →
    start ≤ s.ns → ∃ t k, exec (.spreadStart m) s = .next t ∧ t.launches.find m = some k ∧ k.stage = .running

/-! ## The statements with several parts -/

/-- S-stream register arithmetic: result, time and frame: ScalarRegisterWords, ScalarBitCounts. -/
def Obligations.ScalarArithmetic : Prop :=
  Sys2Proof.Says.ScalarRegisterWords ∧
  Sys2Proof.Says.ScalarBitCounts

/-- Immediate and compact arithmetic, constants, and the words of the constant shifts: ScalarImmediates, CompactArithmetic. -/
def Obligations.ImmediateForms : Prop :=
  Sys2Proof.Says.ScalarImmediates ∧
  Sys2Proof.Says.CompactArithmetic

/-- Block headers, jumps and branches: BlockHeaders, Jumps, Branches. -/
def Obligations.ControlFlow : Prop :=
  Sys2Proof.Says.BlockHeaders ∧
  Sys2Proof.Says.Jumps ∧
  Sys2Proof.Says.Branches

/-- TEND, YIELD, FIBID, PUSHT, SPAWN and the fork words: EndAndYield, PushAndSpawn, Forks. -/
def Obligations.FibreWords : Prop :=
  Sys2Proof.Says.EndAndYield ∧
  Sys2Proof.Says.PushAndSpawn ∧
  Sys2Proof.Says.Forks

/-- MFS and MTS for every special register, and the bin-table load: SpecialRegisterReads, SpecialRegisterWrites, BinTableLoad. -/
def Obligations.SpecialRegisters : Prop :=
  Sys2Proof.Says.SpecialRegisterReads ∧
  Sys2Proof.Says.SpecialRegisterWrites ∧
  Sys2Proof.Says.BinTableLoad

/-- Taking an exact trap, software traps, the return from a trap, and the special register words as they go on: ExactTrapEntry, SoftwareTraps, ReturnFromTrap, SpecialRegisterWordsGoOn. -/
def Obligations.Traps : Prop :=
  Sys2Proof.Says.ExactTrapEntry ∧
  Sys2Proof.Says.SoftwareTraps ∧
  Sys2Proof.Says.ReturnFromTrap ∧
  Sys2Proof.Says.SpecialRegisterWordsGoOn

/-- Loads and stores: value, memory written, requests and traps: Loads, Stores. -/
def Obligations.LoadsAndStores : Prop :=
  Sys2Proof.Says.Loads ∧
  Sys2Proof.Says.Stores

/-- LDACQ, STREL, fences, cache operations, CVTG and APT: AcquireReleaseAccesses, Fences, CacheOperations, AddressConversion. -/
def Obligations.OrderingWords : Prop :=
  Sys2Proof.Says.AcquireReleaseAccesses ∧
  Sys2Proof.Says.Fences ∧
  Sys2Proof.Says.CacheOperations ∧
  Sys2Proof.Says.AddressConversion

/-- Full/empty words in the own scratchpad and elsewhere: FullEmptyWords, FullEmptyElsewhere. -/
def Obligations.FullEmpty : Prop :=
  Sys2Proof.Says.FullEmptyWords ∧
  Sys2Proof.Says.FullEmptyElsewhere

/-- Atomics and compare-and-swap: Atomics, CompareAndSwap. -/
def Obligations.AtomicWords : Prop :=
  Sys2Proof.Says.Atomics ∧
  Sys2Proof.Says.CompareAndSwap

/-- AMSEND, DELEG and AMREPLY at tasks, handlers and routines: MessagesSent, HandlerSends, Replies. -/
def Obligations.ActiveMessages : Prop :=
  Sys2Proof.Says.MessagesSent ∧
  Sys2Proof.Says.HandlerSends ∧
  Sys2Proof.Says.Replies

/-- Counter words and who gets a counter first: Counters, CounterOrder. -/
def Obligations.CounterWords : Prop :=
  Sys2Proof.Says.Counters ∧
  Sys2Proof.Says.CounterOrder

/-- Channel words, and slots and grants at their cells: ChannelSends, ChannelReceives, ChannelArrivals. -/
def Obligations.Channels : Prop :=
  Sys2Proof.Says.ChannelSends ∧
  Sys2Proof.Says.ChannelReceives ∧
  Sys2Proof.Says.ChannelArrivals

/-- CINJ, CEXT and the results of the combining network: CombineInject, CombineExtract, CombiningResults. -/
def Obligations.CombiningNetwork : Prop :=
  Sys2Proof.Says.CombineInject ∧
  Sys2Proof.Says.CombineExtract ∧
  Sys2Proof.Says.CombiningResults

/-- CPYQ, CPYA, CPYC, GATH and SCAT, and the checks of a copy request: CopyRequests, CopyChecks, ArmedSlots, GatherScatter. -/
def Obligations.CopyWords : Prop :=
  Sys2Proof.Says.CopyRequests ∧
  Sys2Proof.Says.CopyChecks ∧
  Sys2Proof.Says.ArmedSlots ∧
  Sys2Proof.Says.GatherScatter

/-- BINPUT, EXPOLL, GATEQ and EXSEND: BinPut, ExchangePolls, GateQueues, ExchangeSends. -/
def Obligations.ExchangeWords : Prop :=
  Sys2Proof.Says.BinPut ∧
  Sys2Proof.Says.ExchangePolls ∧
  Sys2Proof.Says.GateQueues ∧
  Sys2Proof.Says.ExchangeSends

/-- LEASE and LQRY, and the lease controllers at destination and source: LeaseRequests, LeaseQueries, LeaseService, LeaseTurns. -/
def Obligations.Leases : Prop :=
  Sys2Proof.Says.LeaseRequests ∧
  Sys2Proof.Says.LeaseQueries ∧
  Sys2Proof.Says.LeaseService ∧
  Sys2Proof.Says.LeaseTurns

/-- TOK and the stream branches: Tokens, StreamBranches. -/
def Obligations.TokensAndBranches : Prop :=
  Sys2Proof.Says.Tokens ∧
  Sys2Proof.Says.StreamBranches

/-- Stream counter words, the end of a stream, SMFS and SMTS: StreamCounters, SkincWaits, StreamEnds, StreamSpecialRegisters. -/
def Obligations.StreamControl : Prop :=
  Sys2Proof.Says.StreamCounters ∧
  Sys2Proof.Says.SkincWaits ∧
  Sys2Proof.Says.StreamEnds ∧
  Sys2Proof.Says.StreamSpecialRegisters

/-- Vector integers, compares and fixed point: VectorIntegers, VectorCompares, FixedPoint. -/
def Obligations.VectorIntegerWords : Prop :=
  Sys2Proof.Says.VectorIntegers ∧
  Sys2Proof.Says.VectorCompares ∧
  Sys2Proof.Says.FixedPoint

/-- Vector floats, their rounding and the special functions: VectorFloats, FloatRounding, SpecialFunctions. -/
def Obligations.VectorFloatWords : Prop :=
  Sys2Proof.Says.VectorFloats ∧
  Sys2Proof.Says.FloatRounding ∧
  Sys2Proof.Says.SpecialFunctions

/-- Conversions and block scales: Conversions, BlockScales. -/
def Obligations.VectorConversions : Prop :=
  Sys2Proof.Says.Conversions ∧
  Sys2Proof.Says.BlockScales

/-- Reductions and scans: Reductions, Scans. -/
def Obligations.ReductionsAndScans : Prop :=
  Sys2Proof.Says.Reductions ∧
  Sys2Proof.Says.Scans

/-- Vector moves and mask words: VectorMoves, MaskWords. -/
def Obligations.VectorMovesAndMasks : Prop :=
  Sys2Proof.Says.VectorMoves ∧
  Sys2Proof.Says.MaskWords

/-- Vector loads and stores, VLDZ and VSTZ: VectorMemory, AccumulatorAccess. -/
def Obligations.VectorMemoryWords : Prop :=
  Sys2Proof.Says.VectorMemory ∧
  Sys2Proof.Says.AccumulatorAccess

/-- VSTRM, VSTRMX and words at bound registers: StreamBinding, BoundRegisters. -/
def Obligations.BoundStreams : Prop :=
  Sys2Proof.Says.StreamBinding ∧
  Sys2Proof.Says.BoundRegisters

/-- MMA and MMA24: products, integer products, and the checks in their order: MatrixProducts, IntegerProducts, MatrixChecks. -/
def Obligations.MatrixProductWords : Prop :=
  Sys2Proof.Says.MatrixProducts ∧
  Sys2Proof.Says.IntegerProducts ∧
  Sys2Proof.Says.MatrixChecks

/-- MZERO, MZLD, MXP, MZST, MCFG, MPROG and MZPOI, and where MMG and MMAS go on: TileMoves, TileStores, MatrixRegisters, PartedWordsGoOn. -/
def Obligations.TilesAndMatrixRegisters : Prop :=
  Sys2Proof.Says.TileMoves ∧
  Sys2Proof.Says.TileStores ∧
  Sys2Proof.Says.MatrixRegisters ∧
  Sys2Proof.Says.PartedWordsGoOn

/-- MMG, MMAS, the steps of the engines, and the order of array words: GroupedProducts, SparseProducts, EngineSteps, ArrayOrder. -/
def Obligations.PartedMatrixWords : Prop :=
  Sys2Proof.Says.GroupedProducts ∧
  Sys2Proof.Says.SparseProducts ∧
  Sys2Proof.Says.EngineSteps ∧
  Sys2Proof.Says.ArrayOrder

/-- Tasks and handlers start with the registers the spec gives: TaskStarts, HandlerStarts. -/
def Obligations.FibreStarts : Prop :=
  Sys2Proof.Says.TaskStarts ∧
  Sys2Proof.Says.HandlerStarts

/-- The network, SPAWN's messages and active messages on their way: NetworkSteps, TorusNodes, SpawnMessages, MessageArrivals. -/
def Obligations.Messages : Prop :=
  Sys2Proof.Says.NetworkSteps ∧
  Sys2Proof.Says.TorusNodes ∧
  Sys2Proof.Says.SpawnMessages ∧
  Sys2Proof.Says.MessageArrivals

/-- Requests served at their owners and their answers at the fibres: RemoteRequests, FullEmptyRequests, AnswersAtFibres. -/
def Obligations.Requests : Prop :=
  Sys2Proof.Says.RemoteRequests ∧
  Sys2Proof.Says.FullEmptyRequests ∧
  Sys2Proof.Says.AnswersAtFibres

/-- Wait limits, budgets and completion of a word: WaitLimits, BudgetsAndCompletion. -/
def Obligations.WaitsAndBudgets : Prop :=
  Sys2Proof.Says.WaitLimits ∧
  Sys2Proof.Says.BudgetsAndCompletion

/-- The copy engine: starts, chunks, elements, ends and timeouts: TransferStarts, LinearChunks, Elements, TransferEnds, WindowTimeouts. -/
def Obligations.CopyEngine : Prop :=
  Sys2Proof.Says.TransferStarts ∧
  Sys2Proof.Says.LinearChunks ∧
  Sys2Proof.Says.Elements ∧
  Sys2Proof.Says.TransferEnds ∧
  Sys2Proof.Says.WindowTimeouts

/-- The Router's decisions and the rounds of DISPATCH: RoutingDecisions, ExchangeRounds. -/
def Obligations.RoutingAndRounds : Prop :=
  Sys2Proof.Says.RoutingDecisions ∧
  Sys2Proof.Says.ExchangeRounds

/-- Rows and notices of the exchange at their cells, and the end of a request: RowsAtExperts, CombineEntries, ExchangeEnds. -/
def Obligations.RowsOfTheExchange : Prop :=
  Sys2Proof.Says.RowsAtExperts ∧
  Sys2Proof.Says.CombineEntries ∧
  Sys2Proof.Says.ExchangeEnds

/-- Stores to event lines, parents and children: EventLineStores, ParentLines. -/
def Obligations.EventLines : Prop :=
  Sys2Proof.Says.EventLineStores ∧
  Sys2Proof.Says.ParentLines

/-- Frames, faults, fences and power: Frames, FaultsAndFences, PowerSteps. -/
def Obligations.FabricAndPower : Prop :=
  Sys2Proof.Says.Frames ∧
  Sys2Proof.Says.FaultsAndFences ∧
  Sys2Proof.Says.PowerSteps

/-- Sessions, segments and reports of the host interface: Sessions, Segments, DeviceReports. -/
def Obligations.SessionsAndSegments : Prop :=
  Sys2Proof.Says.Sessions ∧
  Sys2Proof.Says.Segments ∧
  Sys2Proof.Says.DeviceReports

/-- The host's memory, queue, cancel and window operations: HostMemory, HostQueues, HostCancels, HostWindows. -/
def Obligations.HostRequests : Prop :=
  Sys2Proof.Says.HostMemory ∧
  Sys2Proof.Says.HostQueues ∧
  Sys2Proof.Says.HostCancels ∧
  Sys2Proof.Says.HostWindows

/-- Jobs, device sets and page tables: HostJobs, PageTables. -/
def Obligations.JobsAndPageTables : Prop :=
  Sys2Proof.Says.HostJobs ∧
  Sys2Proof.Says.PageTables

/-- Hardware slots, entries taken, phases, and where scheduler steps go on: HardwareSlots, EntriesTaken, PhasesEnd, SchedulerStepsGoOn. -/
def Obligations.HardwareSlotsAndEntries : Prop :=
  Sys2Proof.Says.HardwareSlots ∧
  Sys2Proof.Says.EntriesTaken ∧
  Sys2Proof.Says.PhasesEnd ∧
  Sys2Proof.Says.SchedulerStepsGoOn

/-- Semaphores, completion records, copies of entries and graphs: Semaphores, CompletionRecords, EntryCopies, GraphReplays. -/
def Obligations.EntriesAndGraphs : Prop :=
  Sys2Proof.Says.Semaphores ∧
  Sys2Proof.Says.CompletionRecords ∧
  Sys2Proof.Says.EntryCopies ∧
  Sys2Proof.Says.GraphReplays

/-- Admission, saving and completion of launches: Admission, Saves, Completion. -/
def Obligations.Launches : Prop :=
  Sys2Proof.Says.Admission ∧
  Sys2Proof.Says.Saves ∧
  Sys2Proof.Says.Completion

/-- A step runs the decoded instruction: SequencerStep, StreamStep, EventStep, CountersTested, TimeGoesOn. -/
def Obligations.StepsRunDecodedWords : Prop :=
  Sys2Proof.Says.SequencerStep ∧
  Sys2Proof.Says.StreamStep ∧
  Sys2Proof.Says.EventStep ∧
  Sys2Proof.Says.CountersTested ∧
  Sys2Proof.Says.TimeGoesOn
end

