-- ==== Sys2Proof/Laws/Maps.lean ====
section
/-!
SUPPORT. Lemmas about finite maps, sets of numbers and byte memories: read after write, and the canonical forms that
every operation keeps.
-/

namespace Sys2Proof.Machine

open Sys2Proof

/-! ## Finite maps -/

/-- What was put is found. -/
@[simp] theorem AMap.find_put_same {α : Type} (m : AMap α) (n : Nat) (x : α) : (m.put n x).find n = some x := by
  induction m with
  | nil => simp [AMap.put, AMap.find]
  | cons e r ih =>
    obtain ⟨k, a⟩ := e
    simp only [AMap.put]
    split
    · simp [AMap.find]
    · split
      · simp [AMap.find]
      · next h => simpa [AMap.find, h] using ih

/-- Another key is found as before. -/
theorem AMap.find_put_ne {α : Type} (m : AMap α) {n k : Nat} (x : α) (h : k ≠ n) : (m.put n x).find k = m.find k := by
  induction m with
  | nil => simp [AMap.put, AMap.find, h.symm]
  | cons e r ih =>
    obtain ⟨j, a⟩ := e
    simp only [AMap.put]
    split
    · simp [AMap.find, h.symm]
    · split
      · next hj => subst hj; simp [AMap.find, h.symm]
      · simp only [AMap.find]; split <;> simp_all

/-- What stands at a key after a put there or elsewhere. -/
theorem AMap.find_put {α : Type} (m : AMap α) (n k : Nat) (x : α) :
    (m.put n x).find k = if k = n then some x else m.find k := by
  split
  · next h => subst h; simp
  · next h => exact AMap.find_put_ne m x h

/-- A second put at a key replaces the first. -/
@[simp] theorem AMap.put_put {α : Type} (m : AMap α) (n : Nat) (x y : α) : (m.put n x).put n y = m.put n y := by
  induction m with
  | nil => simp [AMap.put]
  | cons e r ih =>
    obtain ⟨k, a⟩ := e
    simp only [AMap.put]
    split
    · next h => simp [AMap.put]
    · next h =>
      split
      · next hk => subst hk; simp [AMap.put]
      · next hk => simp [AMap.put, h, hk, ih]

/-- A put keeps the keys rising. -/
theorem AMap.wfFrom_put {α : Type} (m : AMap α) (lo n : Nat) (x : α) (hlo : lo ≤ n) (h : AMap.wfFrom lo m = true) :
    AMap.wfFrom lo (m.put n x) = true := by
  induction m generalizing lo with
  | nil => simp [AMap.put, AMap.wfFrom, hlo]
  | cons e r ih =>
    obtain ⟨k, a⟩ := e
    simp only [AMap.wfFrom, Bool.and_eq_true, decide_eq_true_eq] at h
    simp only [AMap.put]
    split
    · next hk => simp [AMap.wfFrom, hlo, h.2, Nat.succ_le_of_lt hk]
    · split
      · next hk => subst hk; simp [AMap.wfFrom, hlo, h.2]
      · next hk hn =>
        simp only [AMap.wfFrom, Bool.and_eq_true, decide_eq_true_eq]
        exact ⟨h.1, ih (k + 1) (by omega) h.2⟩

/-- A put keeps a map in canonical form. -/
theorem AMap.wf_put {α : Type} (m : AMap α) (n : Nat) (x : α) (h : m.wf = true) : (m.put n x).wf = true :=
  AMap.wfFrom_put m 0 n x (Nat.zero_le n) h

/-- A key below the bound of a canonical map is not found. -/
theorem AMap.find_of_lt {α : Type} (m : AMap α) (lo n : Nat) (hn : n < lo) (h : AMap.wfFrom lo m = true) :
    m.find n = none := by
  induction m generalizing lo with
  | nil => rfl
  | cons e r ih =>
    obtain ⟨k, a⟩ := e
    simp only [AMap.wfFrom, Bool.and_eq_true, decide_eq_true_eq] at h
    have hk : k ≠ n := by omega
    simp only [AMap.find, if_neg hk]
    exact ih (k + 1) (by omega) h.2

/-- In a canonical map a deleted key is not found. -/
theorem AMap.find_del_same {α : Type} (m : AMap α) (n : Nat) (h : m.wf = true) : (m.del n).find n = none := by
  suffices ∀ lo, AMap.wfFrom lo m = true → (m.del n).find n = none from this 0 h
  clear h
  intro lo h
  induction m generalizing lo with
  | nil => rfl
  | cons e r ih =>
    obtain ⟨k, a⟩ := e
    simp only [AMap.wfFrom, Bool.and_eq_true, decide_eq_true_eq] at h
    simp only [AMap.del]
    split
    · next hk => subst hk; exact AMap.find_of_lt r (k + 1) k (by omega) h.2
    · next hk => simp only [AMap.find, if_neg hk]; exact ih (k + 1) h.2

/-- Another key is found as before a deletion. -/
theorem AMap.find_del_ne {α : Type} (m : AMap α) {n k : Nat} (h : k ≠ n) : (m.del n).find k = m.find k := by
  induction m with
  | nil => rfl
  | cons e r ih =>
    obtain ⟨j, a⟩ := e
    simp only [AMap.del]
    split
    · next hj => subst hj; simp [AMap.find, h.symm]
    · simp only [AMap.find]; split <;> simp_all

/-- A lower bound of the keys may sink. -/
theorem AMap.wfFrom_mono {α : Type} (m : AMap α) {lo hi : Nat} (hl : lo ≤ hi) (h : AMap.wfFrom hi m = true) :
    AMap.wfFrom lo m = true := by
  cases m with
  | nil => rfl
  | cons e r =>
    simp only [AMap.wfFrom, Bool.and_eq_true, decide_eq_true_eq] at h ⊢
    exact ⟨by omega, h.2⟩

/-- Keys still rise after a deletion. -/
theorem AMap.wfFrom_del {α : Type} (m : AMap α) (lo n : Nat) (h : AMap.wfFrom lo m = true) :
    AMap.wfFrom lo (m.del n) = true := by
  induction m generalizing lo with
  | nil => rfl
  | cons e r ih =>
    obtain ⟨k, a⟩ := e
    simp only [AMap.wfFrom, Bool.and_eq_true, decide_eq_true_eq] at h
    simp only [AMap.del]
    split
    · exact AMap.wfFrom_mono r (by omega) h.2
    · simp only [AMap.wfFrom, Bool.and_eq_true, decide_eq_true_eq]; exact ⟨h.1, ih (k + 1) h.2⟩

/-- A deletion keeps keys rising. -/
theorem AMap.wf_del {α : Type} (m : AMap α) (n : Nat) (h : m.wf = true) : (m.del n).wf = true := AMap.wfFrom_del m 0 n h

/-! ## Byte memories -/

/-- A byte that was written is read. -/
@[simp] theorem Mem.read_write_same (m : List Host.Cell) (a : Nat) (x : Byte) (h : Memory.wf m = true) :
    Mem.read (Mem.write m a x) a = x := by
  suffices ∀ lo, Mem.wfFrom lo m = true → Mem.read (Mem.write m a x) a = x from this 0 h
  clear h
  intro lo h
  have below : ∀ (m : List Host.Cell) (lo a : Nat), a < lo → Mem.wfFrom lo m = true → Mem.read m a = 0 := by
    intro m
    induction m with
    | nil => intros; rfl
    | cons e r ih =>
      intro lo a ha h
      obtain ⟨k, b⟩ := e
      simp only [Mem.wfFrom, Bool.and_eq_true, decide_eq_true_eq] at h
      have hk : k ≠ a := by omega
      simp only [Mem.read, if_neg hk]
      exact ih (k + 1) a (by omega) h.2
  induction m generalizing lo with
  | nil => simp only [Mem.write]; split <;> simp_all [Mem.read]
  | cons e r ih =>
    obtain ⟨k, b⟩ := e
    simp only [Mem.wfFrom, Bool.and_eq_true, decide_eq_true_eq] at h
    simp only [Mem.write]
    split
    · next hk =>
      split
      · next hx =>
        have hne : k ≠ a := by omega
        simp only [Mem.read, if_neg hne, hx]
        exact below r (k + 1) a (by omega) h.2
      · simp [Mem.read]
    · split
      · next hk =>
        subst hk
        split
        · next hx => rw [hx]; exact below r (k + 1) k (by omega) h.2
        · simp [Mem.read]
      · next hk => simp only [Mem.read, if_neg hk]; exact ih (k + 1) h.2

/-- A byte elsewhere is read as before. -/
theorem Mem.read_write_ne (m : List Host.Cell) {a c : Nat} (x : Byte) (h : c ≠ a) :
    Mem.read (Mem.write m a x) c = Mem.read m c := by
  induction m with
  | nil => simp only [Mem.write]; split <;> simp [Mem.read, h.symm]
  | cons e r ih =>
    obtain ⟨k, b⟩ := e
    simp only [Mem.write]
    split
    · split
      · rfl
      · simp [Mem.read, h.symm]
    · split
      · next hk => subst hk; split <;> simp [Mem.read, h.symm]
      · simp only [Mem.read]; split <;> simp_all

/-- A write keeps the canonical form from a bound on. -/
theorem Mem.wfFrom_write (m : List Host.Cell) (lo a : Nat) (x : Byte) (hlo : lo ≤ a) (h : Mem.wfFrom lo m = true) :
    Mem.wfFrom lo (Mem.write m a x) = true := by
  have weaken : ∀ (m : List Host.Cell) (i j : Nat), i ≤ j → Mem.wfFrom j m = true → Mem.wfFrom i m = true := by
    intro m i j hij h
    cases m with
    | nil => rfl
    | cons e r =>
      obtain ⟨k, b⟩ := e
      simp only [Mem.wfFrom, Bool.and_eq_true, decide_eq_true_eq] at h ⊢
      exact ⟨⟨by omega, h.1.2⟩, h.2⟩
  induction m generalizing lo with
  | nil => simp only [Mem.write]; split <;> simp_all [Mem.wfFrom]
  | cons e r ih =>
    obtain ⟨k, b⟩ := e
    have h' := h
    simp only [Mem.wfFrom, Bool.and_eq_true, decide_eq_true_eq] at h
    simp only [Mem.write]
    split
    · next hk =>
      split
      · exact h'
      · next hx =>
        simp only [Mem.wfFrom, Bool.and_eq_true, decide_eq_true_eq, bne_iff_ne]
        exact ⟨⟨hlo, hx⟩, ⟨Nat.succ_le_of_lt hk, by simpa using h.1.2⟩, h.2⟩
    · split
      · next hk =>
        subst hk
        split
        · exact weaken r lo (k + 1) (by omega) h.2
        · next hx =>
          simp only [Mem.wfFrom, Bool.and_eq_true, decide_eq_true_eq, bne_iff_ne]
          exact ⟨⟨hlo, hx⟩, h.2⟩
      · next hk hn =>
        simp only [Mem.wfFrom, Bool.and_eq_true, decide_eq_true_eq]
        exact ⟨h.1, ih (k + 1) (by omega) h.2⟩

/-- A write keeps a memory in canonical form. -/
theorem Mem.wf_write (m : List Host.Cell) (a : Nat) (x : Byte) (h : Memory.wf m = true) :
    Memory.wf (Mem.write m a x) = true := Mem.wfFrom_write m 0 a x (Nat.zero_le a) h

/-- Writing bytes keeps a memory in canonical form. -/
theorem Mem.wf_writeBytes (l : List Byte) (m : List Host.Cell) (a : Nat) (h : Memory.wf m = true) :
    Memory.wf (Mem.writeBytes m a l) = true := by
  induction l generalizing m a with
  | nil => exact h
  | cons b r ih => exact ih _ _ (Mem.wf_write m a b h)

/-- A byte outside those written is read as before. -/
theorem Mem.read_writeBytes_out (l : List Byte) (m : List Host.Cell) (a c : Nat) (h : c < a ∨ a + l.length ≤ c) :
    Mem.read (Mem.writeBytes m a l) c = Mem.read m c := by
  induction l generalizing m a with
  | nil => rfl
  | cons b r ih =>
    simp only [List.length_cons] at h
    simp only [Mem.writeBytes]
    rw [ih _ _ (by omega), Mem.read_write_ne _ _ (by omega)]

/-- The bytes written are read back. -/
theorem Mem.readBytes_writeBytes (l : List Byte) (m : List Host.Cell) (a : Nat) (h : Memory.wf m = true) :
    Mem.readBytes (Mem.writeBytes m a l) l.length a = l := by
  induction l generalizing m a with
  | nil => rfl
  | cons b r ih =>
    simp only [Mem.writeBytes, List.length_cons, Mem.readBytes]
    rw [Mem.read_writeBytes_out r _ _ _ (by omega), Mem.read_write_same m a b h, ih _ _ (Mem.wf_write m a b h)]

/-! ## Numbers in bytes -/

/-- A number has as many bytes as it is written with. -/
@[simp] theorem natBytes_length (n x : Nat) : (natBytes n x).length = n := by
  induction n generalizing x with
  | zero => rfl
  | succ n ih => simp [natBytes, ih]

/-- The number that a number's low bytes stand for. -/
theorem bytesNat_natBytes (n x : Nat) : bytesNat (natBytes n x) = x % 256 ^ n := by
  induction n generalizing x with
  | zero => simp [natBytes, bytesNat, Nat.mod_one]
  | succ n ih =>
    have h : x % (256 * 256 ^ n) = x % 256 + 256 * (x / 256 % 256 ^ n) := Nat.mod_mul
    have e : (256 : Nat) ^ (n + 1) = 256 * 256 ^ n := Nat.pow_succ'
    rw [natBytes, bytesNat, ih, BitVec.toNat_ofNat, e, h]

/-- A number written to a memory in canonical form is read back. -/
theorem Mem.readNat_writeBytes (m : List Host.Cell) (n a x : Nat) (h : Memory.wf m = true) :
    Mem.readNat (Mem.writeBytes m a (natBytes n x)) n a = x % 256 ^ n := by
  have := Mem.readBytes_writeBytes (natBytes n x) m a h
  rw [natBytes_length] at this
  rw [Mem.readNat, this, bytesNat_natBytes]

/-! ## Sets -/

/-- Membership after a number is put in. -/
theorem mem_setAdd (l : List Nat) (n k : Nat) : k ∈ setAdd l n ↔ k = n ∨ k ∈ l := by
  induction l with
  | nil => simp [setAdd]
  | cons j r ih =>
    simp only [setAdd]
    split
    · simp
    · split
      · next hj => subst hj; simp
      · simp only [List.mem_cons, ih]; exact ⟨fun h => by rcases h with h | h | h <;> simp [h],
          fun h => by rcases h with h | h | h <;> simp [h]⟩

end Sys2Proof.Machine
end

