-- ==== Sys2Proof/Laws/State.lean ====
section
/-!
SUPPORT. What each update of the state leaves as it is: one lemma per field per update, so that no proof unfolds a record
update.
-/

namespace Sys2Proof.Machine

open Sys2Proof

/-! ## `setCell` -/

@[simp] theorem State.setCell_cur (s : State) (c : Nat) (x : Cell) : (s.setCell c x).cur = s.cur := rfl
@[simp] theorem State.setCell_agenda (s : State) (c : Nat) (x : Cell) : (s.setCell c x).agenda = s.agenda := rfl
@[simp] theorem State.setCell_now (s : State) (c : Nat) (x : Cell) : (s.setCell c x).now = s.now := rfl
@[simp] theorem State.setCell_fresh (s : State) (c : Nat) (x : Cell) : (s.setCell c x).fresh = s.fresh := rfl
@[simp] theorem State.setCell_nextId (s : State) (c : Nat) (x : Cell) : (s.setCell c x).nextId = s.nextId := rfl
@[simp] theorem State.setCell_mem (s : State) (c : Nat) (x : Cell) : (s.setCell c x).mem = s.mem := rfl
@[simp] theorem State.setCell_memPoison (s : State) (c : Nat) (x : Cell) : (s.setCell c x).memPoison = s.memPoison := rfl
@[simp] theorem State.setCell_authors (s : State) (c : Nat) (x : Cell) : (s.setCell c x).authors = s.authors := rfl
@[simp] theorem State.setCell_lines (s : State) (c : Nat) (x : Cell) : (s.setCell c x).lines = s.lines := rfl
@[simp] theorem State.setCell_net (s : State) (c : Nat) (x : Cell) : (s.setCell c x).net = s.net := rfl
@[simp] theorem State.setCell_torus (s : State) (c : Nat) (x : Cell) : (s.setCell c x).torus = s.torus := rfl
@[simp] theorem State.setCell_dropReports (s : State) (c : Nat) (x : Cell) : (s.setCell c x).dropReports = s.dropReports := rfl
@[simp] theorem State.setCell_fabricOut (s : State) (c : Nat) (x : Cell) : (s.setCell c x).fabricOut = s.fabricOut := rfl
@[simp] theorem State.setCell_fabricKept (s : State) (c : Nat) (x : Cell) : (s.setCell c x).fabricKept = s.fabricKept := rfl
@[simp] theorem State.setCell_fabricSeqOut (s : State) (c : Nat) (x : Cell) : (s.setCell c x).fabricSeqOut = s.fabricSeqOut := rfl
@[simp] theorem State.setCell_fabricSeqIn (s : State) (c : Nat) (x : Cell) : (s.setCell c x).fabricSeqIn = s.fabricSeqIn := rfl
@[simp] theorem State.setCell_fabricIn (s : State) (c : Nat) (x : Cell) : (s.setCell c x).fabricIn = s.fabricIn := rfl
@[simp] theorem State.setCell_inbox (s : State) (c : Nat) (x : Cell) : (s.setCell c x).inbox = s.inbox := rfl
@[simp] theorem State.setCell_recalls (s : State) (c : Nat) (x : Cell) : (s.setCell c x).recalls = s.recalls := rfl
@[simp] theorem State.setCell_hostOut (s : State) (c : Nat) (x : Cell) : (s.setCell c x).hostOut = s.hostOut := rfl
@[simp] theorem State.setCell_unacked (s : State) (c : Nat) (x : Cell) : (s.setCell c x).unacked = s.unacked := rfl
@[simp] theorem State.setCell_sessions (s : State) (c : Nat) (x : Cell) : (s.setCell c x).sessions = s.sessions := rfl
@[simp] theorem State.setCell_opens (s : State) (c : Nat) (x : Cell) : (s.setCell c x).opens = s.opens := rfl
@[simp] theorem State.setCell_winOps (s : State) (c : Nat) (x : Cell) : (s.setCell c x).winOps = s.winOps := rfl
@[simp] theorem State.setCell_tlbs (s : State) (c : Nat) (x : Cell) : (s.setCell c x).tlbs = s.tlbs := rfl
@[simp] theorem State.setCell_invs (s : State) (c : Nat) (x : Cell) : (s.setCell c x).invs = s.invs := rfl
@[simp] theorem State.setCell_queues (s : State) (c : Nat) (x : Cell) : (s.setCell c x).queues = s.queues := rfl
@[simp] theorem State.setCell_works (s : State) (c : Nat) (x : Cell) : (s.setCell c x).works = s.works := rfl
@[simp] theorem State.setCell_phases (s : State) (c : Nat) (x : Cell) : (s.setCell c x).phases = s.phases := rfl
@[simp] theorem State.setCell_drainFor (s : State) (c : Nat) (x : Cell) : (s.setCell c x).drainFor = s.drainFor := rfl
@[simp] theorem State.setCell_lastSlot (s : State) (c : Nat) (x : Cell) : (s.setCell c x).lastSlot = s.lastSlot := rfl
@[simp] theorem State.setCell_jobs (s : State) (c : Nat) (x : Cell) : (s.setCell c x).jobs = s.jobs := rfl
@[simp] theorem State.setCell_launches (s : State) (c : Nat) (x : Cell) : (s.setCell c x).launches = s.launches := rfl
@[simp] theorem State.setCell_routers (s : State) (c : Nat) (x : Cell) : (s.setCell c x).routers = s.routers := rfl
@[simp] theorem State.setCell_exch (s : State) (c : Nat) (x : Cell) : (s.setCell c x).exch = s.exch := rfl
@[simp] theorem State.setCell_rounds (s : State) (c : Nat) (x : Cell) : (s.setCell c x).rounds = s.rounds := rfl
@[simp] theorem State.setCell_farSlots (s : State) (c : Nat) (x : Cell) : (s.setCell c x).farSlots = s.farSlots := rfl
@[simp] theorem State.setCell_groups (s : State) (c : Nat) (x : Cell) : (s.setCell c x).groups = s.groups := rfl
@[simp] theorem State.setCell_farContribs (s : State) (c : Nat) (x : Cell) : (s.setCell c x).farContribs = s.farContribs := rfl
@[simp] theorem State.setCell_dieMon (s : State) (c : Nat) (x : Cell) : (s.setCell c x).dieMon = s.dieMon := rfl
@[simp] theorem State.setCell_leases (s : State) (c : Nat) (x : Cell) : (s.setCell c x).leases = s.leases := rfl
@[simp] theorem State.setCell_asks (s : State) (c : Nat) (x : Cell) : (s.setCell c x).asks = s.asks := rfl
@[simp] theorem State.setCell_draining (s : State) (c : Nat) (x : Cell) : (s.setCell c x).draining = s.draining := rfl
@[simp] theorem State.setCell_inLeases (s : State) (c : Nat) (x : Cell) : (s.setCell c x).inLeases = s.inLeases := rfl
@[simp] theorem State.setCell_inReqs (s : State) (c : Nat) (x : Cell) : (s.setCell c x).inReqs = s.inReqs := rfl
@[simp] theorem State.setCell_noticed (s : State) (c : Nat) (x : Cell) : (s.setCell c x).noticed = s.noticed := rfl
@[simp] theorem State.setCell_device (s : State) (c : Nat) (x : Cell) : (s.setCell c x).device = s.device := rfl
@[simp] theorem State.setCell_excluded (s : State) (c : Nat) (x : Cell) : (s.setCell c x).excluded = s.excluded := rfl
@[simp] theorem State.setCell_routeEmpty (s : State) (c : Nat) (x : Cell) : (s.setCell c x).routeEmpty = s.routeEmpty := rfl
@[simp] theorem State.setCell_fencedFns (s : State) (c : Nat) (x : Cell) : (s.setCell c x).fencedFns = s.fencedFns := rfl
@[simp] theorem State.setCell_up (s : State) (c : Nat) (x : Cell) : (s.setCell c x).up = s.up := rfl
@[simp] theorem State.setCell_bootFailed (s : State) (c : Nat) (x : Cell) : (s.setCell c x).bootFailed = s.bootFailed := rfl
@[simp] theorem State.setCell_measured (s : State) (c : Nat) (x : Cell) : (s.setCell c x).measured = s.measured := rfl
@[simp] theorem State.setCell_form (s : State) (c : Nat) (x : Cell) : (s.setCell c x).form = s.form := rfl
@[simp] theorem State.setCell_sources (s : State) (c : Nat) (x : Cell) : (s.setCell c x).sources = s.sources := rfl
@[simp] theorem State.setCell_cap (s : State) (c : Nat) (x : Cell) : (s.setCell c x).cap = s.cap := rfl
@[simp] theorem State.setCell_warmAt (s : State) (c : Nat) (x : Cell) : (s.setCell c x).warmAt = s.warmAt := rfl
@[simp] theorem State.setCell_half (s : State) (c : Nat) (x : Cell) : (s.setCell c x).half = s.half := rfl
@[simp] theorem State.setCell_stepAt (s : State) (c : Nat) (x : Cell) : (s.setCell c x).stepAt = s.stepAt := rfl
@[simp] theorem State.setCell_sevenths (s : State) (c : Nat) (x : Cell) : (s.setCell c x).sevenths = s.sevenths := rfl

/-! ## `updCell` -/

@[simp] theorem State.updCell_cur (s : State) (c : Nat) (f : Cell → Cell) : (s.updCell c f).cur = s.cur := rfl
@[simp] theorem State.updCell_agenda (s : State) (c : Nat) (f : Cell → Cell) : (s.updCell c f).agenda = s.agenda := rfl
@[simp] theorem State.updCell_now (s : State) (c : Nat) (f : Cell → Cell) : (s.updCell c f).now = s.now := rfl
@[simp] theorem State.updCell_fresh (s : State) (c : Nat) (f : Cell → Cell) : (s.updCell c f).fresh = s.fresh := rfl
@[simp] theorem State.updCell_nextId (s : State) (c : Nat) (f : Cell → Cell) : (s.updCell c f).nextId = s.nextId := rfl
@[simp] theorem State.updCell_mem (s : State) (c : Nat) (f : Cell → Cell) : (s.updCell c f).mem = s.mem := rfl
@[simp] theorem State.updCell_memPoison (s : State) (c : Nat) (f : Cell → Cell) : (s.updCell c f).memPoison = s.memPoison := rfl
@[simp] theorem State.updCell_authors (s : State) (c : Nat) (f : Cell → Cell) : (s.updCell c f).authors = s.authors := rfl
@[simp] theorem State.updCell_lines (s : State) (c : Nat) (f : Cell → Cell) : (s.updCell c f).lines = s.lines := rfl
@[simp] theorem State.updCell_net (s : State) (c : Nat) (f : Cell → Cell) : (s.updCell c f).net = s.net := rfl
@[simp] theorem State.updCell_torus (s : State) (c : Nat) (f : Cell → Cell) : (s.updCell c f).torus = s.torus := rfl
@[simp] theorem State.updCell_dropReports (s : State) (c : Nat) (f : Cell → Cell) : (s.updCell c f).dropReports = s.dropReports := rfl
@[simp] theorem State.updCell_fabricOut (s : State) (c : Nat) (f : Cell → Cell) : (s.updCell c f).fabricOut = s.fabricOut := rfl
@[simp] theorem State.updCell_fabricKept (s : State) (c : Nat) (f : Cell → Cell) : (s.updCell c f).fabricKept = s.fabricKept := rfl
@[simp] theorem State.updCell_fabricSeqOut (s : State) (c : Nat) (f : Cell → Cell) : (s.updCell c f).fabricSeqOut = s.fabricSeqOut := rfl
@[simp] theorem State.updCell_fabricSeqIn (s : State) (c : Nat) (f : Cell → Cell) : (s.updCell c f).fabricSeqIn = s.fabricSeqIn := rfl
@[simp] theorem State.updCell_fabricIn (s : State) (c : Nat) (f : Cell → Cell) : (s.updCell c f).fabricIn = s.fabricIn := rfl
@[simp] theorem State.updCell_inbox (s : State) (c : Nat) (f : Cell → Cell) : (s.updCell c f).inbox = s.inbox := rfl
@[simp] theorem State.updCell_recalls (s : State) (c : Nat) (f : Cell → Cell) : (s.updCell c f).recalls = s.recalls := rfl
@[simp] theorem State.updCell_hostOut (s : State) (c : Nat) (f : Cell → Cell) : (s.updCell c f).hostOut = s.hostOut := rfl
@[simp] theorem State.updCell_unacked (s : State) (c : Nat) (f : Cell → Cell) : (s.updCell c f).unacked = s.unacked := rfl
@[simp] theorem State.updCell_sessions (s : State) (c : Nat) (f : Cell → Cell) : (s.updCell c f).sessions = s.sessions := rfl
@[simp] theorem State.updCell_opens (s : State) (c : Nat) (f : Cell → Cell) : (s.updCell c f).opens = s.opens := rfl
@[simp] theorem State.updCell_winOps (s : State) (c : Nat) (f : Cell → Cell) : (s.updCell c f).winOps = s.winOps := rfl
@[simp] theorem State.updCell_tlbs (s : State) (c : Nat) (f : Cell → Cell) : (s.updCell c f).tlbs = s.tlbs := rfl
@[simp] theorem State.updCell_invs (s : State) (c : Nat) (f : Cell → Cell) : (s.updCell c f).invs = s.invs := rfl
@[simp] theorem State.updCell_queues (s : State) (c : Nat) (f : Cell → Cell) : (s.updCell c f).queues = s.queues := rfl
@[simp] theorem State.updCell_works (s : State) (c : Nat) (f : Cell → Cell) : (s.updCell c f).works = s.works := rfl
@[simp] theorem State.updCell_phases (s : State) (c : Nat) (f : Cell → Cell) : (s.updCell c f).phases = s.phases := rfl
@[simp] theorem State.updCell_drainFor (s : State) (c : Nat) (f : Cell → Cell) : (s.updCell c f).drainFor = s.drainFor := rfl
@[simp] theorem State.updCell_lastSlot (s : State) (c : Nat) (f : Cell → Cell) : (s.updCell c f).lastSlot = s.lastSlot := rfl
@[simp] theorem State.updCell_jobs (s : State) (c : Nat) (f : Cell → Cell) : (s.updCell c f).jobs = s.jobs := rfl
@[simp] theorem State.updCell_launches (s : State) (c : Nat) (f : Cell → Cell) : (s.updCell c f).launches = s.launches := rfl
@[simp] theorem State.updCell_routers (s : State) (c : Nat) (f : Cell → Cell) : (s.updCell c f).routers = s.routers := rfl
@[simp] theorem State.updCell_exch (s : State) (c : Nat) (f : Cell → Cell) : (s.updCell c f).exch = s.exch := rfl
@[simp] theorem State.updCell_rounds (s : State) (c : Nat) (f : Cell → Cell) : (s.updCell c f).rounds = s.rounds := rfl
@[simp] theorem State.updCell_farSlots (s : State) (c : Nat) (f : Cell → Cell) : (s.updCell c f).farSlots = s.farSlots := rfl
@[simp] theorem State.updCell_groups (s : State) (c : Nat) (f : Cell → Cell) : (s.updCell c f).groups = s.groups := rfl
@[simp] theorem State.updCell_farContribs (s : State) (c : Nat) (f : Cell → Cell) : (s.updCell c f).farContribs = s.farContribs := rfl
@[simp] theorem State.updCell_dieMon (s : State) (c : Nat) (f : Cell → Cell) : (s.updCell c f).dieMon = s.dieMon := rfl
@[simp] theorem State.updCell_leases (s : State) (c : Nat) (f : Cell → Cell) : (s.updCell c f).leases = s.leases := rfl
@[simp] theorem State.updCell_asks (s : State) (c : Nat) (f : Cell → Cell) : (s.updCell c f).asks = s.asks := rfl
@[simp] theorem State.updCell_draining (s : State) (c : Nat) (f : Cell → Cell) : (s.updCell c f).draining = s.draining := rfl
@[simp] theorem State.updCell_inLeases (s : State) (c : Nat) (f : Cell → Cell) : (s.updCell c f).inLeases = s.inLeases := rfl
@[simp] theorem State.updCell_inReqs (s : State) (c : Nat) (f : Cell → Cell) : (s.updCell c f).inReqs = s.inReqs := rfl
@[simp] theorem State.updCell_noticed (s : State) (c : Nat) (f : Cell → Cell) : (s.updCell c f).noticed = s.noticed := rfl
@[simp] theorem State.updCell_device (s : State) (c : Nat) (f : Cell → Cell) : (s.updCell c f).device = s.device := rfl
@[simp] theorem State.updCell_excluded (s : State) (c : Nat) (f : Cell → Cell) : (s.updCell c f).excluded = s.excluded := rfl
@[simp] theorem State.updCell_routeEmpty (s : State) (c : Nat) (f : Cell → Cell) : (s.updCell c f).routeEmpty = s.routeEmpty := rfl
@[simp] theorem State.updCell_fencedFns (s : State) (c : Nat) (f : Cell → Cell) : (s.updCell c f).fencedFns = s.fencedFns := rfl
@[simp] theorem State.updCell_up (s : State) (c : Nat) (f : Cell → Cell) : (s.updCell c f).up = s.up := rfl
@[simp] theorem State.updCell_bootFailed (s : State) (c : Nat) (f : Cell → Cell) : (s.updCell c f).bootFailed = s.bootFailed := rfl
@[simp] theorem State.updCell_measured (s : State) (c : Nat) (f : Cell → Cell) : (s.updCell c f).measured = s.measured := rfl
@[simp] theorem State.updCell_form (s : State) (c : Nat) (f : Cell → Cell) : (s.updCell c f).form = s.form := rfl
@[simp] theorem State.updCell_sources (s : State) (c : Nat) (f : Cell → Cell) : (s.updCell c f).sources = s.sources := rfl
@[simp] theorem State.updCell_cap (s : State) (c : Nat) (f : Cell → Cell) : (s.updCell c f).cap = s.cap := rfl
@[simp] theorem State.updCell_warmAt (s : State) (c : Nat) (f : Cell → Cell) : (s.updCell c f).warmAt = s.warmAt := rfl
@[simp] theorem State.updCell_half (s : State) (c : Nat) (f : Cell → Cell) : (s.updCell c f).half = s.half := rfl
@[simp] theorem State.updCell_stepAt (s : State) (c : Nat) (f : Cell → Cell) : (s.updCell c f).stepAt = s.stepAt := rfl
@[simp] theorem State.updCell_sevenths (s : State) (c : Nat) (f : Cell → Cell) : (s.updCell c f).sevenths = s.sevenths := rfl

/-! ## `updHere` -/

@[simp] theorem State.updHere_cur (s : State) (f : Cell → Cell) : (s.updHere f).cur = s.cur := rfl
@[simp] theorem State.updHere_agenda (s : State) (f : Cell → Cell) : (s.updHere f).agenda = s.agenda := rfl
@[simp] theorem State.updHere_now (s : State) (f : Cell → Cell) : (s.updHere f).now = s.now := rfl
@[simp] theorem State.updHere_fresh (s : State) (f : Cell → Cell) : (s.updHere f).fresh = s.fresh := rfl
@[simp] theorem State.updHere_nextId (s : State) (f : Cell → Cell) : (s.updHere f).nextId = s.nextId := rfl
@[simp] theorem State.updHere_mem (s : State) (f : Cell → Cell) : (s.updHere f).mem = s.mem := rfl
@[simp] theorem State.updHere_memPoison (s : State) (f : Cell → Cell) : (s.updHere f).memPoison = s.memPoison := rfl
@[simp] theorem State.updHere_authors (s : State) (f : Cell → Cell) : (s.updHere f).authors = s.authors := rfl
@[simp] theorem State.updHere_lines (s : State) (f : Cell → Cell) : (s.updHere f).lines = s.lines := rfl
@[simp] theorem State.updHere_net (s : State) (f : Cell → Cell) : (s.updHere f).net = s.net := rfl
@[simp] theorem State.updHere_torus (s : State) (f : Cell → Cell) : (s.updHere f).torus = s.torus := rfl
@[simp] theorem State.updHere_dropReports (s : State) (f : Cell → Cell) : (s.updHere f).dropReports = s.dropReports := rfl
@[simp] theorem State.updHere_fabricOut (s : State) (f : Cell → Cell) : (s.updHere f).fabricOut = s.fabricOut := rfl
@[simp] theorem State.updHere_fabricKept (s : State) (f : Cell → Cell) : (s.updHere f).fabricKept = s.fabricKept := rfl
@[simp] theorem State.updHere_fabricSeqOut (s : State) (f : Cell → Cell) : (s.updHere f).fabricSeqOut = s.fabricSeqOut := rfl
@[simp] theorem State.updHere_fabricSeqIn (s : State) (f : Cell → Cell) : (s.updHere f).fabricSeqIn = s.fabricSeqIn := rfl
@[simp] theorem State.updHere_fabricIn (s : State) (f : Cell → Cell) : (s.updHere f).fabricIn = s.fabricIn := rfl
@[simp] theorem State.updHere_inbox (s : State) (f : Cell → Cell) : (s.updHere f).inbox = s.inbox := rfl
@[simp] theorem State.updHere_recalls (s : State) (f : Cell → Cell) : (s.updHere f).recalls = s.recalls := rfl
@[simp] theorem State.updHere_hostOut (s : State) (f : Cell → Cell) : (s.updHere f).hostOut = s.hostOut := rfl
@[simp] theorem State.updHere_unacked (s : State) (f : Cell → Cell) : (s.updHere f).unacked = s.unacked := rfl
@[simp] theorem State.updHere_sessions (s : State) (f : Cell → Cell) : (s.updHere f).sessions = s.sessions := rfl
@[simp] theorem State.updHere_opens (s : State) (f : Cell → Cell) : (s.updHere f).opens = s.opens := rfl
@[simp] theorem State.updHere_winOps (s : State) (f : Cell → Cell) : (s.updHere f).winOps = s.winOps := rfl
@[simp] theorem State.updHere_tlbs (s : State) (f : Cell → Cell) : (s.updHere f).tlbs = s.tlbs := rfl
@[simp] theorem State.updHere_invs (s : State) (f : Cell → Cell) : (s.updHere f).invs = s.invs := rfl
@[simp] theorem State.updHere_queues (s : State) (f : Cell → Cell) : (s.updHere f).queues = s.queues := rfl
@[simp] theorem State.updHere_works (s : State) (f : Cell → Cell) : (s.updHere f).works = s.works := rfl
@[simp] theorem State.updHere_phases (s : State) (f : Cell → Cell) : (s.updHere f).phases = s.phases := rfl
@[simp] theorem State.updHere_drainFor (s : State) (f : Cell → Cell) : (s.updHere f).drainFor = s.drainFor := rfl
@[simp] theorem State.updHere_lastSlot (s : State) (f : Cell → Cell) : (s.updHere f).lastSlot = s.lastSlot := rfl
@[simp] theorem State.updHere_jobs (s : State) (f : Cell → Cell) : (s.updHere f).jobs = s.jobs := rfl
@[simp] theorem State.updHere_launches (s : State) (f : Cell → Cell) : (s.updHere f).launches = s.launches := rfl
@[simp] theorem State.updHere_routers (s : State) (f : Cell → Cell) : (s.updHere f).routers = s.routers := rfl
@[simp] theorem State.updHere_exch (s : State) (f : Cell → Cell) : (s.updHere f).exch = s.exch := rfl
@[simp] theorem State.updHere_rounds (s : State) (f : Cell → Cell) : (s.updHere f).rounds = s.rounds := rfl
@[simp] theorem State.updHere_farSlots (s : State) (f : Cell → Cell) : (s.updHere f).farSlots = s.farSlots := rfl
@[simp] theorem State.updHere_groups (s : State) (f : Cell → Cell) : (s.updHere f).groups = s.groups := rfl
@[simp] theorem State.updHere_farContribs (s : State) (f : Cell → Cell) : (s.updHere f).farContribs = s.farContribs := rfl
@[simp] theorem State.updHere_dieMon (s : State) (f : Cell → Cell) : (s.updHere f).dieMon = s.dieMon := rfl
@[simp] theorem State.updHere_leases (s : State) (f : Cell → Cell) : (s.updHere f).leases = s.leases := rfl
@[simp] theorem State.updHere_asks (s : State) (f : Cell → Cell) : (s.updHere f).asks = s.asks := rfl
@[simp] theorem State.updHere_draining (s : State) (f : Cell → Cell) : (s.updHere f).draining = s.draining := rfl
@[simp] theorem State.updHere_inLeases (s : State) (f : Cell → Cell) : (s.updHere f).inLeases = s.inLeases := rfl
@[simp] theorem State.updHere_inReqs (s : State) (f : Cell → Cell) : (s.updHere f).inReqs = s.inReqs := rfl
@[simp] theorem State.updHere_noticed (s : State) (f : Cell → Cell) : (s.updHere f).noticed = s.noticed := rfl
@[simp] theorem State.updHere_device (s : State) (f : Cell → Cell) : (s.updHere f).device = s.device := rfl
@[simp] theorem State.updHere_excluded (s : State) (f : Cell → Cell) : (s.updHere f).excluded = s.excluded := rfl
@[simp] theorem State.updHere_routeEmpty (s : State) (f : Cell → Cell) : (s.updHere f).routeEmpty = s.routeEmpty := rfl
@[simp] theorem State.updHere_fencedFns (s : State) (f : Cell → Cell) : (s.updHere f).fencedFns = s.fencedFns := rfl
@[simp] theorem State.updHere_up (s : State) (f : Cell → Cell) : (s.updHere f).up = s.up := rfl
@[simp] theorem State.updHere_bootFailed (s : State) (f : Cell → Cell) : (s.updHere f).bootFailed = s.bootFailed := rfl
@[simp] theorem State.updHere_measured (s : State) (f : Cell → Cell) : (s.updHere f).measured = s.measured := rfl
@[simp] theorem State.updHere_form (s : State) (f : Cell → Cell) : (s.updHere f).form = s.form := rfl
@[simp] theorem State.updHere_sources (s : State) (f : Cell → Cell) : (s.updHere f).sources = s.sources := rfl
@[simp] theorem State.updHere_cap (s : State) (f : Cell → Cell) : (s.updHere f).cap = s.cap := rfl
@[simp] theorem State.updHere_warmAt (s : State) (f : Cell → Cell) : (s.updHere f).warmAt = s.warmAt := rfl
@[simp] theorem State.updHere_half (s : State) (f : Cell → Cell) : (s.updHere f).half = s.half := rfl
@[simp] theorem State.updHere_stepAt (s : State) (f : Cell → Cell) : (s.updHere f).stepAt = s.stepAt := rfl
@[simp] theorem State.updHere_sevenths (s : State) (f : Cell → Cell) : (s.updHere f).sevenths = s.sevenths := rfl

/-! ## `updFibre` -/

@[simp] theorem State.updFibre_cur (s : State) (f : Fibre → Fibre) : (s.updFibre f).cur = s.cur := rfl
@[simp] theorem State.updFibre_agenda (s : State) (f : Fibre → Fibre) : (s.updFibre f).agenda = s.agenda := rfl
@[simp] theorem State.updFibre_now (s : State) (f : Fibre → Fibre) : (s.updFibre f).now = s.now := rfl
@[simp] theorem State.updFibre_fresh (s : State) (f : Fibre → Fibre) : (s.updFibre f).fresh = s.fresh := rfl
@[simp] theorem State.updFibre_nextId (s : State) (f : Fibre → Fibre) : (s.updFibre f).nextId = s.nextId := rfl
@[simp] theorem State.updFibre_mem (s : State) (f : Fibre → Fibre) : (s.updFibre f).mem = s.mem := rfl
@[simp] theorem State.updFibre_memPoison (s : State) (f : Fibre → Fibre) : (s.updFibre f).memPoison = s.memPoison := rfl
@[simp] theorem State.updFibre_authors (s : State) (f : Fibre → Fibre) : (s.updFibre f).authors = s.authors := rfl
@[simp] theorem State.updFibre_lines (s : State) (f : Fibre → Fibre) : (s.updFibre f).lines = s.lines := rfl
@[simp] theorem State.updFibre_net (s : State) (f : Fibre → Fibre) : (s.updFibre f).net = s.net := rfl
@[simp] theorem State.updFibre_torus (s : State) (f : Fibre → Fibre) : (s.updFibre f).torus = s.torus := rfl
@[simp] theorem State.updFibre_dropReports (s : State) (f : Fibre → Fibre) : (s.updFibre f).dropReports = s.dropReports := rfl
@[simp] theorem State.updFibre_fabricOut (s : State) (f : Fibre → Fibre) : (s.updFibre f).fabricOut = s.fabricOut := rfl
@[simp] theorem State.updFibre_fabricKept (s : State) (f : Fibre → Fibre) : (s.updFibre f).fabricKept = s.fabricKept := rfl
@[simp] theorem State.updFibre_fabricSeqOut (s : State) (f : Fibre → Fibre) : (s.updFibre f).fabricSeqOut = s.fabricSeqOut := rfl
@[simp] theorem State.updFibre_fabricSeqIn (s : State) (f : Fibre → Fibre) : (s.updFibre f).fabricSeqIn = s.fabricSeqIn := rfl
@[simp] theorem State.updFibre_fabricIn (s : State) (f : Fibre → Fibre) : (s.updFibre f).fabricIn = s.fabricIn := rfl
@[simp] theorem State.updFibre_inbox (s : State) (f : Fibre → Fibre) : (s.updFibre f).inbox = s.inbox := rfl
@[simp] theorem State.updFibre_recalls (s : State) (f : Fibre → Fibre) : (s.updFibre f).recalls = s.recalls := rfl
@[simp] theorem State.updFibre_hostOut (s : State) (f : Fibre → Fibre) : (s.updFibre f).hostOut = s.hostOut := rfl
@[simp] theorem State.updFibre_unacked (s : State) (f : Fibre → Fibre) : (s.updFibre f).unacked = s.unacked := rfl
@[simp] theorem State.updFibre_sessions (s : State) (f : Fibre → Fibre) : (s.updFibre f).sessions = s.sessions := rfl
@[simp] theorem State.updFibre_opens (s : State) (f : Fibre → Fibre) : (s.updFibre f).opens = s.opens := rfl
@[simp] theorem State.updFibre_winOps (s : State) (f : Fibre → Fibre) : (s.updFibre f).winOps = s.winOps := rfl
@[simp] theorem State.updFibre_tlbs (s : State) (f : Fibre → Fibre) : (s.updFibre f).tlbs = s.tlbs := rfl
@[simp] theorem State.updFibre_invs (s : State) (f : Fibre → Fibre) : (s.updFibre f).invs = s.invs := rfl
@[simp] theorem State.updFibre_queues (s : State) (f : Fibre → Fibre) : (s.updFibre f).queues = s.queues := rfl
@[simp] theorem State.updFibre_works (s : State) (f : Fibre → Fibre) : (s.updFibre f).works = s.works := rfl
@[simp] theorem State.updFibre_phases (s : State) (f : Fibre → Fibre) : (s.updFibre f).phases = s.phases := rfl
@[simp] theorem State.updFibre_drainFor (s : State) (f : Fibre → Fibre) : (s.updFibre f).drainFor = s.drainFor := rfl
@[simp] theorem State.updFibre_lastSlot (s : State) (f : Fibre → Fibre) : (s.updFibre f).lastSlot = s.lastSlot := rfl
@[simp] theorem State.updFibre_jobs (s : State) (f : Fibre → Fibre) : (s.updFibre f).jobs = s.jobs := rfl
@[simp] theorem State.updFibre_launches (s : State) (f : Fibre → Fibre) : (s.updFibre f).launches = s.launches := rfl
@[simp] theorem State.updFibre_routers (s : State) (f : Fibre → Fibre) : (s.updFibre f).routers = s.routers := rfl
@[simp] theorem State.updFibre_exch (s : State) (f : Fibre → Fibre) : (s.updFibre f).exch = s.exch := rfl
@[simp] theorem State.updFibre_rounds (s : State) (f : Fibre → Fibre) : (s.updFibre f).rounds = s.rounds := rfl
@[simp] theorem State.updFibre_farSlots (s : State) (f : Fibre → Fibre) : (s.updFibre f).farSlots = s.farSlots := rfl
@[simp] theorem State.updFibre_groups (s : State) (f : Fibre → Fibre) : (s.updFibre f).groups = s.groups := rfl
@[simp] theorem State.updFibre_farContribs (s : State) (f : Fibre → Fibre) : (s.updFibre f).farContribs = s.farContribs := rfl
@[simp] theorem State.updFibre_dieMon (s : State) (f : Fibre → Fibre) : (s.updFibre f).dieMon = s.dieMon := rfl
@[simp] theorem State.updFibre_leases (s : State) (f : Fibre → Fibre) : (s.updFibre f).leases = s.leases := rfl
@[simp] theorem State.updFibre_asks (s : State) (f : Fibre → Fibre) : (s.updFibre f).asks = s.asks := rfl
@[simp] theorem State.updFibre_draining (s : State) (f : Fibre → Fibre) : (s.updFibre f).draining = s.draining := rfl
@[simp] theorem State.updFibre_inLeases (s : State) (f : Fibre → Fibre) : (s.updFibre f).inLeases = s.inLeases := rfl
@[simp] theorem State.updFibre_inReqs (s : State) (f : Fibre → Fibre) : (s.updFibre f).inReqs = s.inReqs := rfl
@[simp] theorem State.updFibre_noticed (s : State) (f : Fibre → Fibre) : (s.updFibre f).noticed = s.noticed := rfl
@[simp] theorem State.updFibre_device (s : State) (f : Fibre → Fibre) : (s.updFibre f).device = s.device := rfl
@[simp] theorem State.updFibre_excluded (s : State) (f : Fibre → Fibre) : (s.updFibre f).excluded = s.excluded := rfl
@[simp] theorem State.updFibre_routeEmpty (s : State) (f : Fibre → Fibre) : (s.updFibre f).routeEmpty = s.routeEmpty := rfl
@[simp] theorem State.updFibre_fencedFns (s : State) (f : Fibre → Fibre) : (s.updFibre f).fencedFns = s.fencedFns := rfl
@[simp] theorem State.updFibre_up (s : State) (f : Fibre → Fibre) : (s.updFibre f).up = s.up := rfl
@[simp] theorem State.updFibre_bootFailed (s : State) (f : Fibre → Fibre) : (s.updFibre f).bootFailed = s.bootFailed := rfl
@[simp] theorem State.updFibre_measured (s : State) (f : Fibre → Fibre) : (s.updFibre f).measured = s.measured := rfl
@[simp] theorem State.updFibre_form (s : State) (f : Fibre → Fibre) : (s.updFibre f).form = s.form := rfl
@[simp] theorem State.updFibre_sources (s : State) (f : Fibre → Fibre) : (s.updFibre f).sources = s.sources := rfl
@[simp] theorem State.updFibre_cap (s : State) (f : Fibre → Fibre) : (s.updFibre f).cap = s.cap := rfl
@[simp] theorem State.updFibre_warmAt (s : State) (f : Fibre → Fibre) : (s.updFibre f).warmAt = s.warmAt := rfl
@[simp] theorem State.updFibre_half (s : State) (f : Fibre → Fibre) : (s.updFibre f).half = s.half := rfl
@[simp] theorem State.updFibre_stepAt (s : State) (f : Fibre → Fibre) : (s.updFibre f).stepAt = s.stepAt := rfl
@[simp] theorem State.updFibre_sevenths (s : State) (f : Fibre → Fibre) : (s.updFibre f).sevenths = s.sevenths := rfl

/-! ## `putG` -/

@[simp] theorem State.putG_cur (s : State) (d : GReg) (v : Word) : (s.putG d v).cur = s.cur := rfl
@[simp] theorem State.putG_agenda (s : State) (d : GReg) (v : Word) : (s.putG d v).agenda = s.agenda := rfl
@[simp] theorem State.putG_now (s : State) (d : GReg) (v : Word) : (s.putG d v).now = s.now := rfl
@[simp] theorem State.putG_fresh (s : State) (d : GReg) (v : Word) : (s.putG d v).fresh = s.fresh := rfl
@[simp] theorem State.putG_nextId (s : State) (d : GReg) (v : Word) : (s.putG d v).nextId = s.nextId := rfl
@[simp] theorem State.putG_mem (s : State) (d : GReg) (v : Word) : (s.putG d v).mem = s.mem := rfl
@[simp] theorem State.putG_memPoison (s : State) (d : GReg) (v : Word) : (s.putG d v).memPoison = s.memPoison := rfl
@[simp] theorem State.putG_authors (s : State) (d : GReg) (v : Word) : (s.putG d v).authors = s.authors := rfl
@[simp] theorem State.putG_lines (s : State) (d : GReg) (v : Word) : (s.putG d v).lines = s.lines := rfl
@[simp] theorem State.putG_net (s : State) (d : GReg) (v : Word) : (s.putG d v).net = s.net := rfl
@[simp] theorem State.putG_torus (s : State) (d : GReg) (v : Word) : (s.putG d v).torus = s.torus := rfl
@[simp] theorem State.putG_dropReports (s : State) (d : GReg) (v : Word) : (s.putG d v).dropReports = s.dropReports := rfl
@[simp] theorem State.putG_fabricOut (s : State) (d : GReg) (v : Word) : (s.putG d v).fabricOut = s.fabricOut := rfl
@[simp] theorem State.putG_fabricKept (s : State) (d : GReg) (v : Word) : (s.putG d v).fabricKept = s.fabricKept := rfl
@[simp] theorem State.putG_fabricSeqOut (s : State) (d : GReg) (v : Word) : (s.putG d v).fabricSeqOut = s.fabricSeqOut := rfl
@[simp] theorem State.putG_fabricSeqIn (s : State) (d : GReg) (v : Word) : (s.putG d v).fabricSeqIn = s.fabricSeqIn := rfl
@[simp] theorem State.putG_fabricIn (s : State) (d : GReg) (v : Word) : (s.putG d v).fabricIn = s.fabricIn := rfl
@[simp] theorem State.putG_inbox (s : State) (d : GReg) (v : Word) : (s.putG d v).inbox = s.inbox := rfl
@[simp] theorem State.putG_recalls (s : State) (d : GReg) (v : Word) : (s.putG d v).recalls = s.recalls := rfl
@[simp] theorem State.putG_hostOut (s : State) (d : GReg) (v : Word) : (s.putG d v).hostOut = s.hostOut := rfl
@[simp] theorem State.putG_unacked (s : State) (d : GReg) (v : Word) : (s.putG d v).unacked = s.unacked := rfl
@[simp] theorem State.putG_sessions (s : State) (d : GReg) (v : Word) : (s.putG d v).sessions = s.sessions := rfl
@[simp] theorem State.putG_opens (s : State) (d : GReg) (v : Word) : (s.putG d v).opens = s.opens := rfl
@[simp] theorem State.putG_winOps (s : State) (d : GReg) (v : Word) : (s.putG d v).winOps = s.winOps := rfl
@[simp] theorem State.putG_tlbs (s : State) (d : GReg) (v : Word) : (s.putG d v).tlbs = s.tlbs := rfl
@[simp] theorem State.putG_invs (s : State) (d : GReg) (v : Word) : (s.putG d v).invs = s.invs := rfl
@[simp] theorem State.putG_queues (s : State) (d : GReg) (v : Word) : (s.putG d v).queues = s.queues := rfl
@[simp] theorem State.putG_works (s : State) (d : GReg) (v : Word) : (s.putG d v).works = s.works := rfl
@[simp] theorem State.putG_phases (s : State) (d : GReg) (v : Word) : (s.putG d v).phases = s.phases := rfl
@[simp] theorem State.putG_drainFor (s : State) (d : GReg) (v : Word) : (s.putG d v).drainFor = s.drainFor := rfl
@[simp] theorem State.putG_lastSlot (s : State) (d : GReg) (v : Word) : (s.putG d v).lastSlot = s.lastSlot := rfl
@[simp] theorem State.putG_jobs (s : State) (d : GReg) (v : Word) : (s.putG d v).jobs = s.jobs := rfl
@[simp] theorem State.putG_launches (s : State) (d : GReg) (v : Word) : (s.putG d v).launches = s.launches := rfl
@[simp] theorem State.putG_routers (s : State) (d : GReg) (v : Word) : (s.putG d v).routers = s.routers := rfl
@[simp] theorem State.putG_exch (s : State) (d : GReg) (v : Word) : (s.putG d v).exch = s.exch := rfl
@[simp] theorem State.putG_rounds (s : State) (d : GReg) (v : Word) : (s.putG d v).rounds = s.rounds := rfl
@[simp] theorem State.putG_farSlots (s : State) (d : GReg) (v : Word) : (s.putG d v).farSlots = s.farSlots := rfl
@[simp] theorem State.putG_groups (s : State) (d : GReg) (v : Word) : (s.putG d v).groups = s.groups := rfl
@[simp] theorem State.putG_farContribs (s : State) (d : GReg) (v : Word) : (s.putG d v).farContribs = s.farContribs := rfl
@[simp] theorem State.putG_dieMon (s : State) (d : GReg) (v : Word) : (s.putG d v).dieMon = s.dieMon := rfl
@[simp] theorem State.putG_leases (s : State) (d : GReg) (v : Word) : (s.putG d v).leases = s.leases := rfl
@[simp] theorem State.putG_asks (s : State) (d : GReg) (v : Word) : (s.putG d v).asks = s.asks := rfl
@[simp] theorem State.putG_draining (s : State) (d : GReg) (v : Word) : (s.putG d v).draining = s.draining := rfl
@[simp] theorem State.putG_inLeases (s : State) (d : GReg) (v : Word) : (s.putG d v).inLeases = s.inLeases := rfl
@[simp] theorem State.putG_inReqs (s : State) (d : GReg) (v : Word) : (s.putG d v).inReqs = s.inReqs := rfl
@[simp] theorem State.putG_noticed (s : State) (d : GReg) (v : Word) : (s.putG d v).noticed = s.noticed := rfl
@[simp] theorem State.putG_device (s : State) (d : GReg) (v : Word) : (s.putG d v).device = s.device := rfl
@[simp] theorem State.putG_excluded (s : State) (d : GReg) (v : Word) : (s.putG d v).excluded = s.excluded := rfl
@[simp] theorem State.putG_routeEmpty (s : State) (d : GReg) (v : Word) : (s.putG d v).routeEmpty = s.routeEmpty := rfl
@[simp] theorem State.putG_fencedFns (s : State) (d : GReg) (v : Word) : (s.putG d v).fencedFns = s.fencedFns := rfl
@[simp] theorem State.putG_up (s : State) (d : GReg) (v : Word) : (s.putG d v).up = s.up := rfl
@[simp] theorem State.putG_bootFailed (s : State) (d : GReg) (v : Word) : (s.putG d v).bootFailed = s.bootFailed := rfl
@[simp] theorem State.putG_measured (s : State) (d : GReg) (v : Word) : (s.putG d v).measured = s.measured := rfl
@[simp] theorem State.putG_form (s : State) (d : GReg) (v : Word) : (s.putG d v).form = s.form := rfl
@[simp] theorem State.putG_sources (s : State) (d : GReg) (v : Word) : (s.putG d v).sources = s.sources := rfl
@[simp] theorem State.putG_cap (s : State) (d : GReg) (v : Word) : (s.putG d v).cap = s.cap := rfl
@[simp] theorem State.putG_warmAt (s : State) (d : GReg) (v : Word) : (s.putG d v).warmAt = s.warmAt := rfl
@[simp] theorem State.putG_half (s : State) (d : GReg) (v : Word) : (s.putG d v).half = s.half := rfl
@[simp] theorem State.putG_stepAt (s : State) (d : GReg) (v : Word) : (s.putG d v).stepAt = s.stepAt := rfl
@[simp] theorem State.putG_sevenths (s : State) (d : GReg) (v : Word) : (s.putG d v).sevenths = s.sevenths := rfl

/-! ## `finish` -/

@[simp] theorem State.finish_cur (s : State) (len lat : Nat) : (s.finish len lat).cur = s.cur := rfl
@[simp] theorem State.finish_agenda (s : State) (len lat : Nat) : (s.finish len lat).agenda = s.agenda := rfl
@[simp] theorem State.finish_now (s : State) (len lat : Nat) : (s.finish len lat).now = s.now := rfl
@[simp] theorem State.finish_fresh (s : State) (len lat : Nat) : (s.finish len lat).fresh = s.fresh := rfl
@[simp] theorem State.finish_nextId (s : State) (len lat : Nat) : (s.finish len lat).nextId = s.nextId := rfl
@[simp] theorem State.finish_mem (s : State) (len lat : Nat) : (s.finish len lat).mem = s.mem := rfl
@[simp] theorem State.finish_memPoison (s : State) (len lat : Nat) : (s.finish len lat).memPoison = s.memPoison := rfl
@[simp] theorem State.finish_authors (s : State) (len lat : Nat) : (s.finish len lat).authors = s.authors := rfl
@[simp] theorem State.finish_lines (s : State) (len lat : Nat) : (s.finish len lat).lines = s.lines := rfl
@[simp] theorem State.finish_net (s : State) (len lat : Nat) : (s.finish len lat).net = s.net := rfl
@[simp] theorem State.finish_torus (s : State) (len lat : Nat) : (s.finish len lat).torus = s.torus := rfl
@[simp] theorem State.finish_dropReports (s : State) (len lat : Nat) : (s.finish len lat).dropReports = s.dropReports := rfl
@[simp] theorem State.finish_fabricOut (s : State) (len lat : Nat) : (s.finish len lat).fabricOut = s.fabricOut := rfl
@[simp] theorem State.finish_fabricKept (s : State) (len lat : Nat) : (s.finish len lat).fabricKept = s.fabricKept := rfl
@[simp] theorem State.finish_fabricSeqOut (s : State) (len lat : Nat) : (s.finish len lat).fabricSeqOut = s.fabricSeqOut := rfl
@[simp] theorem State.finish_fabricSeqIn (s : State) (len lat : Nat) : (s.finish len lat).fabricSeqIn = s.fabricSeqIn := rfl
@[simp] theorem State.finish_fabricIn (s : State) (len lat : Nat) : (s.finish len lat).fabricIn = s.fabricIn := rfl
@[simp] theorem State.finish_inbox (s : State) (len lat : Nat) : (s.finish len lat).inbox = s.inbox := rfl
@[simp] theorem State.finish_recalls (s : State) (len lat : Nat) : (s.finish len lat).recalls = s.recalls := rfl
@[simp] theorem State.finish_hostOut (s : State) (len lat : Nat) : (s.finish len lat).hostOut = s.hostOut := rfl
@[simp] theorem State.finish_unacked (s : State) (len lat : Nat) : (s.finish len lat).unacked = s.unacked := rfl
@[simp] theorem State.finish_sessions (s : State) (len lat : Nat) : (s.finish len lat).sessions = s.sessions := rfl
@[simp] theorem State.finish_opens (s : State) (len lat : Nat) : (s.finish len lat).opens = s.opens := rfl
@[simp] theorem State.finish_winOps (s : State) (len lat : Nat) : (s.finish len lat).winOps = s.winOps := rfl
@[simp] theorem State.finish_tlbs (s : State) (len lat : Nat) : (s.finish len lat).tlbs = s.tlbs := rfl
@[simp] theorem State.finish_invs (s : State) (len lat : Nat) : (s.finish len lat).invs = s.invs := rfl
@[simp] theorem State.finish_queues (s : State) (len lat : Nat) : (s.finish len lat).queues = s.queues := rfl
@[simp] theorem State.finish_works (s : State) (len lat : Nat) : (s.finish len lat).works = s.works := rfl
@[simp] theorem State.finish_phases (s : State) (len lat : Nat) : (s.finish len lat).phases = s.phases := rfl
@[simp] theorem State.finish_drainFor (s : State) (len lat : Nat) : (s.finish len lat).drainFor = s.drainFor := rfl
@[simp] theorem State.finish_lastSlot (s : State) (len lat : Nat) : (s.finish len lat).lastSlot = s.lastSlot := rfl
@[simp] theorem State.finish_jobs (s : State) (len lat : Nat) : (s.finish len lat).jobs = s.jobs := rfl
@[simp] theorem State.finish_launches (s : State) (len lat : Nat) : (s.finish len lat).launches = s.launches := rfl
@[simp] theorem State.finish_routers (s : State) (len lat : Nat) : (s.finish len lat).routers = s.routers := rfl
@[simp] theorem State.finish_exch (s : State) (len lat : Nat) : (s.finish len lat).exch = s.exch := rfl
@[simp] theorem State.finish_rounds (s : State) (len lat : Nat) : (s.finish len lat).rounds = s.rounds := rfl
@[simp] theorem State.finish_farSlots (s : State) (len lat : Nat) : (s.finish len lat).farSlots = s.farSlots := rfl
@[simp] theorem State.finish_groups (s : State) (len lat : Nat) : (s.finish len lat).groups = s.groups := rfl
@[simp] theorem State.finish_farContribs (s : State) (len lat : Nat) : (s.finish len lat).farContribs = s.farContribs := rfl
@[simp] theorem State.finish_dieMon (s : State) (len lat : Nat) : (s.finish len lat).dieMon = s.dieMon := rfl
@[simp] theorem State.finish_leases (s : State) (len lat : Nat) : (s.finish len lat).leases = s.leases := rfl
@[simp] theorem State.finish_asks (s : State) (len lat : Nat) : (s.finish len lat).asks = s.asks := rfl
@[simp] theorem State.finish_draining (s : State) (len lat : Nat) : (s.finish len lat).draining = s.draining := rfl
@[simp] theorem State.finish_inLeases (s : State) (len lat : Nat) : (s.finish len lat).inLeases = s.inLeases := rfl
@[simp] theorem State.finish_inReqs (s : State) (len lat : Nat) : (s.finish len lat).inReqs = s.inReqs := rfl
@[simp] theorem State.finish_noticed (s : State) (len lat : Nat) : (s.finish len lat).noticed = s.noticed := rfl
@[simp] theorem State.finish_device (s : State) (len lat : Nat) : (s.finish len lat).device = s.device := rfl
@[simp] theorem State.finish_excluded (s : State) (len lat : Nat) : (s.finish len lat).excluded = s.excluded := rfl
@[simp] theorem State.finish_routeEmpty (s : State) (len lat : Nat) : (s.finish len lat).routeEmpty = s.routeEmpty := rfl
@[simp] theorem State.finish_fencedFns (s : State) (len lat : Nat) : (s.finish len lat).fencedFns = s.fencedFns := rfl
@[simp] theorem State.finish_up (s : State) (len lat : Nat) : (s.finish len lat).up = s.up := rfl
@[simp] theorem State.finish_bootFailed (s : State) (len lat : Nat) : (s.finish len lat).bootFailed = s.bootFailed := rfl
@[simp] theorem State.finish_measured (s : State) (len lat : Nat) : (s.finish len lat).measured = s.measured := rfl
@[simp] theorem State.finish_form (s : State) (len lat : Nat) : (s.finish len lat).form = s.form := rfl
@[simp] theorem State.finish_sources (s : State) (len lat : Nat) : (s.finish len lat).sources = s.sources := rfl
@[simp] theorem State.finish_cap (s : State) (len lat : Nat) : (s.finish len lat).cap = s.cap := rfl
@[simp] theorem State.finish_warmAt (s : State) (len lat : Nat) : (s.finish len lat).warmAt = s.warmAt := rfl
@[simp] theorem State.finish_half (s : State) (len lat : Nat) : (s.finish len lat).half = s.half := rfl
@[simp] theorem State.finish_stepAt (s : State) (len lat : Nat) : (s.finish len lat).stepAt = s.stepAt := rfl
@[simp] theorem State.finish_sevenths (s : State) (len lat : Nat) : (s.finish len lat).sevenths = s.sevenths := rfl

/-! ## `writeRd` -/

@[simp] theorem State.writeRd_cur (s : State) (d : GReg) (v : Word) (len lat : Nat) : (s.writeRd d v len lat).cur = s.cur := rfl
@[simp] theorem State.writeRd_agenda (s : State) (d : GReg) (v : Word) (len lat : Nat) : (s.writeRd d v len lat).agenda = s.agenda := rfl
@[simp] theorem State.writeRd_now (s : State) (d : GReg) (v : Word) (len lat : Nat) : (s.writeRd d v len lat).now = s.now := rfl
@[simp] theorem State.writeRd_fresh (s : State) (d : GReg) (v : Word) (len lat : Nat) : (s.writeRd d v len lat).fresh = s.fresh := rfl
@[simp] theorem State.writeRd_nextId (s : State) (d : GReg) (v : Word) (len lat : Nat) : (s.writeRd d v len lat).nextId = s.nextId := rfl
@[simp] theorem State.writeRd_mem (s : State) (d : GReg) (v : Word) (len lat : Nat) : (s.writeRd d v len lat).mem = s.mem := rfl
@[simp] theorem State.writeRd_memPoison (s : State) (d : GReg) (v : Word) (len lat : Nat) : (s.writeRd d v len lat).memPoison = s.memPoison := rfl
@[simp] theorem State.writeRd_authors (s : State) (d : GReg) (v : Word) (len lat : Nat) : (s.writeRd d v len lat).authors = s.authors := rfl
@[simp] theorem State.writeRd_lines (s : State) (d : GReg) (v : Word) (len lat : Nat) : (s.writeRd d v len lat).lines = s.lines := rfl
@[simp] theorem State.writeRd_net (s : State) (d : GReg) (v : Word) (len lat : Nat) : (s.writeRd d v len lat).net = s.net := rfl
@[simp] theorem State.writeRd_torus (s : State) (d : GReg) (v : Word) (len lat : Nat) : (s.writeRd d v len lat).torus = s.torus := rfl
@[simp] theorem State.writeRd_dropReports (s : State) (d : GReg) (v : Word) (len lat : Nat) : (s.writeRd d v len lat).dropReports = s.dropReports := rfl
@[simp] theorem State.writeRd_fabricOut (s : State) (d : GReg) (v : Word) (len lat : Nat) : (s.writeRd d v len lat).fabricOut = s.fabricOut := rfl
@[simp] theorem State.writeRd_fabricKept (s : State) (d : GReg) (v : Word) (len lat : Nat) : (s.writeRd d v len lat).fabricKept = s.fabricKept := rfl
@[simp] theorem State.writeRd_fabricSeqOut (s : State) (d : GReg) (v : Word) (len lat : Nat) : (s.writeRd d v len lat).fabricSeqOut = s.fabricSeqOut := rfl
@[simp] theorem State.writeRd_fabricSeqIn (s : State) (d : GReg) (v : Word) (len lat : Nat) : (s.writeRd d v len lat).fabricSeqIn = s.fabricSeqIn := rfl
@[simp] theorem State.writeRd_fabricIn (s : State) (d : GReg) (v : Word) (len lat : Nat) : (s.writeRd d v len lat).fabricIn = s.fabricIn := rfl
@[simp] theorem State.writeRd_inbox (s : State) (d : GReg) (v : Word) (len lat : Nat) : (s.writeRd d v len lat).inbox = s.inbox := rfl
@[simp] theorem State.writeRd_recalls (s : State) (d : GReg) (v : Word) (len lat : Nat) : (s.writeRd d v len lat).recalls = s.recalls := rfl
@[simp] theorem State.writeRd_hostOut (s : State) (d : GReg) (v : Word) (len lat : Nat) : (s.writeRd d v len lat).hostOut = s.hostOut := rfl
@[simp] theorem State.writeRd_unacked (s : State) (d : GReg) (v : Word) (len lat : Nat) : (s.writeRd d v len lat).unacked = s.unacked := rfl
@[simp] theorem State.writeRd_sessions (s : State) (d : GReg) (v : Word) (len lat : Nat) : (s.writeRd d v len lat).sessions = s.sessions := rfl
@[simp] theorem State.writeRd_opens (s : State) (d : GReg) (v : Word) (len lat : Nat) : (s.writeRd d v len lat).opens = s.opens := rfl
@[simp] theorem State.writeRd_winOps (s : State) (d : GReg) (v : Word) (len lat : Nat) : (s.writeRd d v len lat).winOps = s.winOps := rfl
@[simp] theorem State.writeRd_tlbs (s : State) (d : GReg) (v : Word) (len lat : Nat) : (s.writeRd d v len lat).tlbs = s.tlbs := rfl
@[simp] theorem State.writeRd_invs (s : State) (d : GReg) (v : Word) (len lat : Nat) : (s.writeRd d v len lat).invs = s.invs := rfl
@[simp] theorem State.writeRd_queues (s : State) (d : GReg) (v : Word) (len lat : Nat) : (s.writeRd d v len lat).queues = s.queues := rfl
@[simp] theorem State.writeRd_works (s : State) (d : GReg) (v : Word) (len lat : Nat) : (s.writeRd d v len lat).works = s.works := rfl
@[simp] theorem State.writeRd_phases (s : State) (d : GReg) (v : Word) (len lat : Nat) : (s.writeRd d v len lat).phases = s.phases := rfl
@[simp] theorem State.writeRd_drainFor (s : State) (d : GReg) (v : Word) (len lat : Nat) : (s.writeRd d v len lat).drainFor = s.drainFor := rfl
@[simp] theorem State.writeRd_lastSlot (s : State) (d : GReg) (v : Word) (len lat : Nat) : (s.writeRd d v len lat).lastSlot = s.lastSlot := rfl
@[simp] theorem State.writeRd_jobs (s : State) (d : GReg) (v : Word) (len lat : Nat) : (s.writeRd d v len lat).jobs = s.jobs := rfl
@[simp] theorem State.writeRd_launches (s : State) (d : GReg) (v : Word) (len lat : Nat) : (s.writeRd d v len lat).launches = s.launches := rfl
@[simp] theorem State.writeRd_routers (s : State) (d : GReg) (v : Word) (len lat : Nat) : (s.writeRd d v len lat).routers = s.routers := rfl
@[simp] theorem State.writeRd_exch (s : State) (d : GReg) (v : Word) (len lat : Nat) : (s.writeRd d v len lat).exch = s.exch := rfl
@[simp] theorem State.writeRd_rounds (s : State) (d : GReg) (v : Word) (len lat : Nat) : (s.writeRd d v len lat).rounds = s.rounds := rfl
@[simp] theorem State.writeRd_farSlots (s : State) (d : GReg) (v : Word) (len lat : Nat) : (s.writeRd d v len lat).farSlots = s.farSlots := rfl
@[simp] theorem State.writeRd_groups (s : State) (d : GReg) (v : Word) (len lat : Nat) : (s.writeRd d v len lat).groups = s.groups := rfl
@[simp] theorem State.writeRd_farContribs (s : State) (d : GReg) (v : Word) (len lat : Nat) : (s.writeRd d v len lat).farContribs = s.farContribs := rfl
@[simp] theorem State.writeRd_dieMon (s : State) (d : GReg) (v : Word) (len lat : Nat) : (s.writeRd d v len lat).dieMon = s.dieMon := rfl
@[simp] theorem State.writeRd_leases (s : State) (d : GReg) (v : Word) (len lat : Nat) : (s.writeRd d v len lat).leases = s.leases := rfl
@[simp] theorem State.writeRd_asks (s : State) (d : GReg) (v : Word) (len lat : Nat) : (s.writeRd d v len lat).asks = s.asks := rfl
@[simp] theorem State.writeRd_draining (s : State) (d : GReg) (v : Word) (len lat : Nat) : (s.writeRd d v len lat).draining = s.draining := rfl
@[simp] theorem State.writeRd_inLeases (s : State) (d : GReg) (v : Word) (len lat : Nat) : (s.writeRd d v len lat).inLeases = s.inLeases := rfl
@[simp] theorem State.writeRd_inReqs (s : State) (d : GReg) (v : Word) (len lat : Nat) : (s.writeRd d v len lat).inReqs = s.inReqs := rfl
@[simp] theorem State.writeRd_noticed (s : State) (d : GReg) (v : Word) (len lat : Nat) : (s.writeRd d v len lat).noticed = s.noticed := rfl
@[simp] theorem State.writeRd_device (s : State) (d : GReg) (v : Word) (len lat : Nat) : (s.writeRd d v len lat).device = s.device := rfl
@[simp] theorem State.writeRd_excluded (s : State) (d : GReg) (v : Word) (len lat : Nat) : (s.writeRd d v len lat).excluded = s.excluded := rfl
@[simp] theorem State.writeRd_routeEmpty (s : State) (d : GReg) (v : Word) (len lat : Nat) : (s.writeRd d v len lat).routeEmpty = s.routeEmpty := rfl
@[simp] theorem State.writeRd_fencedFns (s : State) (d : GReg) (v : Word) (len lat : Nat) : (s.writeRd d v len lat).fencedFns = s.fencedFns := rfl
@[simp] theorem State.writeRd_up (s : State) (d : GReg) (v : Word) (len lat : Nat) : (s.writeRd d v len lat).up = s.up := rfl
@[simp] theorem State.writeRd_bootFailed (s : State) (d : GReg) (v : Word) (len lat : Nat) : (s.writeRd d v len lat).bootFailed = s.bootFailed := rfl
@[simp] theorem State.writeRd_measured (s : State) (d : GReg) (v : Word) (len lat : Nat) : (s.writeRd d v len lat).measured = s.measured := rfl
@[simp] theorem State.writeRd_form (s : State) (d : GReg) (v : Word) (len lat : Nat) : (s.writeRd d v len lat).form = s.form := rfl
@[simp] theorem State.writeRd_sources (s : State) (d : GReg) (v : Word) (len lat : Nat) : (s.writeRd d v len lat).sources = s.sources := rfl
@[simp] theorem State.writeRd_cap (s : State) (d : GReg) (v : Word) (len lat : Nat) : (s.writeRd d v len lat).cap = s.cap := rfl
@[simp] theorem State.writeRd_warmAt (s : State) (d : GReg) (v : Word) (len lat : Nat) : (s.writeRd d v len lat).warmAt = s.warmAt := rfl
@[simp] theorem State.writeRd_half (s : State) (d : GReg) (v : Word) (len lat : Nat) : (s.writeRd d v len lat).half = s.half := rfl
@[simp] theorem State.writeRd_stepAt (s : State) (d : GReg) (v : Word) (len lat : Nat) : (s.writeRd d v len lat).stepAt = s.stepAt := rfl
@[simp] theorem State.writeRd_sevenths (s : State) (d : GReg) (v : Word) (len lat : Nat) : (s.writeRd d v len lat).sevenths = s.sevenths := rfl

/-! ## `park` -/

@[simp] theorem State.park_cur (s : State) (p : Park) : (s.park p).cur = s.cur := rfl
@[simp] theorem State.park_agenda (s : State) (p : Park) : (s.park p).agenda = s.agenda := rfl
@[simp] theorem State.park_now (s : State) (p : Park) : (s.park p).now = s.now := rfl
@[simp] theorem State.park_fresh (s : State) (p : Park) : (s.park p).fresh = s.fresh := rfl
@[simp] theorem State.park_nextId (s : State) (p : Park) : (s.park p).nextId = s.nextId := rfl
@[simp] theorem State.park_mem (s : State) (p : Park) : (s.park p).mem = s.mem := rfl
@[simp] theorem State.park_memPoison (s : State) (p : Park) : (s.park p).memPoison = s.memPoison := rfl
@[simp] theorem State.park_authors (s : State) (p : Park) : (s.park p).authors = s.authors := rfl
@[simp] theorem State.park_lines (s : State) (p : Park) : (s.park p).lines = s.lines := rfl
@[simp] theorem State.park_net (s : State) (p : Park) : (s.park p).net = s.net := rfl
@[simp] theorem State.park_torus (s : State) (p : Park) : (s.park p).torus = s.torus := rfl
@[simp] theorem State.park_dropReports (s : State) (p : Park) : (s.park p).dropReports = s.dropReports := rfl
@[simp] theorem State.park_fabricOut (s : State) (p : Park) : (s.park p).fabricOut = s.fabricOut := rfl
@[simp] theorem State.park_fabricKept (s : State) (p : Park) : (s.park p).fabricKept = s.fabricKept := rfl
@[simp] theorem State.park_fabricSeqOut (s : State) (p : Park) : (s.park p).fabricSeqOut = s.fabricSeqOut := rfl
@[simp] theorem State.park_fabricSeqIn (s : State) (p : Park) : (s.park p).fabricSeqIn = s.fabricSeqIn := rfl
@[simp] theorem State.park_fabricIn (s : State) (p : Park) : (s.park p).fabricIn = s.fabricIn := rfl
@[simp] theorem State.park_inbox (s : State) (p : Park) : (s.park p).inbox = s.inbox := rfl
@[simp] theorem State.park_recalls (s : State) (p : Park) : (s.park p).recalls = s.recalls := rfl
@[simp] theorem State.park_hostOut (s : State) (p : Park) : (s.park p).hostOut = s.hostOut := rfl
@[simp] theorem State.park_unacked (s : State) (p : Park) : (s.park p).unacked = s.unacked := rfl
@[simp] theorem State.park_sessions (s : State) (p : Park) : (s.park p).sessions = s.sessions := rfl
@[simp] theorem State.park_opens (s : State) (p : Park) : (s.park p).opens = s.opens := rfl
@[simp] theorem State.park_winOps (s : State) (p : Park) : (s.park p).winOps = s.winOps := rfl
@[simp] theorem State.park_tlbs (s : State) (p : Park) : (s.park p).tlbs = s.tlbs := rfl
@[simp] theorem State.park_invs (s : State) (p : Park) : (s.park p).invs = s.invs := rfl
@[simp] theorem State.park_queues (s : State) (p : Park) : (s.park p).queues = s.queues := rfl
@[simp] theorem State.park_works (s : State) (p : Park) : (s.park p).works = s.works := rfl
@[simp] theorem State.park_phases (s : State) (p : Park) : (s.park p).phases = s.phases := rfl
@[simp] theorem State.park_drainFor (s : State) (p : Park) : (s.park p).drainFor = s.drainFor := rfl
@[simp] theorem State.park_lastSlot (s : State) (p : Park) : (s.park p).lastSlot = s.lastSlot := rfl
@[simp] theorem State.park_jobs (s : State) (p : Park) : (s.park p).jobs = s.jobs := rfl
@[simp] theorem State.park_launches (s : State) (p : Park) : (s.park p).launches = s.launches := rfl
@[simp] theorem State.park_routers (s : State) (p : Park) : (s.park p).routers = s.routers := rfl
@[simp] theorem State.park_exch (s : State) (p : Park) : (s.park p).exch = s.exch := rfl
@[simp] theorem State.park_rounds (s : State) (p : Park) : (s.park p).rounds = s.rounds := rfl
@[simp] theorem State.park_farSlots (s : State) (p : Park) : (s.park p).farSlots = s.farSlots := rfl
@[simp] theorem State.park_groups (s : State) (p : Park) : (s.park p).groups = s.groups := rfl
@[simp] theorem State.park_farContribs (s : State) (p : Park) : (s.park p).farContribs = s.farContribs := rfl
@[simp] theorem State.park_dieMon (s : State) (p : Park) : (s.park p).dieMon = s.dieMon := rfl
@[simp] theorem State.park_leases (s : State) (p : Park) : (s.park p).leases = s.leases := rfl
@[simp] theorem State.park_asks (s : State) (p : Park) : (s.park p).asks = s.asks := rfl
@[simp] theorem State.park_draining (s : State) (p : Park) : (s.park p).draining = s.draining := rfl
@[simp] theorem State.park_inLeases (s : State) (p : Park) : (s.park p).inLeases = s.inLeases := rfl
@[simp] theorem State.park_inReqs (s : State) (p : Park) : (s.park p).inReqs = s.inReqs := rfl
@[simp] theorem State.park_noticed (s : State) (p : Park) : (s.park p).noticed = s.noticed := rfl
@[simp] theorem State.park_device (s : State) (p : Park) : (s.park p).device = s.device := rfl
@[simp] theorem State.park_excluded (s : State) (p : Park) : (s.park p).excluded = s.excluded := rfl
@[simp] theorem State.park_routeEmpty (s : State) (p : Park) : (s.park p).routeEmpty = s.routeEmpty := rfl
@[simp] theorem State.park_fencedFns (s : State) (p : Park) : (s.park p).fencedFns = s.fencedFns := rfl
@[simp] theorem State.park_up (s : State) (p : Park) : (s.park p).up = s.up := rfl
@[simp] theorem State.park_bootFailed (s : State) (p : Park) : (s.park p).bootFailed = s.bootFailed := rfl
@[simp] theorem State.park_measured (s : State) (p : Park) : (s.park p).measured = s.measured := rfl
@[simp] theorem State.park_form (s : State) (p : Park) : (s.park p).form = s.form := rfl
@[simp] theorem State.park_sources (s : State) (p : Park) : (s.park p).sources = s.sources := rfl
@[simp] theorem State.park_cap (s : State) (p : Park) : (s.park p).cap = s.cap := rfl
@[simp] theorem State.park_warmAt (s : State) (p : Park) : (s.park p).warmAt = s.warmAt := rfl
@[simp] theorem State.park_half (s : State) (p : Park) : (s.park p).half = s.half := rfl
@[simp] theorem State.park_stepAt (s : State) (p : Park) : (s.park p).stepAt = s.stepAt := rfl
@[simp] theorem State.park_sevenths (s : State) (p : Park) : (s.park p).sevenths = s.sevenths := rfl

/-! ## `updEng` -/

@[simp] theorem State.updEng_cur (s : State) (f : Engine → Engine) : (s.updEng f).cur = s.cur := rfl
@[simp] theorem State.updEng_agenda (s : State) (f : Engine → Engine) : (s.updEng f).agenda = s.agenda := rfl
@[simp] theorem State.updEng_now (s : State) (f : Engine → Engine) : (s.updEng f).now = s.now := rfl
@[simp] theorem State.updEng_fresh (s : State) (f : Engine → Engine) : (s.updEng f).fresh = s.fresh := rfl
@[simp] theorem State.updEng_nextId (s : State) (f : Engine → Engine) : (s.updEng f).nextId = s.nextId := rfl
@[simp] theorem State.updEng_mem (s : State) (f : Engine → Engine) : (s.updEng f).mem = s.mem := rfl
@[simp] theorem State.updEng_memPoison (s : State) (f : Engine → Engine) : (s.updEng f).memPoison = s.memPoison := rfl
@[simp] theorem State.updEng_authors (s : State) (f : Engine → Engine) : (s.updEng f).authors = s.authors := rfl
@[simp] theorem State.updEng_lines (s : State) (f : Engine → Engine) : (s.updEng f).lines = s.lines := rfl
@[simp] theorem State.updEng_net (s : State) (f : Engine → Engine) : (s.updEng f).net = s.net := rfl
@[simp] theorem State.updEng_torus (s : State) (f : Engine → Engine) : (s.updEng f).torus = s.torus := rfl
@[simp] theorem State.updEng_dropReports (s : State) (f : Engine → Engine) : (s.updEng f).dropReports = s.dropReports := rfl
@[simp] theorem State.updEng_fabricOut (s : State) (f : Engine → Engine) : (s.updEng f).fabricOut = s.fabricOut := rfl
@[simp] theorem State.updEng_fabricKept (s : State) (f : Engine → Engine) : (s.updEng f).fabricKept = s.fabricKept := rfl
@[simp] theorem State.updEng_fabricSeqOut (s : State) (f : Engine → Engine) : (s.updEng f).fabricSeqOut = s.fabricSeqOut := rfl
@[simp] theorem State.updEng_fabricSeqIn (s : State) (f : Engine → Engine) : (s.updEng f).fabricSeqIn = s.fabricSeqIn := rfl
@[simp] theorem State.updEng_fabricIn (s : State) (f : Engine → Engine) : (s.updEng f).fabricIn = s.fabricIn := rfl
@[simp] theorem State.updEng_inbox (s : State) (f : Engine → Engine) : (s.updEng f).inbox = s.inbox := rfl
@[simp] theorem State.updEng_recalls (s : State) (f : Engine → Engine) : (s.updEng f).recalls = s.recalls := rfl
@[simp] theorem State.updEng_hostOut (s : State) (f : Engine → Engine) : (s.updEng f).hostOut = s.hostOut := rfl
@[simp] theorem State.updEng_unacked (s : State) (f : Engine → Engine) : (s.updEng f).unacked = s.unacked := rfl
@[simp] theorem State.updEng_sessions (s : State) (f : Engine → Engine) : (s.updEng f).sessions = s.sessions := rfl
@[simp] theorem State.updEng_opens (s : State) (f : Engine → Engine) : (s.updEng f).opens = s.opens := rfl
@[simp] theorem State.updEng_winOps (s : State) (f : Engine → Engine) : (s.updEng f).winOps = s.winOps := rfl
@[simp] theorem State.updEng_tlbs (s : State) (f : Engine → Engine) : (s.updEng f).tlbs = s.tlbs := rfl
@[simp] theorem State.updEng_invs (s : State) (f : Engine → Engine) : (s.updEng f).invs = s.invs := rfl
@[simp] theorem State.updEng_queues (s : State) (f : Engine → Engine) : (s.updEng f).queues = s.queues := rfl
@[simp] theorem State.updEng_works (s : State) (f : Engine → Engine) : (s.updEng f).works = s.works := rfl
@[simp] theorem State.updEng_phases (s : State) (f : Engine → Engine) : (s.updEng f).phases = s.phases := rfl
@[simp] theorem State.updEng_drainFor (s : State) (f : Engine → Engine) : (s.updEng f).drainFor = s.drainFor := rfl
@[simp] theorem State.updEng_lastSlot (s : State) (f : Engine → Engine) : (s.updEng f).lastSlot = s.lastSlot := rfl
@[simp] theorem State.updEng_jobs (s : State) (f : Engine → Engine) : (s.updEng f).jobs = s.jobs := rfl
@[simp] theorem State.updEng_launches (s : State) (f : Engine → Engine) : (s.updEng f).launches = s.launches := rfl
@[simp] theorem State.updEng_routers (s : State) (f : Engine → Engine) : (s.updEng f).routers = s.routers := rfl
@[simp] theorem State.updEng_exch (s : State) (f : Engine → Engine) : (s.updEng f).exch = s.exch := rfl
@[simp] theorem State.updEng_rounds (s : State) (f : Engine → Engine) : (s.updEng f).rounds = s.rounds := rfl
@[simp] theorem State.updEng_farSlots (s : State) (f : Engine → Engine) : (s.updEng f).farSlots = s.farSlots := rfl
@[simp] theorem State.updEng_groups (s : State) (f : Engine → Engine) : (s.updEng f).groups = s.groups := rfl
@[simp] theorem State.updEng_farContribs (s : State) (f : Engine → Engine) : (s.updEng f).farContribs = s.farContribs := rfl
@[simp] theorem State.updEng_dieMon (s : State) (f : Engine → Engine) : (s.updEng f).dieMon = s.dieMon := rfl
@[simp] theorem State.updEng_leases (s : State) (f : Engine → Engine) : (s.updEng f).leases = s.leases := rfl
@[simp] theorem State.updEng_asks (s : State) (f : Engine → Engine) : (s.updEng f).asks = s.asks := rfl
@[simp] theorem State.updEng_draining (s : State) (f : Engine → Engine) : (s.updEng f).draining = s.draining := rfl
@[simp] theorem State.updEng_inLeases (s : State) (f : Engine → Engine) : (s.updEng f).inLeases = s.inLeases := rfl
@[simp] theorem State.updEng_inReqs (s : State) (f : Engine → Engine) : (s.updEng f).inReqs = s.inReqs := rfl
@[simp] theorem State.updEng_noticed (s : State) (f : Engine → Engine) : (s.updEng f).noticed = s.noticed := rfl
@[simp] theorem State.updEng_device (s : State) (f : Engine → Engine) : (s.updEng f).device = s.device := rfl
@[simp] theorem State.updEng_excluded (s : State) (f : Engine → Engine) : (s.updEng f).excluded = s.excluded := rfl
@[simp] theorem State.updEng_routeEmpty (s : State) (f : Engine → Engine) : (s.updEng f).routeEmpty = s.routeEmpty := rfl
@[simp] theorem State.updEng_fencedFns (s : State) (f : Engine → Engine) : (s.updEng f).fencedFns = s.fencedFns := rfl
@[simp] theorem State.updEng_up (s : State) (f : Engine → Engine) : (s.updEng f).up = s.up := rfl
@[simp] theorem State.updEng_bootFailed (s : State) (f : Engine → Engine) : (s.updEng f).bootFailed = s.bootFailed := rfl
@[simp] theorem State.updEng_measured (s : State) (f : Engine → Engine) : (s.updEng f).measured = s.measured := rfl
@[simp] theorem State.updEng_form (s : State) (f : Engine → Engine) : (s.updEng f).form = s.form := rfl
@[simp] theorem State.updEng_sources (s : State) (f : Engine → Engine) : (s.updEng f).sources = s.sources := rfl
@[simp] theorem State.updEng_cap (s : State) (f : Engine → Engine) : (s.updEng f).cap = s.cap := rfl
@[simp] theorem State.updEng_warmAt (s : State) (f : Engine → Engine) : (s.updEng f).warmAt = s.warmAt := rfl
@[simp] theorem State.updEng_half (s : State) (f : Engine → Engine) : (s.updEng f).half = s.half := rfl
@[simp] theorem State.updEng_stepAt (s : State) (f : Engine → Engine) : (s.updEng f).stepAt = s.stepAt := rfl
@[simp] theorem State.updEng_sevenths (s : State) (f : Engine → Engine) : (s.updEng f).sevenths = s.sevenths := rfl

/-! ## `updLaunch` -/

@[simp] theorem State.updLaunch_cur (s : State) (l : Nat) (f : Launch → Launch) : (s.updLaunch l f).cur = s.cur := rfl
@[simp] theorem State.updLaunch_agenda (s : State) (l : Nat) (f : Launch → Launch) : (s.updLaunch l f).agenda = s.agenda := rfl
@[simp] theorem State.updLaunch_now (s : State) (l : Nat) (f : Launch → Launch) : (s.updLaunch l f).now = s.now := rfl
@[simp] theorem State.updLaunch_fresh (s : State) (l : Nat) (f : Launch → Launch) : (s.updLaunch l f).fresh = s.fresh := rfl
@[simp] theorem State.updLaunch_nextId (s : State) (l : Nat) (f : Launch → Launch) : (s.updLaunch l f).nextId = s.nextId := rfl
@[simp] theorem State.updLaunch_cells (s : State) (l : Nat) (f : Launch → Launch) : (s.updLaunch l f).cells = s.cells := rfl
@[simp] theorem State.updLaunch_mem (s : State) (l : Nat) (f : Launch → Launch) : (s.updLaunch l f).mem = s.mem := rfl
@[simp] theorem State.updLaunch_memPoison (s : State) (l : Nat) (f : Launch → Launch) : (s.updLaunch l f).memPoison = s.memPoison := rfl
@[simp] theorem State.updLaunch_authors (s : State) (l : Nat) (f : Launch → Launch) : (s.updLaunch l f).authors = s.authors := rfl
@[simp] theorem State.updLaunch_lines (s : State) (l : Nat) (f : Launch → Launch) : (s.updLaunch l f).lines = s.lines := rfl
@[simp] theorem State.updLaunch_net (s : State) (l : Nat) (f : Launch → Launch) : (s.updLaunch l f).net = s.net := rfl
@[simp] theorem State.updLaunch_torus (s : State) (l : Nat) (f : Launch → Launch) : (s.updLaunch l f).torus = s.torus := rfl
@[simp] theorem State.updLaunch_dropReports (s : State) (l : Nat) (f : Launch → Launch) : (s.updLaunch l f).dropReports = s.dropReports := rfl
@[simp] theorem State.updLaunch_fabricOut (s : State) (l : Nat) (f : Launch → Launch) : (s.updLaunch l f).fabricOut = s.fabricOut := rfl
@[simp] theorem State.updLaunch_fabricKept (s : State) (l : Nat) (f : Launch → Launch) : (s.updLaunch l f).fabricKept = s.fabricKept := rfl
@[simp] theorem State.updLaunch_fabricSeqOut (s : State) (l : Nat) (f : Launch → Launch) : (s.updLaunch l f).fabricSeqOut = s.fabricSeqOut := rfl
@[simp] theorem State.updLaunch_fabricSeqIn (s : State) (l : Nat) (f : Launch → Launch) : (s.updLaunch l f).fabricSeqIn = s.fabricSeqIn := rfl
@[simp] theorem State.updLaunch_fabricIn (s : State) (l : Nat) (f : Launch → Launch) : (s.updLaunch l f).fabricIn = s.fabricIn := rfl
@[simp] theorem State.updLaunch_inbox (s : State) (l : Nat) (f : Launch → Launch) : (s.updLaunch l f).inbox = s.inbox := rfl
@[simp] theorem State.updLaunch_recalls (s : State) (l : Nat) (f : Launch → Launch) : (s.updLaunch l f).recalls = s.recalls := rfl
@[simp] theorem State.updLaunch_hostOut (s : State) (l : Nat) (f : Launch → Launch) : (s.updLaunch l f).hostOut = s.hostOut := rfl
@[simp] theorem State.updLaunch_unacked (s : State) (l : Nat) (f : Launch → Launch) : (s.updLaunch l f).unacked = s.unacked := rfl
@[simp] theorem State.updLaunch_sessions (s : State) (l : Nat) (f : Launch → Launch) : (s.updLaunch l f).sessions = s.sessions := rfl
@[simp] theorem State.updLaunch_opens (s : State) (l : Nat) (f : Launch → Launch) : (s.updLaunch l f).opens = s.opens := rfl
@[simp] theorem State.updLaunch_winOps (s : State) (l : Nat) (f : Launch → Launch) : (s.updLaunch l f).winOps = s.winOps := rfl
@[simp] theorem State.updLaunch_tlbs (s : State) (l : Nat) (f : Launch → Launch) : (s.updLaunch l f).tlbs = s.tlbs := rfl
@[simp] theorem State.updLaunch_invs (s : State) (l : Nat) (f : Launch → Launch) : (s.updLaunch l f).invs = s.invs := rfl
@[simp] theorem State.updLaunch_queues (s : State) (l : Nat) (f : Launch → Launch) : (s.updLaunch l f).queues = s.queues := rfl
@[simp] theorem State.updLaunch_works (s : State) (l : Nat) (f : Launch → Launch) : (s.updLaunch l f).works = s.works := rfl
@[simp] theorem State.updLaunch_phases (s : State) (l : Nat) (f : Launch → Launch) : (s.updLaunch l f).phases = s.phases := rfl
@[simp] theorem State.updLaunch_drainFor (s : State) (l : Nat) (f : Launch → Launch) : (s.updLaunch l f).drainFor = s.drainFor := rfl
@[simp] theorem State.updLaunch_lastSlot (s : State) (l : Nat) (f : Launch → Launch) : (s.updLaunch l f).lastSlot = s.lastSlot := rfl
@[simp] theorem State.updLaunch_jobs (s : State) (l : Nat) (f : Launch → Launch) : (s.updLaunch l f).jobs = s.jobs := rfl
@[simp] theorem State.updLaunch_routers (s : State) (l : Nat) (f : Launch → Launch) : (s.updLaunch l f).routers = s.routers := rfl
@[simp] theorem State.updLaunch_exch (s : State) (l : Nat) (f : Launch → Launch) : (s.updLaunch l f).exch = s.exch := rfl
@[simp] theorem State.updLaunch_rounds (s : State) (l : Nat) (f : Launch → Launch) : (s.updLaunch l f).rounds = s.rounds := rfl
@[simp] theorem State.updLaunch_farSlots (s : State) (l : Nat) (f : Launch → Launch) : (s.updLaunch l f).farSlots = s.farSlots := rfl
@[simp] theorem State.updLaunch_groups (s : State) (l : Nat) (f : Launch → Launch) : (s.updLaunch l f).groups = s.groups := rfl
@[simp] theorem State.updLaunch_farContribs (s : State) (l : Nat) (f : Launch → Launch) : (s.updLaunch l f).farContribs = s.farContribs := rfl
@[simp] theorem State.updLaunch_dieMon (s : State) (l : Nat) (f : Launch → Launch) : (s.updLaunch l f).dieMon = s.dieMon := rfl
@[simp] theorem State.updLaunch_leases (s : State) (l : Nat) (f : Launch → Launch) : (s.updLaunch l f).leases = s.leases := rfl
@[simp] theorem State.updLaunch_asks (s : State) (l : Nat) (f : Launch → Launch) : (s.updLaunch l f).asks = s.asks := rfl
@[simp] theorem State.updLaunch_draining (s : State) (l : Nat) (f : Launch → Launch) : (s.updLaunch l f).draining = s.draining := rfl
@[simp] theorem State.updLaunch_inLeases (s : State) (l : Nat) (f : Launch → Launch) : (s.updLaunch l f).inLeases = s.inLeases := rfl
@[simp] theorem State.updLaunch_inReqs (s : State) (l : Nat) (f : Launch → Launch) : (s.updLaunch l f).inReqs = s.inReqs := rfl
@[simp] theorem State.updLaunch_noticed (s : State) (l : Nat) (f : Launch → Launch) : (s.updLaunch l f).noticed = s.noticed := rfl
@[simp] theorem State.updLaunch_device (s : State) (l : Nat) (f : Launch → Launch) : (s.updLaunch l f).device = s.device := rfl
@[simp] theorem State.updLaunch_excluded (s : State) (l : Nat) (f : Launch → Launch) : (s.updLaunch l f).excluded = s.excluded := rfl
@[simp] theorem State.updLaunch_routeEmpty (s : State) (l : Nat) (f : Launch → Launch) : (s.updLaunch l f).routeEmpty = s.routeEmpty := rfl
@[simp] theorem State.updLaunch_fencedFns (s : State) (l : Nat) (f : Launch → Launch) : (s.updLaunch l f).fencedFns = s.fencedFns := rfl
@[simp] theorem State.updLaunch_up (s : State) (l : Nat) (f : Launch → Launch) : (s.updLaunch l f).up = s.up := rfl
@[simp] theorem State.updLaunch_bootFailed (s : State) (l : Nat) (f : Launch → Launch) : (s.updLaunch l f).bootFailed = s.bootFailed := rfl
@[simp] theorem State.updLaunch_measured (s : State) (l : Nat) (f : Launch → Launch) : (s.updLaunch l f).measured = s.measured := rfl
@[simp] theorem State.updLaunch_form (s : State) (l : Nat) (f : Launch → Launch) : (s.updLaunch l f).form = s.form := rfl
@[simp] theorem State.updLaunch_sources (s : State) (l : Nat) (f : Launch → Launch) : (s.updLaunch l f).sources = s.sources := rfl
@[simp] theorem State.updLaunch_cap (s : State) (l : Nat) (f : Launch → Launch) : (s.updLaunch l f).cap = s.cap := rfl
@[simp] theorem State.updLaunch_warmAt (s : State) (l : Nat) (f : Launch → Launch) : (s.updLaunch l f).warmAt = s.warmAt := rfl
@[simp] theorem State.updLaunch_half (s : State) (l : Nat) (f : Launch → Launch) : (s.updLaunch l f).half = s.half := rfl
@[simp] theorem State.updLaunch_stepAt (s : State) (l : Nat) (f : Launch → Launch) : (s.updLaunch l f).stepAt = s.stepAt := rfl
@[simp] theorem State.updLaunch_sevenths (s : State) (l : Nat) (f : Launch → Launch) : (s.updLaunch l f).sevenths = s.sevenths := rfl

/-! ## `newId` -/

@[simp] theorem State.newId_cur (s : State) : (s.newId).cur = s.cur := rfl
@[simp] theorem State.newId_agenda (s : State) : (s.newId).agenda = s.agenda := rfl
@[simp] theorem State.newId_now (s : State) : (s.newId).now = s.now := rfl
@[simp] theorem State.newId_fresh (s : State) : (s.newId).fresh = s.fresh := rfl
@[simp] theorem State.newId_cells (s : State) : (s.newId).cells = s.cells := rfl
@[simp] theorem State.newId_mem (s : State) : (s.newId).mem = s.mem := rfl
@[simp] theorem State.newId_memPoison (s : State) : (s.newId).memPoison = s.memPoison := rfl
@[simp] theorem State.newId_authors (s : State) : (s.newId).authors = s.authors := rfl
@[simp] theorem State.newId_lines (s : State) : (s.newId).lines = s.lines := rfl
@[simp] theorem State.newId_net (s : State) : (s.newId).net = s.net := rfl
@[simp] theorem State.newId_torus (s : State) : (s.newId).torus = s.torus := rfl
@[simp] theorem State.newId_dropReports (s : State) : (s.newId).dropReports = s.dropReports := rfl
@[simp] theorem State.newId_fabricOut (s : State) : (s.newId).fabricOut = s.fabricOut := rfl
@[simp] theorem State.newId_fabricKept (s : State) : (s.newId).fabricKept = s.fabricKept := rfl
@[simp] theorem State.newId_fabricSeqOut (s : State) : (s.newId).fabricSeqOut = s.fabricSeqOut := rfl
@[simp] theorem State.newId_fabricSeqIn (s : State) : (s.newId).fabricSeqIn = s.fabricSeqIn := rfl
@[simp] theorem State.newId_fabricIn (s : State) : (s.newId).fabricIn = s.fabricIn := rfl
@[simp] theorem State.newId_inbox (s : State) : (s.newId).inbox = s.inbox := rfl
@[simp] theorem State.newId_recalls (s : State) : (s.newId).recalls = s.recalls := rfl
@[simp] theorem State.newId_hostOut (s : State) : (s.newId).hostOut = s.hostOut := rfl
@[simp] theorem State.newId_unacked (s : State) : (s.newId).unacked = s.unacked := rfl
@[simp] theorem State.newId_sessions (s : State) : (s.newId).sessions = s.sessions := rfl
@[simp] theorem State.newId_opens (s : State) : (s.newId).opens = s.opens := rfl
@[simp] theorem State.newId_winOps (s : State) : (s.newId).winOps = s.winOps := rfl
@[simp] theorem State.newId_tlbs (s : State) : (s.newId).tlbs = s.tlbs := rfl
@[simp] theorem State.newId_invs (s : State) : (s.newId).invs = s.invs := rfl
@[simp] theorem State.newId_queues (s : State) : (s.newId).queues = s.queues := rfl
@[simp] theorem State.newId_works (s : State) : (s.newId).works = s.works := rfl
@[simp] theorem State.newId_phases (s : State) : (s.newId).phases = s.phases := rfl
@[simp] theorem State.newId_drainFor (s : State) : (s.newId).drainFor = s.drainFor := rfl
@[simp] theorem State.newId_lastSlot (s : State) : (s.newId).lastSlot = s.lastSlot := rfl
@[simp] theorem State.newId_jobs (s : State) : (s.newId).jobs = s.jobs := rfl
@[simp] theorem State.newId_launches (s : State) : (s.newId).launches = s.launches := rfl
@[simp] theorem State.newId_routers (s : State) : (s.newId).routers = s.routers := rfl
@[simp] theorem State.newId_exch (s : State) : (s.newId).exch = s.exch := rfl
@[simp] theorem State.newId_rounds (s : State) : (s.newId).rounds = s.rounds := rfl
@[simp] theorem State.newId_farSlots (s : State) : (s.newId).farSlots = s.farSlots := rfl
@[simp] theorem State.newId_groups (s : State) : (s.newId).groups = s.groups := rfl
@[simp] theorem State.newId_farContribs (s : State) : (s.newId).farContribs = s.farContribs := rfl
@[simp] theorem State.newId_dieMon (s : State) : (s.newId).dieMon = s.dieMon := rfl
@[simp] theorem State.newId_leases (s : State) : (s.newId).leases = s.leases := rfl
@[simp] theorem State.newId_asks (s : State) : (s.newId).asks = s.asks := rfl
@[simp] theorem State.newId_draining (s : State) : (s.newId).draining = s.draining := rfl
@[simp] theorem State.newId_inLeases (s : State) : (s.newId).inLeases = s.inLeases := rfl
@[simp] theorem State.newId_inReqs (s : State) : (s.newId).inReqs = s.inReqs := rfl
@[simp] theorem State.newId_noticed (s : State) : (s.newId).noticed = s.noticed := rfl
@[simp] theorem State.newId_device (s : State) : (s.newId).device = s.device := rfl
@[simp] theorem State.newId_excluded (s : State) : (s.newId).excluded = s.excluded := rfl
@[simp] theorem State.newId_routeEmpty (s : State) : (s.newId).routeEmpty = s.routeEmpty := rfl
@[simp] theorem State.newId_fencedFns (s : State) : (s.newId).fencedFns = s.fencedFns := rfl
@[simp] theorem State.newId_up (s : State) : (s.newId).up = s.up := rfl
@[simp] theorem State.newId_bootFailed (s : State) : (s.newId).bootFailed = s.bootFailed := rfl
@[simp] theorem State.newId_measured (s : State) : (s.newId).measured = s.measured := rfl
@[simp] theorem State.newId_form (s : State) : (s.newId).form = s.form := rfl
@[simp] theorem State.newId_sources (s : State) : (s.newId).sources = s.sources := rfl
@[simp] theorem State.newId_cap (s : State) : (s.newId).cap = s.cap := rfl
@[simp] theorem State.newId_warmAt (s : State) : (s.newId).warmAt = s.warmAt := rfl
@[simp] theorem State.newId_half (s : State) : (s.newId).half = s.half := rfl
@[simp] theorem State.newId_stepAt (s : State) : (s.newId).stepAt = s.stepAt := rfl
@[simp] theorem State.newId_sevenths (s : State) : (s.newId).sevenths = s.sevenths := rfl

/-! ## `claim` -/

@[simp] theorem State.claim_cur (s : State) (u : Option Nat) (pa n : Nat) : (s.claim u pa n).cur = s.cur := rfl
@[simp] theorem State.claim_agenda (s : State) (u : Option Nat) (pa n : Nat) : (s.claim u pa n).agenda = s.agenda := rfl
@[simp] theorem State.claim_now (s : State) (u : Option Nat) (pa n : Nat) : (s.claim u pa n).now = s.now := rfl
@[simp] theorem State.claim_fresh (s : State) (u : Option Nat) (pa n : Nat) : (s.claim u pa n).fresh = s.fresh := rfl
@[simp] theorem State.claim_nextId (s : State) (u : Option Nat) (pa n : Nat) : (s.claim u pa n).nextId = s.nextId := rfl
@[simp] theorem State.claim_cells (s : State) (u : Option Nat) (pa n : Nat) : (s.claim u pa n).cells = s.cells := rfl
@[simp] theorem State.claim_mem (s : State) (u : Option Nat) (pa n : Nat) : (s.claim u pa n).mem = s.mem := rfl
@[simp] theorem State.claim_memPoison (s : State) (u : Option Nat) (pa n : Nat) : (s.claim u pa n).memPoison = s.memPoison := rfl
@[simp] theorem State.claim_lines (s : State) (u : Option Nat) (pa n : Nat) : (s.claim u pa n).lines = s.lines := rfl
@[simp] theorem State.claim_net (s : State) (u : Option Nat) (pa n : Nat) : (s.claim u pa n).net = s.net := rfl
@[simp] theorem State.claim_torus (s : State) (u : Option Nat) (pa n : Nat) : (s.claim u pa n).torus = s.torus := rfl
@[simp] theorem State.claim_dropReports (s : State) (u : Option Nat) (pa n : Nat) : (s.claim u pa n).dropReports = s.dropReports := rfl
@[simp] theorem State.claim_fabricOut (s : State) (u : Option Nat) (pa n : Nat) : (s.claim u pa n).fabricOut = s.fabricOut := rfl
@[simp] theorem State.claim_fabricKept (s : State) (u : Option Nat) (pa n : Nat) : (s.claim u pa n).fabricKept = s.fabricKept := rfl
@[simp] theorem State.claim_fabricSeqOut (s : State) (u : Option Nat) (pa n : Nat) : (s.claim u pa n).fabricSeqOut = s.fabricSeqOut := rfl
@[simp] theorem State.claim_fabricSeqIn (s : State) (u : Option Nat) (pa n : Nat) : (s.claim u pa n).fabricSeqIn = s.fabricSeqIn := rfl
@[simp] theorem State.claim_fabricIn (s : State) (u : Option Nat) (pa n : Nat) : (s.claim u pa n).fabricIn = s.fabricIn := rfl
@[simp] theorem State.claim_inbox (s : State) (u : Option Nat) (pa n : Nat) : (s.claim u pa n).inbox = s.inbox := rfl
@[simp] theorem State.claim_recalls (s : State) (u : Option Nat) (pa n : Nat) : (s.claim u pa n).recalls = s.recalls := rfl
@[simp] theorem State.claim_hostOut (s : State) (u : Option Nat) (pa n : Nat) : (s.claim u pa n).hostOut = s.hostOut := rfl
@[simp] theorem State.claim_unacked (s : State) (u : Option Nat) (pa n : Nat) : (s.claim u pa n).unacked = s.unacked := rfl
@[simp] theorem State.claim_sessions (s : State) (u : Option Nat) (pa n : Nat) : (s.claim u pa n).sessions = s.sessions := rfl
@[simp] theorem State.claim_opens (s : State) (u : Option Nat) (pa n : Nat) : (s.claim u pa n).opens = s.opens := rfl
@[simp] theorem State.claim_winOps (s : State) (u : Option Nat) (pa n : Nat) : (s.claim u pa n).winOps = s.winOps := rfl
@[simp] theorem State.claim_tlbs (s : State) (u : Option Nat) (pa n : Nat) : (s.claim u pa n).tlbs = s.tlbs := rfl
@[simp] theorem State.claim_invs (s : State) (u : Option Nat) (pa n : Nat) : (s.claim u pa n).invs = s.invs := rfl
@[simp] theorem State.claim_queues (s : State) (u : Option Nat) (pa n : Nat) : (s.claim u pa n).queues = s.queues := rfl
@[simp] theorem State.claim_works (s : State) (u : Option Nat) (pa n : Nat) : (s.claim u pa n).works = s.works := rfl
@[simp] theorem State.claim_phases (s : State) (u : Option Nat) (pa n : Nat) : (s.claim u pa n).phases = s.phases := rfl
@[simp] theorem State.claim_drainFor (s : State) (u : Option Nat) (pa n : Nat) : (s.claim u pa n).drainFor = s.drainFor := rfl
@[simp] theorem State.claim_lastSlot (s : State) (u : Option Nat) (pa n : Nat) : (s.claim u pa n).lastSlot = s.lastSlot := rfl
@[simp] theorem State.claim_jobs (s : State) (u : Option Nat) (pa n : Nat) : (s.claim u pa n).jobs = s.jobs := rfl
@[simp] theorem State.claim_launches (s : State) (u : Option Nat) (pa n : Nat) : (s.claim u pa n).launches = s.launches := rfl
@[simp] theorem State.claim_routers (s : State) (u : Option Nat) (pa n : Nat) : (s.claim u pa n).routers = s.routers := rfl
@[simp] theorem State.claim_exch (s : State) (u : Option Nat) (pa n : Nat) : (s.claim u pa n).exch = s.exch := rfl
@[simp] theorem State.claim_rounds (s : State) (u : Option Nat) (pa n : Nat) : (s.claim u pa n).rounds = s.rounds := rfl
@[simp] theorem State.claim_farSlots (s : State) (u : Option Nat) (pa n : Nat) : (s.claim u pa n).farSlots = s.farSlots := rfl
@[simp] theorem State.claim_groups (s : State) (u : Option Nat) (pa n : Nat) : (s.claim u pa n).groups = s.groups := rfl
@[simp] theorem State.claim_farContribs (s : State) (u : Option Nat) (pa n : Nat) : (s.claim u pa n).farContribs = s.farContribs := rfl
@[simp] theorem State.claim_dieMon (s : State) (u : Option Nat) (pa n : Nat) : (s.claim u pa n).dieMon = s.dieMon := rfl
@[simp] theorem State.claim_leases (s : State) (u : Option Nat) (pa n : Nat) : (s.claim u pa n).leases = s.leases := rfl
@[simp] theorem State.claim_asks (s : State) (u : Option Nat) (pa n : Nat) : (s.claim u pa n).asks = s.asks := rfl
@[simp] theorem State.claim_draining (s : State) (u : Option Nat) (pa n : Nat) : (s.claim u pa n).draining = s.draining := rfl
@[simp] theorem State.claim_inLeases (s : State) (u : Option Nat) (pa n : Nat) : (s.claim u pa n).inLeases = s.inLeases := rfl
@[simp] theorem State.claim_inReqs (s : State) (u : Option Nat) (pa n : Nat) : (s.claim u pa n).inReqs = s.inReqs := rfl
@[simp] theorem State.claim_noticed (s : State) (u : Option Nat) (pa n : Nat) : (s.claim u pa n).noticed = s.noticed := rfl
@[simp] theorem State.claim_device (s : State) (u : Option Nat) (pa n : Nat) : (s.claim u pa n).device = s.device := rfl
@[simp] theorem State.claim_excluded (s : State) (u : Option Nat) (pa n : Nat) : (s.claim u pa n).excluded = s.excluded := rfl
@[simp] theorem State.claim_routeEmpty (s : State) (u : Option Nat) (pa n : Nat) : (s.claim u pa n).routeEmpty = s.routeEmpty := rfl
@[simp] theorem State.claim_fencedFns (s : State) (u : Option Nat) (pa n : Nat) : (s.claim u pa n).fencedFns = s.fencedFns := rfl
@[simp] theorem State.claim_up (s : State) (u : Option Nat) (pa n : Nat) : (s.claim u pa n).up = s.up := rfl
@[simp] theorem State.claim_bootFailed (s : State) (u : Option Nat) (pa n : Nat) : (s.claim u pa n).bootFailed = s.bootFailed := rfl
@[simp] theorem State.claim_measured (s : State) (u : Option Nat) (pa n : Nat) : (s.claim u pa n).measured = s.measured := rfl
@[simp] theorem State.claim_form (s : State) (u : Option Nat) (pa n : Nat) : (s.claim u pa n).form = s.form := rfl
@[simp] theorem State.claim_sources (s : State) (u : Option Nat) (pa n : Nat) : (s.claim u pa n).sources = s.sources := rfl
@[simp] theorem State.claim_cap (s : State) (u : Option Nat) (pa n : Nat) : (s.claim u pa n).cap = s.cap := rfl
@[simp] theorem State.claim_warmAt (s : State) (u : Option Nat) (pa n : Nat) : (s.claim u pa n).warmAt = s.warmAt := rfl
@[simp] theorem State.claim_half (s : State) (u : Option Nat) (pa n : Nat) : (s.claim u pa n).half = s.half := rfl
@[simp] theorem State.claim_stepAt (s : State) (u : Option Nat) (pa n : Nat) : (s.claim u pa n).stepAt = s.stepAt := rfl
@[simp] theorem State.claim_sevenths (s : State) (u : Option Nat) (pa n : Nat) : (s.claim u pa n).sevenths = s.sevenths := rfl

/-! ## `disown` -/

@[simp] theorem State.disown_cur (s : State) (u : Nat) (h : Option Nat) : (s.disown u h).cur = s.cur := rfl
@[simp] theorem State.disown_agenda (s : State) (u : Nat) (h : Option Nat) : (s.disown u h).agenda = s.agenda := rfl
@[simp] theorem State.disown_now (s : State) (u : Nat) (h : Option Nat) : (s.disown u h).now = s.now := rfl
@[simp] theorem State.disown_fresh (s : State) (u : Nat) (h : Option Nat) : (s.disown u h).fresh = s.fresh := rfl
@[simp] theorem State.disown_nextId (s : State) (u : Nat) (h : Option Nat) : (s.disown u h).nextId = s.nextId := rfl
@[simp] theorem State.disown_cells (s : State) (u : Nat) (h : Option Nat) : (s.disown u h).cells = s.cells := rfl
@[simp] theorem State.disown_mem (s : State) (u : Nat) (h : Option Nat) : (s.disown u h).mem = s.mem := rfl
@[simp] theorem State.disown_memPoison (s : State) (u : Nat) (h : Option Nat) : (s.disown u h).memPoison = s.memPoison := rfl
@[simp] theorem State.disown_lines (s : State) (u : Nat) (h : Option Nat) : (s.disown u h).lines = s.lines := rfl
@[simp] theorem State.disown_net (s : State) (u : Nat) (h : Option Nat) : (s.disown u h).net = s.net := rfl
@[simp] theorem State.disown_torus (s : State) (u : Nat) (h : Option Nat) : (s.disown u h).torus = s.torus := rfl
@[simp] theorem State.disown_dropReports (s : State) (u : Nat) (h : Option Nat) : (s.disown u h).dropReports = s.dropReports := rfl
@[simp] theorem State.disown_fabricOut (s : State) (u : Nat) (h : Option Nat) : (s.disown u h).fabricOut = s.fabricOut := rfl
@[simp] theorem State.disown_fabricKept (s : State) (u : Nat) (h : Option Nat) : (s.disown u h).fabricKept = s.fabricKept := rfl
@[simp] theorem State.disown_fabricSeqOut (s : State) (u : Nat) (h : Option Nat) : (s.disown u h).fabricSeqOut = s.fabricSeqOut := rfl
@[simp] theorem State.disown_fabricSeqIn (s : State) (u : Nat) (h : Option Nat) : (s.disown u h).fabricSeqIn = s.fabricSeqIn := rfl
@[simp] theorem State.disown_fabricIn (s : State) (u : Nat) (h : Option Nat) : (s.disown u h).fabricIn = s.fabricIn := rfl
@[simp] theorem State.disown_inbox (s : State) (u : Nat) (h : Option Nat) : (s.disown u h).inbox = s.inbox := rfl
@[simp] theorem State.disown_recalls (s : State) (u : Nat) (h : Option Nat) : (s.disown u h).recalls = s.recalls := rfl
@[simp] theorem State.disown_hostOut (s : State) (u : Nat) (h : Option Nat) : (s.disown u h).hostOut = s.hostOut := rfl
@[simp] theorem State.disown_unacked (s : State) (u : Nat) (h : Option Nat) : (s.disown u h).unacked = s.unacked := rfl
@[simp] theorem State.disown_sessions (s : State) (u : Nat) (h : Option Nat) : (s.disown u h).sessions = s.sessions := rfl
@[simp] theorem State.disown_opens (s : State) (u : Nat) (h : Option Nat) : (s.disown u h).opens = s.opens := rfl
@[simp] theorem State.disown_winOps (s : State) (u : Nat) (h : Option Nat) : (s.disown u h).winOps = s.winOps := rfl
@[simp] theorem State.disown_tlbs (s : State) (u : Nat) (h : Option Nat) : (s.disown u h).tlbs = s.tlbs := rfl
@[simp] theorem State.disown_invs (s : State) (u : Nat) (h : Option Nat) : (s.disown u h).invs = s.invs := rfl
@[simp] theorem State.disown_queues (s : State) (u : Nat) (h : Option Nat) : (s.disown u h).queues = s.queues := rfl
@[simp] theorem State.disown_works (s : State) (u : Nat) (h : Option Nat) : (s.disown u h).works = s.works := rfl
@[simp] theorem State.disown_phases (s : State) (u : Nat) (h : Option Nat) : (s.disown u h).phases = s.phases := rfl
@[simp] theorem State.disown_drainFor (s : State) (u : Nat) (h : Option Nat) : (s.disown u h).drainFor = s.drainFor := rfl
@[simp] theorem State.disown_lastSlot (s : State) (u : Nat) (h : Option Nat) : (s.disown u h).lastSlot = s.lastSlot := rfl
@[simp] theorem State.disown_jobs (s : State) (u : Nat) (h : Option Nat) : (s.disown u h).jobs = s.jobs := rfl
@[simp] theorem State.disown_launches (s : State) (u : Nat) (h : Option Nat) : (s.disown u h).launches = s.launches := rfl
@[simp] theorem State.disown_routers (s : State) (u : Nat) (h : Option Nat) : (s.disown u h).routers = s.routers := rfl
@[simp] theorem State.disown_exch (s : State) (u : Nat) (h : Option Nat) : (s.disown u h).exch = s.exch := rfl
@[simp] theorem State.disown_rounds (s : State) (u : Nat) (h : Option Nat) : (s.disown u h).rounds = s.rounds := rfl
@[simp] theorem State.disown_farSlots (s : State) (u : Nat) (h : Option Nat) : (s.disown u h).farSlots = s.farSlots := rfl
@[simp] theorem State.disown_groups (s : State) (u : Nat) (h : Option Nat) : (s.disown u h).groups = s.groups := rfl
@[simp] theorem State.disown_farContribs (s : State) (u : Nat) (h : Option Nat) : (s.disown u h).farContribs = s.farContribs := rfl
@[simp] theorem State.disown_dieMon (s : State) (u : Nat) (h : Option Nat) : (s.disown u h).dieMon = s.dieMon := rfl
@[simp] theorem State.disown_leases (s : State) (u : Nat) (h : Option Nat) : (s.disown u h).leases = s.leases := rfl
@[simp] theorem State.disown_asks (s : State) (u : Nat) (h : Option Nat) : (s.disown u h).asks = s.asks := rfl
@[simp] theorem State.disown_draining (s : State) (u : Nat) (h : Option Nat) : (s.disown u h).draining = s.draining := rfl
@[simp] theorem State.disown_inLeases (s : State) (u : Nat) (h : Option Nat) : (s.disown u h).inLeases = s.inLeases := rfl
@[simp] theorem State.disown_inReqs (s : State) (u : Nat) (h : Option Nat) : (s.disown u h).inReqs = s.inReqs := rfl
@[simp] theorem State.disown_noticed (s : State) (u : Nat) (h : Option Nat) : (s.disown u h).noticed = s.noticed := rfl
@[simp] theorem State.disown_device (s : State) (u : Nat) (h : Option Nat) : (s.disown u h).device = s.device := rfl
@[simp] theorem State.disown_excluded (s : State) (u : Nat) (h : Option Nat) : (s.disown u h).excluded = s.excluded := rfl
@[simp] theorem State.disown_routeEmpty (s : State) (u : Nat) (h : Option Nat) : (s.disown u h).routeEmpty = s.routeEmpty := rfl
@[simp] theorem State.disown_fencedFns (s : State) (u : Nat) (h : Option Nat) : (s.disown u h).fencedFns = s.fencedFns := rfl
@[simp] theorem State.disown_up (s : State) (u : Nat) (h : Option Nat) : (s.disown u h).up = s.up := rfl
@[simp] theorem State.disown_bootFailed (s : State) (u : Nat) (h : Option Nat) : (s.disown u h).bootFailed = s.bootFailed := rfl
@[simp] theorem State.disown_measured (s : State) (u : Nat) (h : Option Nat) : (s.disown u h).measured = s.measured := rfl
@[simp] theorem State.disown_form (s : State) (u : Nat) (h : Option Nat) : (s.disown u h).form = s.form := rfl
@[simp] theorem State.disown_sources (s : State) (u : Nat) (h : Option Nat) : (s.disown u h).sources = s.sources := rfl
@[simp] theorem State.disown_cap (s : State) (u : Nat) (h : Option Nat) : (s.disown u h).cap = s.cap := rfl
@[simp] theorem State.disown_warmAt (s : State) (u : Nat) (h : Option Nat) : (s.disown u h).warmAt = s.warmAt := rfl
@[simp] theorem State.disown_half (s : State) (u : Nat) (h : Option Nat) : (s.disown u h).half = s.half := rfl
@[simp] theorem State.disown_stepAt (s : State) (u : Nat) (h : Option Nat) : (s.disown u h).stepAt = s.stepAt := rfl
@[simp] theorem State.disown_sevenths (s : State) (u : Nat) (h : Option Nat) : (s.disown u h).sevenths = s.sevenths := rfl

/-! ## `undefine` -/

@[simp] theorem State.undefine_cur (s : State) (u : Nat) : (s.undefine u).cur = s.cur := rfl
@[simp] theorem State.undefine_agenda (s : State) (u : Nat) : (s.undefine u).agenda = s.agenda := rfl
@[simp] theorem State.undefine_now (s : State) (u : Nat) : (s.undefine u).now = s.now := rfl
@[simp] theorem State.undefine_fresh (s : State) (u : Nat) : (s.undefine u).fresh = s.fresh := rfl
@[simp] theorem State.undefine_nextId (s : State) (u : Nat) : (s.undefine u).nextId = s.nextId := rfl
@[simp] theorem State.undefine_cells (s : State) (u : Nat) : (s.undefine u).cells = s.cells := rfl
@[simp] theorem State.undefine_memPoison (s : State) (u : Nat) : (s.undefine u).memPoison = s.memPoison := rfl
@[simp] theorem State.undefine_authors (s : State) (u : Nat) : (s.undefine u).authors = s.authors := rfl
@[simp] theorem State.undefine_lines (s : State) (u : Nat) : (s.undefine u).lines = s.lines := rfl
@[simp] theorem State.undefine_net (s : State) (u : Nat) : (s.undefine u).net = s.net := rfl
@[simp] theorem State.undefine_torus (s : State) (u : Nat) : (s.undefine u).torus = s.torus := rfl
@[simp] theorem State.undefine_dropReports (s : State) (u : Nat) : (s.undefine u).dropReports = s.dropReports := rfl
@[simp] theorem State.undefine_fabricOut (s : State) (u : Nat) : (s.undefine u).fabricOut = s.fabricOut := rfl
@[simp] theorem State.undefine_fabricKept (s : State) (u : Nat) : (s.undefine u).fabricKept = s.fabricKept := rfl
@[simp] theorem State.undefine_fabricSeqOut (s : State) (u : Nat) : (s.undefine u).fabricSeqOut = s.fabricSeqOut := rfl
@[simp] theorem State.undefine_fabricSeqIn (s : State) (u : Nat) : (s.undefine u).fabricSeqIn = s.fabricSeqIn := rfl
@[simp] theorem State.undefine_fabricIn (s : State) (u : Nat) : (s.undefine u).fabricIn = s.fabricIn := rfl
@[simp] theorem State.undefine_inbox (s : State) (u : Nat) : (s.undefine u).inbox = s.inbox := rfl
@[simp] theorem State.undefine_recalls (s : State) (u : Nat) : (s.undefine u).recalls = s.recalls := rfl
@[simp] theorem State.undefine_hostOut (s : State) (u : Nat) : (s.undefine u).hostOut = s.hostOut := rfl
@[simp] theorem State.undefine_unacked (s : State) (u : Nat) : (s.undefine u).unacked = s.unacked := rfl
@[simp] theorem State.undefine_sessions (s : State) (u : Nat) : (s.undefine u).sessions = s.sessions := rfl
@[simp] theorem State.undefine_opens (s : State) (u : Nat) : (s.undefine u).opens = s.opens := rfl
@[simp] theorem State.undefine_winOps (s : State) (u : Nat) : (s.undefine u).winOps = s.winOps := rfl
@[simp] theorem State.undefine_tlbs (s : State) (u : Nat) : (s.undefine u).tlbs = s.tlbs := rfl
@[simp] theorem State.undefine_invs (s : State) (u : Nat) : (s.undefine u).invs = s.invs := rfl
@[simp] theorem State.undefine_queues (s : State) (u : Nat) : (s.undefine u).queues = s.queues := rfl
@[simp] theorem State.undefine_works (s : State) (u : Nat) : (s.undefine u).works = s.works := rfl
@[simp] theorem State.undefine_phases (s : State) (u : Nat) : (s.undefine u).phases = s.phases := rfl
@[simp] theorem State.undefine_drainFor (s : State) (u : Nat) : (s.undefine u).drainFor = s.drainFor := rfl
@[simp] theorem State.undefine_lastSlot (s : State) (u : Nat) : (s.undefine u).lastSlot = s.lastSlot := rfl
@[simp] theorem State.undefine_jobs (s : State) (u : Nat) : (s.undefine u).jobs = s.jobs := rfl
@[simp] theorem State.undefine_launches (s : State) (u : Nat) : (s.undefine u).launches = s.launches := rfl
@[simp] theorem State.undefine_routers (s : State) (u : Nat) : (s.undefine u).routers = s.routers := rfl
@[simp] theorem State.undefine_exch (s : State) (u : Nat) : (s.undefine u).exch = s.exch := rfl
@[simp] theorem State.undefine_rounds (s : State) (u : Nat) : (s.undefine u).rounds = s.rounds := rfl
@[simp] theorem State.undefine_farSlots (s : State) (u : Nat) : (s.undefine u).farSlots = s.farSlots := rfl
@[simp] theorem State.undefine_groups (s : State) (u : Nat) : (s.undefine u).groups = s.groups := rfl
@[simp] theorem State.undefine_farContribs (s : State) (u : Nat) : (s.undefine u).farContribs = s.farContribs := rfl
@[simp] theorem State.undefine_dieMon (s : State) (u : Nat) : (s.undefine u).dieMon = s.dieMon := rfl
@[simp] theorem State.undefine_leases (s : State) (u : Nat) : (s.undefine u).leases = s.leases := rfl
@[simp] theorem State.undefine_asks (s : State) (u : Nat) : (s.undefine u).asks = s.asks := rfl
@[simp] theorem State.undefine_draining (s : State) (u : Nat) : (s.undefine u).draining = s.draining := rfl
@[simp] theorem State.undefine_inLeases (s : State) (u : Nat) : (s.undefine u).inLeases = s.inLeases := rfl
@[simp] theorem State.undefine_inReqs (s : State) (u : Nat) : (s.undefine u).inReqs = s.inReqs := rfl
@[simp] theorem State.undefine_noticed (s : State) (u : Nat) : (s.undefine u).noticed = s.noticed := rfl
@[simp] theorem State.undefine_device (s : State) (u : Nat) : (s.undefine u).device = s.device := rfl
@[simp] theorem State.undefine_excluded (s : State) (u : Nat) : (s.undefine u).excluded = s.excluded := rfl
@[simp] theorem State.undefine_routeEmpty (s : State) (u : Nat) : (s.undefine u).routeEmpty = s.routeEmpty := rfl
@[simp] theorem State.undefine_fencedFns (s : State) (u : Nat) : (s.undefine u).fencedFns = s.fencedFns := rfl
@[simp] theorem State.undefine_up (s : State) (u : Nat) : (s.undefine u).up = s.up := rfl
@[simp] theorem State.undefine_bootFailed (s : State) (u : Nat) : (s.undefine u).bootFailed = s.bootFailed := rfl
@[simp] theorem State.undefine_measured (s : State) (u : Nat) : (s.undefine u).measured = s.measured := rfl
@[simp] theorem State.undefine_form (s : State) (u : Nat) : (s.undefine u).form = s.form := rfl
@[simp] theorem State.undefine_sources (s : State) (u : Nat) : (s.undefine u).sources = s.sources := rfl
@[simp] theorem State.undefine_cap (s : State) (u : Nat) : (s.undefine u).cap = s.cap := rfl
@[simp] theorem State.undefine_warmAt (s : State) (u : Nat) : (s.undefine u).warmAt = s.warmAt := rfl
@[simp] theorem State.undefine_half (s : State) (u : Nat) : (s.undefine u).half = s.half := rfl
@[simp] theorem State.undefine_stepAt (s : State) (u : Nat) : (s.undefine u).stepAt = s.stepAt := rfl
@[simp] theorem State.undefine_sevenths (s : State) (u : Nat) : (s.undefine u).sevenths = s.sevenths := rfl

/-! ## `send` -/

@[simp] theorem State.send_cur (s : State) (a b : Node) (k : MsgClass) (m : MsgBody) : (s.send a b k m).cur = s.cur := rfl
@[simp] theorem State.send_agenda (s : State) (a b : Node) (k : MsgClass) (m : MsgBody) : (s.send a b k m).agenda = s.agenda := rfl
@[simp] theorem State.send_now (s : State) (a b : Node) (k : MsgClass) (m : MsgBody) : (s.send a b k m).now = s.now := rfl
@[simp] theorem State.send_fresh (s : State) (a b : Node) (k : MsgClass) (m : MsgBody) : (s.send a b k m).fresh = s.fresh := rfl
@[simp] theorem State.send_cells (s : State) (a b : Node) (k : MsgClass) (m : MsgBody) : (s.send a b k m).cells = s.cells := rfl
@[simp] theorem State.send_mem (s : State) (a b : Node) (k : MsgClass) (m : MsgBody) : (s.send a b k m).mem = s.mem := rfl
@[simp] theorem State.send_memPoison (s : State) (a b : Node) (k : MsgClass) (m : MsgBody) : (s.send a b k m).memPoison = s.memPoison := rfl
@[simp] theorem State.send_authors (s : State) (a b : Node) (k : MsgClass) (m : MsgBody) : (s.send a b k m).authors = s.authors := rfl
@[simp] theorem State.send_lines (s : State) (a b : Node) (k : MsgClass) (m : MsgBody) : (s.send a b k m).lines = s.lines := rfl
@[simp] theorem State.send_torus (s : State) (a b : Node) (k : MsgClass) (m : MsgBody) : (s.send a b k m).torus = s.torus := rfl
@[simp] theorem State.send_dropReports (s : State) (a b : Node) (k : MsgClass) (m : MsgBody) : (s.send a b k m).dropReports = s.dropReports := rfl
@[simp] theorem State.send_fabricOut (s : State) (a b : Node) (k : MsgClass) (m : MsgBody) : (s.send a b k m).fabricOut = s.fabricOut := rfl
@[simp] theorem State.send_fabricKept (s : State) (a b : Node) (k : MsgClass) (m : MsgBody) : (s.send a b k m).fabricKept = s.fabricKept := rfl
@[simp] theorem State.send_fabricSeqOut (s : State) (a b : Node) (k : MsgClass) (m : MsgBody) : (s.send a b k m).fabricSeqOut = s.fabricSeqOut := rfl
@[simp] theorem State.send_fabricSeqIn (s : State) (a b : Node) (k : MsgClass) (m : MsgBody) : (s.send a b k m).fabricSeqIn = s.fabricSeqIn := rfl
@[simp] theorem State.send_fabricIn (s : State) (a b : Node) (k : MsgClass) (m : MsgBody) : (s.send a b k m).fabricIn = s.fabricIn := rfl
@[simp] theorem State.send_inbox (s : State) (a b : Node) (k : MsgClass) (m : MsgBody) : (s.send a b k m).inbox = s.inbox := rfl
@[simp] theorem State.send_recalls (s : State) (a b : Node) (k : MsgClass) (m : MsgBody) : (s.send a b k m).recalls = s.recalls := rfl
@[simp] theorem State.send_hostOut (s : State) (a b : Node) (k : MsgClass) (m : MsgBody) : (s.send a b k m).hostOut = s.hostOut := rfl
@[simp] theorem State.send_unacked (s : State) (a b : Node) (k : MsgClass) (m : MsgBody) : (s.send a b k m).unacked = s.unacked := rfl
@[simp] theorem State.send_sessions (s : State) (a b : Node) (k : MsgClass) (m : MsgBody) : (s.send a b k m).sessions = s.sessions := rfl
@[simp] theorem State.send_opens (s : State) (a b : Node) (k : MsgClass) (m : MsgBody) : (s.send a b k m).opens = s.opens := rfl
@[simp] theorem State.send_winOps (s : State) (a b : Node) (k : MsgClass) (m : MsgBody) : (s.send a b k m).winOps = s.winOps := rfl
@[simp] theorem State.send_tlbs (s : State) (a b : Node) (k : MsgClass) (m : MsgBody) : (s.send a b k m).tlbs = s.tlbs := rfl
@[simp] theorem State.send_invs (s : State) (a b : Node) (k : MsgClass) (m : MsgBody) : (s.send a b k m).invs = s.invs := rfl
@[simp] theorem State.send_queues (s : State) (a b : Node) (k : MsgClass) (m : MsgBody) : (s.send a b k m).queues = s.queues := rfl
@[simp] theorem State.send_works (s : State) (a b : Node) (k : MsgClass) (m : MsgBody) : (s.send a b k m).works = s.works := rfl
@[simp] theorem State.send_phases (s : State) (a b : Node) (k : MsgClass) (m : MsgBody) : (s.send a b k m).phases = s.phases := rfl
@[simp] theorem State.send_drainFor (s : State) (a b : Node) (k : MsgClass) (m : MsgBody) : (s.send a b k m).drainFor = s.drainFor := rfl
@[simp] theorem State.send_lastSlot (s : State) (a b : Node) (k : MsgClass) (m : MsgBody) : (s.send a b k m).lastSlot = s.lastSlot := rfl
@[simp] theorem State.send_jobs (s : State) (a b : Node) (k : MsgClass) (m : MsgBody) : (s.send a b k m).jobs = s.jobs := rfl
@[simp] theorem State.send_launches (s : State) (a b : Node) (k : MsgClass) (m : MsgBody) : (s.send a b k m).launches = s.launches := rfl
@[simp] theorem State.send_routers (s : State) (a b : Node) (k : MsgClass) (m : MsgBody) : (s.send a b k m).routers = s.routers := rfl
@[simp] theorem State.send_exch (s : State) (a b : Node) (k : MsgClass) (m : MsgBody) : (s.send a b k m).exch = s.exch := rfl
@[simp] theorem State.send_rounds (s : State) (a b : Node) (k : MsgClass) (m : MsgBody) : (s.send a b k m).rounds = s.rounds := rfl
@[simp] theorem State.send_farSlots (s : State) (a b : Node) (k : MsgClass) (m : MsgBody) : (s.send a b k m).farSlots = s.farSlots := rfl
@[simp] theorem State.send_groups (s : State) (a b : Node) (k : MsgClass) (m : MsgBody) : (s.send a b k m).groups = s.groups := rfl
@[simp] theorem State.send_farContribs (s : State) (a b : Node) (k : MsgClass) (m : MsgBody) : (s.send a b k m).farContribs = s.farContribs := rfl
@[simp] theorem State.send_dieMon (s : State) (a b : Node) (k : MsgClass) (m : MsgBody) : (s.send a b k m).dieMon = s.dieMon := rfl
@[simp] theorem State.send_leases (s : State) (a b : Node) (k : MsgClass) (m : MsgBody) : (s.send a b k m).leases = s.leases := rfl
@[simp] theorem State.send_asks (s : State) (a b : Node) (k : MsgClass) (m : MsgBody) : (s.send a b k m).asks = s.asks := rfl
@[simp] theorem State.send_draining (s : State) (a b : Node) (k : MsgClass) (m : MsgBody) : (s.send a b k m).draining = s.draining := rfl
@[simp] theorem State.send_inLeases (s : State) (a b : Node) (k : MsgClass) (m : MsgBody) : (s.send a b k m).inLeases = s.inLeases := rfl
@[simp] theorem State.send_inReqs (s : State) (a b : Node) (k : MsgClass) (m : MsgBody) : (s.send a b k m).inReqs = s.inReqs := rfl
@[simp] theorem State.send_noticed (s : State) (a b : Node) (k : MsgClass) (m : MsgBody) : (s.send a b k m).noticed = s.noticed := rfl
@[simp] theorem State.send_device (s : State) (a b : Node) (k : MsgClass) (m : MsgBody) : (s.send a b k m).device = s.device := rfl
@[simp] theorem State.send_excluded (s : State) (a b : Node) (k : MsgClass) (m : MsgBody) : (s.send a b k m).excluded = s.excluded := rfl
@[simp] theorem State.send_routeEmpty (s : State) (a b : Node) (k : MsgClass) (m : MsgBody) : (s.send a b k m).routeEmpty = s.routeEmpty := rfl
@[simp] theorem State.send_fencedFns (s : State) (a b : Node) (k : MsgClass) (m : MsgBody) : (s.send a b k m).fencedFns = s.fencedFns := rfl
@[simp] theorem State.send_up (s : State) (a b : Node) (k : MsgClass) (m : MsgBody) : (s.send a b k m).up = s.up := rfl
@[simp] theorem State.send_bootFailed (s : State) (a b : Node) (k : MsgClass) (m : MsgBody) : (s.send a b k m).bootFailed = s.bootFailed := rfl
@[simp] theorem State.send_measured (s : State) (a b : Node) (k : MsgClass) (m : MsgBody) : (s.send a b k m).measured = s.measured := rfl
@[simp] theorem State.send_form (s : State) (a b : Node) (k : MsgClass) (m : MsgBody) : (s.send a b k m).form = s.form := rfl
@[simp] theorem State.send_sources (s : State) (a b : Node) (k : MsgClass) (m : MsgBody) : (s.send a b k m).sources = s.sources := rfl
@[simp] theorem State.send_cap (s : State) (a b : Node) (k : MsgClass) (m : MsgBody) : (s.send a b k m).cap = s.cap := rfl
@[simp] theorem State.send_warmAt (s : State) (a b : Node) (k : MsgClass) (m : MsgBody) : (s.send a b k m).warmAt = s.warmAt := rfl
@[simp] theorem State.send_half (s : State) (a b : Node) (k : MsgClass) (m : MsgBody) : (s.send a b k m).half = s.half := rfl
@[simp] theorem State.send_stepAt (s : State) (a b : Node) (k : MsgClass) (m : MsgBody) : (s.send a b k m).stepAt = s.stepAt := rfl
@[simp] theorem State.send_sevenths (s : State) (a b : Node) (k : MsgClass) (m : MsgBody) : (s.send a b k m).sevenths = s.sevenths := rfl

end Sys2Proof.Machine
end

