-- ==== Sys2Proof/Laws/Ops.lean ====
section
/-!
SUPPORT. What the shared operations over cells and fibres do: read after write, and what they leave alone.
-/

namespace Sys2Proof.Machine

open Sys2Proof

/-! ## Cells -/

@[simp] theorem State.cell_setCell_same (s : State) (c : Nat) (x : Cell) : (s.setCell c x).cell c = x := by
  simp [State.cell, State.setCell]

theorem State.cell_setCell_ne (s : State) {c d : Nat} (x : Cell) (h : d ≠ c) : (s.setCell c x).cell d = s.cell d := by
  simp [State.cell, State.setCell, AMap.find_put_ne _ _ h]

@[simp] theorem State.cell_updCell_same (s : State) (c : Nat) (f : Cell → Cell) :
    (s.updCell c f).cell c = f (s.cell c) := by simp [State.updCell]

theorem State.cell_updCell_ne (s : State) {c d : Nat} (f : Cell → Cell) (h : d ≠ c) :
    (s.updCell c f).cell d = s.cell d := State.cell_setCell_ne s _ h

@[simp] theorem State.setCell_setCell (s : State) (c : Nat) (x y : Cell) :
    (s.setCell c x).setCell c y = s.setCell c y := by simp [State.setCell]

/-- Two changes of one cell are one change. -/
@[simp] theorem State.updCell_updCell (s : State) (c : Nat) (f g : Cell → Cell) :
    (s.updCell c f).updCell c g = s.updCell c (fun x => g (f x)) := by
  simp [State.updCell]

@[simp] theorem State.here_updHere (s : State) (f : Cell → Cell) : (s.updHere f).here = f s.here := by
  simp [State.here, State.updHere]

theorem State.cell_updHere_ne (s : State) {c : Nat} (f : Cell → Cell) (h : c ≠ s.cur.cell) :
    (s.updHere f).cell c = s.cell c := State.cell_updCell_ne s f h

@[simp] theorem State.updHere_updHere (s : State) (f g : Cell → Cell) :
    (s.updHere f).updHere g = s.updHere (fun x => g (f x)) := by simp [State.updHere]

/-! ## Fibres -/

@[simp] theorem Cell.fibre_setFibre_same (c : Cell) (n : Nat) (f : Fibre) : (c.setFibre n f).fibre n = f := by
  simp [Cell.fibre, Cell.setFibre]

theorem Cell.fibre_setFibre_ne (c : Cell) {n k : Nat} (f : Fibre) (h : k ≠ n) : (c.setFibre n f).fibre k = c.fibre k := by
  simp [Cell.fibre, Cell.setFibre, AMap.find_put_ne _ _ h]

@[simp] theorem Cell.setFibre_setFibre (c : Cell) (n : Nat) (f g : Fibre) :
    (c.setFibre n f).setFibre n g = c.setFibre n g := by simp [Cell.setFibre]

@[simp] theorem State.here_updFibre (s : State) (f : Fibre → Fibre) :
    (s.updFibre f).here = s.here.setFibre s.cur.slot (f s.fibre) := by
  simp [State.here, State.updFibre, State.fibre]

@[simp] theorem State.fibre_updFibre (s : State) (f : Fibre → Fibre) : (s.updFibre f).fibre = f s.fibre := by
  simp [State.fibre]

theorem State.cell_updFibre_ne (s : State) {c : Nat} (f : Fibre → Fibre) (h : c ≠ s.cur.cell) :
    (s.updFibre f).cell c = s.cell c := State.cell_updCell_ne s _ h

/-- Two changes of the acting fibre are one change. -/
@[simp] theorem State.updFibre_updFibre (s : State) (f g : Fibre → Fibre) :
    (s.updFibre f).updFibre g = s.updFibre (fun x => g (f x)) := by
  simp [State.updFibre]

/-- A change of the acting cell that does not read or write the acting fibre commutes with reading it. -/
theorem State.fibre_updHere (s : State) (f : Cell → Cell) (h : (f s.here).fibres = s.here.fibres) :
    (s.updHere f).fibre = s.fibre := by
  simp [State.fibre, Cell.fibre, h]

/-! ## Registers and the end of a word -/

/-- `finish` puts the fibre past its word, in flight for `lat` CCLK. -/
theorem State.fibre_finish (s : State) (len lat : Nat) :
    (s.finish len lat).fibre =
      { s.fibre with body := s.fibre.body.past len, status := .issued (s.now + lat), parkSeq := none } := by
  simp [State.finish]

@[simp] theorem State.g_finish (s : State) (r : GReg) (len lat : Nat) : (s.finish len lat).g r = s.g r := by
  simp [State.g, State.fibre_finish, FBody.past]

@[simp] theorem State.g_putG_same (s : State) (d : GReg) (v : Word) : (s.putG d v).g d = v := by
  simp [State.g, State.putG]

theorem State.g_putG_ne (s : State) {d r : GReg} (v : Word) (h : r ≠ d) : (s.putG d v).g r = s.g r := by
  have h' : d.val ≠ r.val := fun e => h (Fin.ext e.symm)
  simp [State.g, State.putG, Fin.getElem_fin, Vector.getElem_set_ne, h']

/-- `writeRd` as one change of the acting fibre. -/
theorem State.writeRd_eq (s : State) (d : GReg) (v : Word) (len lat : Nat) :
    s.writeRd d v len lat =
      s.updFibre (fun f =>
        { f with
          body := { f.body with g := f.body.g.set d v }.past len
          status := .issued (s.now + lat)
          parkSeq := none }) := by
  simp [State.writeRd, State.finish, State.putG]

@[simp] theorem State.g_writeRd_same (s : State) (d : GReg) (v : Word) (len lat : Nat) :
    (s.writeRd d v len lat).g d = v := by simp [State.writeRd]

theorem State.g_writeRd_ne (s : State) {d r : GReg} (v : Word) (len lat : Nat) (h : r ≠ d) :
    (s.writeRd d v len lat).g r = s.g r := by simp [State.writeRd, State.g_putG_ne, h]

/-! ## Whose data a byte of device memory is (03 R56, log 57) -/

/-- Claims keep the record of authors in order. -/
theorem claimed_wf (u : Option Nat) (l : List Nat) (m : AMap Nat) (h : m.wf = true) : (claimed m u l).wf = true := by
  induction l generalizing m with
  | nil => exact h
  | cons a r ih =>
    cases u with
    | none => exact ih _ (AMap.wf_del m a h)
    | some n => exact ih _ (AMap.wf_put m a n h)

/-- An address that is not claimed keeps its author. -/
theorem claimed_find_out (u : Option Nat) (l : List Nat) (m : AMap Nat) (a : Nat) (h : a ∉ l) :
    (claimed m u l).find a = m.find a := by
  induction l generalizing m with
  | nil => rfl
  | cons b r ih =>
    simp only [List.mem_cons, not_or] at h
    cases u with
    | none => exact (ih _ h.2).trans (AMap.find_del_ne m h.1)
    | some n => exact (ih _ h.2).trans (AMap.find_put_ne m n h.1)

/-- What is claimed for a unit of work is that unit's. -/
theorem claimed_find_in (n : Nat) (l : List Nat) (m : AMap Nat) (a : Nat) (h : a ∈ l) :
    (claimed m (some n) l).find a = some n := by
  induction l generalizing m with
  | nil => cases h
  | cons b r ih =>
    by_cases hr : a ∈ r
    · exact ih _ hr
    · have hb : a = b := by simpa [hr] using h
      subst hb
      exact (claimed_find_out (some n) r _ a hr).trans (AMap.find_put_same m a n)

/-- Free values for a cancelled unit's data keep memory in canonical form. -/
theorem State.undefine_wf (s : State) (n : Nat) (h : Memory.wf s.mem = true) : Memory.wf (s.undefine n).mem = true := by
  have key : ∀ (l : List (Nat × Nat)) (m : List Host.Cell), Memory.wf m = true →
      Memory.wf (l.foldl (fun m e => Mem.write m e.1 (Config.freeByte (s.fresh * 2 ^ 60 + e.1))) m) = true := by
    intro l
    induction l with
    | nil => exact fun m hm => hm
    | cons e r ih => exact fun m hm => ih _ (Mem.wf_write m e.1 _ hm)
  exact key _ _ h

end Sys2Proof.Machine
end

