-- ==== Sys2Proof/Laws/Frames.lean ====
section
/-!
SUPPORT. The frames of the shared operations: what a change of the acting cell or fibre leaves alone.
-/

namespace Sys2Proof.Machine

open Sys2Proof

/-- A change of the acting cell changes nothing else. -/
theorem State.onlyHere_updHere (s : State) (f : Cell → Cell) : s.OnlyHere (s.updHere f) where
  rest := rfl
  cells := fun _ h => s.cell_updHere_ne f h
  memory := fun _ => rfl

/-- A change of the acting fibre changes nothing else. -/
theorem State.onlyFibre_updFibre (s : State) (f : Fibre → Fibre) : s.OnlyFibre (s.updFibre f) where
  rest := rfl
  cells := fun _ h => s.cell_updFibre_ne f h
  memory := fun _ => rfl
  here := by simp [Cell.setFibre]
  slots := fun n h => by simp [Cell.fibre_setFibre_ne _ _ h]

/-- `OnlyHere` composes. -/
theorem State.OnlyHere.trans {s t u : State} (h : s.OnlyHere t) (k : t.OnlyHere u) : s.OnlyHere u where
  rest := by rw [k.rest, h.rest]
  cells := fun c hc => by
    have hcur : t.cur = s.cur := by rw [h.rest]
    rw [k.cells c (by rw [hcur]; exact hc), h.cells c hc]
  memory := fun a => by rw [k.memory a, h.memory a]

/-- `writeRd` writes rd and nothing else. -/
theorem State.wrote_writeRd (s : State) (d : GReg) (v : Word) (len lat : Nat) :
    s.Wrote (s.writeRd d v len lat) d v len lat where
  toOnlyFibre := by rw [s.writeRd_eq]; exact s.onlyFibre_updFibre _
  value := by simp
  kept := fun r h => s.g_writeRd_ne v len lat h
  past := by simp [State.PastWord, State.writeRd_eq, FBody.past]

/-- `finish` only moves the fibre past its word. -/
theorem State.wroteNone_finish (s : State) (len lat : Nat) : s.WroteNone (s.finish len lat) len lat where
  kept := by simp
  past := by simp [State.PastWord, State.fibre_finish, FBody.past]

theorem State.onlyFibre_finish (s : State) (len lat : Nat) : s.OnlyFibre (s.finish len lat) := s.onlyFibre_updFibre _

/-- A word whose meaning is `writeRd` writes rd. -/
theorem State.writes_of (s : State) {i : Instr} {d : GReg} {v : Word} {len lat : Nat}
    (h : exec i s = .next (s.writeRd d v len lat)) : s.Writes i d v len lat := ⟨_, h, s.wrote_writeRd d v len lat⟩

/-- A word whose meaning is `finish` only goes on. -/
theorem State.onlyGoesOn_of (s : State) {i : Instr} {len lat : Nat} (h : exec i s = .next (s.finish len lat)) :
    s.OnlyGoesOn i len lat := ⟨_, h, s.onlyFibre_finish len lat, s.wroteNone_finish len lat⟩

end Sys2Proof.Machine
end

