-- ==== Sys2Proof/Tests/Slice0.lean ====
section
/-!
SUPPORT. Tests: ill-formed terms that the check refuses, words written out from the spec's encodings, single steps on small
states with results worked out by hand from the spec, and witnesses for the hypotheses of the statements.
-/

namespace Sys2Proof.Tests

set_option Elab.async false

open Sys2Proof Sys2Proof.Machine

/-! ## Small states -/

/-- The block in which the test fibre stands: 16 words from its PC. -/
def blk0 : Block := { start := 0x10000, fin := 0x10040, left := 1 }

/-- A task at 0x10000. -/
def fib0 : Fibre := { Fibre.zero with body := { FBody.zero with pc := 0x10000, blk := some blk0 } }

/-- A launch of two cells of job 1, with the default budget and wait limit. -/
def launch0 : Launch :=
  { Launch.zero with job := 1, w := 2, roles := [0, 0], nosteal := [false, false], budget := 140000, waitlim := 16777216 }

/-- Job 1 with the page of 64 KiB at 0x10000 mapped to device memory at 0, readable, writable and WARM. -/
def job0 : Job := { Job.zero.mapPage 0 0x10000 0xD with devSet := [0, 1] }

/-- Two cells, the first with the task in slot 17. -/
def cell0 : Cell := { Cell.idle with launch := some 0, fibres := [(17, fib0)] }

def base : State :=
  { State.reset with
    cells := [(0, cell0), (1, { Cell.idle with launch := some 0, x := 1 })]
    launches := [(0, launch0)]
    jobs := [(1, job0)] }

/-- `base` with one or two g registers set. -/
def b1 (r : GReg) (v : Word) : State := base.putG r v
def b2 (r : GReg) (v : Word) (q : GReg) (w : Word) : State := (base.putG r v).putG q w

/-- What a test reads of an outcome. -/
def after {α : Type} (o : Host.Outcome State Fault Refusal) (f : State → α) : Option α :=
  match o with
  | .next t => some (f t)
  | _ => none

/-- The trap class in the record with which the launch fails (18 Table 18.6: the code is its first byte). -/
def trapClass (o : Host.Outcome State Fault Refusal) : Option Nat :=
  (after o (fun t => match (t.launch 0).ended with
    | some (.trapped r) => some (r.headD 0).toNat
    | _ => none)).join

/-! ## Well-formedness (05 R84): one ill-formed term for each check -/

theorem test_wf_blkEmpty : (Instr.blk 1 0 0).wf .v = false ∧ (Instr.blk 1 0 2).wf .v = true := by decide +kernel
theorem test_wf_blkRegister : (Instr.blk 1 3 2).wf .v = false ∧ (Instr.blk 0 9 2).wf .s = false := by decide +kernel
theorem test_wf_mtsNumbers : (Instr.mts 4 0).wf .s = false ∧ (Instr.mts 6 0).wf .s = false ∧
    (Instr.mts 7 0).wf .s = false ∧ (Instr.mts 9 0).wf .s = false ∧ (Instr.mts 5 0).wf .s = true := by decide +kernel
theorem test_wf_postedAtomics : (Instr.aadd true .w64 .relaxed .cell 1 0 0).wf .s = false ∧
    (Instr.amin true .w64 .acquire .cell 0 0 0).wf .s = false ∧ (Instr.amax true .w64 .acqRel .cell 0 0 0).wf .s = false ∧
    (Instr.aminu true .w64 .relaxed .cell 2 0 0).wf .s = false ∧ (Instr.amaxu true .w64 .acquire .cell 0 0 0).wf .s = false ∧
    (Instr.aand true .w64 .relaxed .cell 1 0 0).wf .s = false ∧ (Instr.aor true .w64 .relaxed .cell 1 0 0).wf .s = false ∧
    (Instr.axor true .w64 .relaxed .cell 1 0 0).wf .s = false ∧ (Instr.aswp true .w64 .relaxed .cell 1 0 0).wf .s = false ∧
    (Instr.aadd true .w64 .release .cell 0 0 0).wf .s = true := by decide +kernel
theorem test_wf_afaddSize : (Instr.afadd false .w64 .relaxed .cell 0 0 0).wf .s = false := by decide +kernel
theorem test_wf_amsend : (Instr.amsend false .relaxed .cell 1 0 0).wf .s = false ∧
    (Instr.amsend true .acquire .cell 1 0 0).wf .s = false ∧ (Instr.deleg .acquire .cell 0 0 0).wf .s = false := by decide +kernel
theorem test_wf_sbr : (Instr.sbr 0 1 .z 0).wf .v = false ∧ (Instr.sbr 0 1 .lt 0).wf .v = true := by decide +kernel
theorem test_wf_floatFormats : (Instr.vfadd .i32 0 0 0 0).wf .v = false ∧ (Instr.vfsub .q64 0 0 0 0).wf .v = false ∧
    (Instr.vfmul .i8 0 0 0 0).wf .v = false ∧ (Instr.vfmin .i16 0 0 0 0).wf .v = false ∧
    (Instr.vfmax .u32 0 0 0 0).wf .v = false ∧ (Instr.vfdiv .i32 0 0 0 0).wf .v = false ∧
    (Instr.vfsqrt .i32 0 0 0).wf .v = false ∧ (Instr.vfabs .i32 0 0 0).wf .v = false ∧
    (Instr.vfneg .i32 0 0 0).wf .v = false ∧ (Instr.vfcpys .i32 0 0 0 0).wf .v = false ∧
    (Instr.vfma .i32 0 0 0 0).wf .v = false ∧ (Instr.vfms .i32 0 0 0 0).wf .v = false ∧
    (Instr.vfnma .i32 0 0 0 0).wf .v = false := by decide +kernel
theorem test_wf_integerFormats : (Instr.vadd .f32 0 0 0 0).wf .v = false ∧ (Instr.vsub .q64 0 0 0 0).wf .v = false ∧
    (Instr.vmul .f16 0 0 0 0).wf .v = false ∧ (Instr.vmulh .bf16 0 0 0 0).wf .v = false ∧
    (Instr.vand .f32 0 0 0 0).wf .v = false ∧ (Instr.vor .f32 0 0 0 0).wf .v = false ∧
    (Instr.vxor .f32 0 0 0 0).wf .v = false ∧ (Instr.vshl .f32 0 0 0 0).wf .v = false ∧
    (Instr.vshr .f32 0 0 0 0).wf .v = false ∧ (Instr.vsra .f32 0 0 0 0).wf .v = false ∧
    (Instr.vmin .f32 0 0 0 0).wf .v = false ∧ (Instr.vmax .f32 0 0 0 0).wf .v = false ∧
    (Instr.vabs .u32 0 0 0).wf .v = false := by decide +kernel
theorem test_wf_compares : (Instr.vcmp .i32 0 0 0 1 .un).wf .v = false ∧ (Instr.vcmp .i32 0 0 0 0 .lt).wf .v = false := by decide +kernel
theorem test_wf_conversions : (Instr.vcvt .q64 .f32 .rne false 0 0 0).wf .v = false ∧
    (Instr.vcvt .f32 .i64 .rne false 0 0 0).wf .v = false := by decide +kernel
theorem test_wf_scans : (Instr.vscan .i8 0 0 0).wf .v = false ∧ (Instr.vscanx .f16 0 0 0).wf .v = false := by decide +kernel
theorem test_wf_masks : (Instr.mand .f32 1 1 0).wf .v = false ∧ (Instr.mor .f32 1 1 0).wf .v = false ∧
    (Instr.mxor .f32 1 1 0).wf .v = false ∧ (Instr.mnot .f32 1 0).wf .v = false ∧ (Instr.mset .f32 1 0).wf .v = false := by decide +kernel
theorem test_wf_merges : (Instr.vmrgKz .f32 1 0 0).wf .v = false ∧ (Instr.vmrgDz .f16 0 0 0).wf .v = false ∧
    (Instr.vmrgc .i32 0 1 false 0).wf .v = false := by decide +kernel
theorem test_wf_streams : (Instr.vstrm 0 23).wf .v = false ∧ (Instr.vstrmx 23).wf .v = true ∧ (Instr.vstrm 0 24).wf .v = true := by decide +kernel
theorem test_wf_chains : (Instr.mmac 0 0 false 0 0 0 0).wf .m = false := by decide +kernel
theorem test_wf_tileStores : (Instr.mzst false .rne .e8m0 0 0 0).wf .m = false ∧
    (Instr.mzstCmap false .rne .i64 0 0 0 0).wf .m = false := by decide +kernel

/-! ## Words written out from the spec's encodings (05 Tables 5.2-5.16 and the words given with the instructions) -/

theorem test_decode_headers : decodeIn .v 32 0x0001FE0C = some (.blk 0 1 12) := by decide +kernel
theorem test_decode_tok : decodeIn .v 32 0x8000FC30 = some (.tok .zero (some (3, 0))) := by decide +kernel
theorem test_decode_compactVector : decodeIn .v 16 0x2A00 = some (.vldC16 2 0 0) ∧ decodeIn .v 16 0x0A4C = some (.vfmulC16 2 2 3) := by decide +kernel
theorem test_decode_saddi : decodeIn .v 32 0x2000F200 = some (.saddi 512 0 0) := by decide +kernel
theorem test_decode_vst : decodeIn .v 32 0xF0009821 = some (.vst 0x1E0 0 0 2) := by decide +kernel
theorem test_decode_shalt : decodeIn .v 32 0x0000F800 = some .shalt := by decide +kernel
/-- vfma.bf16 v5, v1, v2, m3 (08). -/
theorem test_decode_vfma : decodeIn .v 32 0x2C418250 = some (.vfma .bf16 3 2 1 5) := by decide +kernel
/-- vcvt.f8e4m3.f32 v6, v4 (08). -/
theorem test_decode_vcvt : decodeIn .v 32 0x00648A60 = some (.vcvt .f32 .e4m3 .rne false 0 4 6) := by decide +kernel
/-- mmas.clr z0, q8, q5 (10). -/
theorem test_decode_mmas : decodeIn .m 32 0x01058420 = some (.mmas true 5 0 8) := by decide +kernel
/-- fence.rel.device (12), cpyq.nb g5 (13), gateq, binput, exsend, expoll.w (14). -/
theorem test_decode_fence : decodeIn .s 32 0x000BBE00 = some (.fenceRel .device) := by decide +kernel
theorem test_decode_cpyq : decodeIn .s 32 0x0001C340 = some (.cpyqNb 5) := by decide +kernel
theorem test_decode_exchange : decodeIn .s 32 0x0005CC13 = some (.gateq 5 2 3) ∧ decodeIn .s 32 0x0000CF4C = some (.binput 5 1 4) ∧
    decodeIn .s 32 0x0000D010 = some (.exsend 2) ∧ decodeIn .s 32 0x0009D100 = some (.expoll true 4) := by decide +kernel
/-- lease g5, g1, g2; lrel g5; lqry g6, g5 (15). -/
theorem test_decode_leases : decodeIn .s 32 0x0000D54A = some (.lease 5 1 2) ∧ decodeIn .s 32 0x0001D428 = some (.lrel 5) ∧
    decodeIn .s 32 0x0002D5A8 = some (.lqry 6 5) := by decide +kernel
/-- kinc k5, 1 in both forms; krd g3, k4; cinj.fadd 0, g2; cext g3, 0 (16). -/
theorem test_decode_counters : decodeIn .s 32 0x0105BC00 = some (.kinc 5 (.imm 1)) ∧ decodeIn .s 16 0x3805 = some (.kincC16 5) ∧
    decodeIn .s 32 0x0084BCC0 = some (.krd 4 3) := by decide +kernel
theorem test_decode_combining : decodeIn .s 32 0x0100D210 = some (.cinj .fadd 0 2) ∧ decodeIn .s 32 0x0001D2C0 = some (.cext 0 3) := by decide +kernel
/-- trap g2 (18). -/
theorem test_decode_trap : decodeIn .s 32 0x0002DA10 = some (.trap 2) := by decide +kernel
/-- add g3, g1, g2: bit 15, major 0, rd 3, ra 1, rb 2, func 0 (05 Table 5.4). -/
theorem test_decode_add : decodeIn .s 32 0x000080CA = some (.add 3 1 2) := by decide +kernel
/-- roli g3, g1, 5: major 7, X[7:6] = 3 (06 R112). -/
theorem test_decode_roli : decodeIn .s 32 0x00C58EC8 = some (.roli 5 3 1) := by decide +kernel
/-- A field that must be zero, a reserved scope, a word of another length (05 R84, 12 R253). -/
theorem test_decode_refused : decodeIn .s 32 0x0002DA11 = none ∧ decodeIn .s 32 0x000EBE00 = none ∧ decodeIn .s 16 0xDA10 = none := by decide +kernel

/-! ## Scalar words (06) -/

def val (i : Instr) (s : State) (r : GReg) : Option Word := after (exec i s) (fun t => t.g r)

theorem test_add_wraps : val (.add 3 1 2) (b2 1 0xFFFFFFFFFFFFFFFF 2 2) 3 = some 1 := by decide +kernel
theorem test_sub_order : val (.sub 3 1 2) (b2 1 5 2 7) 3 = some 0xFFFFFFFFFFFFFFFE := by decide +kernel
theorem test_mul_low : val (.mul 3 1 2) (b2 1 0x100000001 2 0x100000000) 3 = some 0x100000000 := by decide +kernel
/-- −1 × −1 = 1: the high half is 0; unsigned, (2^64 − 1)² has the high half 2^64 − 2. -/
theorem test_mulh_signs : val (.mulh 3 1 2) (b2 1 0xFFFFFFFFFFFFFFFF 2 0xFFFFFFFFFFFFFFFF) 3 = some 0 ∧
    val (.mulhu 3 1 2) (b2 1 0xFFFFFFFFFFFFFFFF 2 0xFFFFFFFFFFFFFFFF) 3 = some 0xFFFFFFFFFFFFFFFE := by decide +kernel
/-- 06's edge cases: the most negative number by −1, and DIVU of 7 by 0. -/
theorem test_div_edges : val (.div 3 1 2) (b2 1 0x8000000000000000 2 0xFFFFFFFFFFFFFFFF) 3 = some 0x8000000000000000 ∧
    val (.rem 3 1 2) (b2 1 0x8000000000000000 2 0xFFFFFFFFFFFFFFFF) 3 = some 0 ∧
    val (.divu 3 1 2) (b2 1 7 2 0) 3 = some 0xFFFFFFFFFFFFFFFF ∧ val (.remu 3 1 2) (b2 1 7 2 0) 3 = some 7 := by decide +kernel
/-- −7 / 2 = −3 with the remainder −1 (06 R110). -/
theorem test_div_towardZero : val (.div 3 1 2) (b2 1 0xFFFFFFFFFFFFFFF9 2 2) 3 = some 0xFFFFFFFFFFFFFFFD ∧
    val (.rem 3 1 2) (b2 1 0xFFFFFFFFFFFFFFF9 2 2) 3 = some 0xFFFFFFFFFFFFFFFF := by decide +kernel
theorem test_logic : val (.and 3 1 2) (b2 1 0xC 2 0xA) 3 = some 8 ∧ val (.or 3 1 2) (b2 1 0xC 2 0xA) 3 = some 0xE ∧
    val (.xor 3 1 2) (b2 1 0xC 2 0xA) 3 = some 6 ∧ val (.andn 3 1 2) (b2 1 0xC 2 0xA) 3 = some 4 := by decide +kernel
/-- Shift counts are taken modulo 64: 65 shifts by 1. -/
theorem test_shifts : val (.shl 3 1 2) (b2 1 3 2 65) 3 = some 6 ∧ val (.shr 3 1 2) (b2 1 0x8000000000000000 2 65) 3 = some 0x4000000000000000 ∧
    val (.sra 3 1 2) (b2 1 0x8000000000000000 2 65) 3 = some 0xC000000000000000 ∧
    val (.rol 3 1 2) (b2 1 0x8000000000000001 2 65) 3 = some 3 := by decide +kernel
theorem test_minMax : val (.min 3 1 2) (b2 1 0xFFFFFFFFFFFFFFFF 2 1) 3 = some 0xFFFFFFFFFFFFFFFF ∧
    val (.max 3 1 2) (b2 1 0xFFFFFFFFFFFFFFFF 2 1) 3 = some 1 ∧ val (.minu 3 1 2) (b2 1 0xFFFFFFFFFFFFFFFF 2 1) 3 = some 1 ∧
    val (.maxu 3 1 2) (b2 1 0xFFFFFFFFFFFFFFFF 2 1) 3 = some 0xFFFFFFFFFFFFFFFF := by decide +kernel
theorem test_compares : val (.slt 3 1 2) (b2 1 0xFFFFFFFFFFFFFFFF 2 1) 3 = some 1 ∧
    val (.sltu 3 1 2) (b2 1 0xFFFFFFFFFFFFFFFF 2 1) 3 = some 0 ∧ val (.seq 3 1 2) (b2 1 4 2 4) 3 = some 1 := by decide +kernel
theorem test_extensions : val (.sext 3 1 .b) (b1 1 0x1180) 3 = some 0xFFFFFFFFFFFFFF80 ∧ val (.zext 3 1 .h) (b1 1 0x118000) 3 = some 0x8000 := by decide +kernel
theorem test_counts : val (.clz 3 1) (b1 1 1) 3 = some 63 ∧ val (.clz 3 1) (b1 1 0) 3 = some 64 ∧ val (.ctz 3 1) (b1 1 8) 3 = some 3 ∧
    val (.ctz 3 1) (b1 1 0) 3 = some 64 ∧ val (.popc 3 1) (b1 1 0xF0F) 3 = some 8 := by decide +kernel
theorem test_immediates : val (.addi 3 1 0x7FFFF) (b1 1 5) 3 = some 4 ∧ val (.sltiu 3 1 0x7FFFF) (b1 1 5) 3 = some 1 ∧
    val (.slti 3 1 0x7FFFF) (b1 1 5) 3 = some 0 ∧ val (.andi 3 1 0x7FFFE) (b1 1 5) 3 = some 4 ∧ val (.ori 3 1 2) (b1 1 5) 3 = some 7 ∧
    val (.xori 3 1 0x7FFFF) (b1 1 5) 3 = some 0xFFFFFFFFFFFFFFFA := by decide +kernel
theorem test_constantShifts : val (.shli 63 3 1) (b1 1 3) 3 = some 0x8000000000000000 ∧ val (.shri 1 3 1) (b1 1 3) 3 = some 1 ∧
    val (.srai 63 3 1) (b1 1 0x8000000000000000) 3 = some 0xFFFFFFFFFFFFFFFF ∧ val (.roli 1 3 1) (b1 1 0x8000000000000000) 3 = some 1 := by decide +kernel
theorem test_constants : val (.li 3 0x40000) base 3 = some 0xFFFFFFFFFFFC0000 ∧
    val (.lik 0xABCD 3 2) (b1 3 0xFFFFFFFFFFFFFFFF) 3 = some 0xFFFFABCDFFFFFFFF := by decide +kernel
theorem test_compact : val (.addiC16 1 2 0xF) (b1 2 5) 1 = some 4 ∧ val (.subC16 1 2 3) (b2 2 5 3 7) 1 = some 0xFFFFFFFFFFFFFFFE ∧
    val (.liC16 1 0x7F) base 1 = some 0x7F ∧ val (.movC16 1 2) (b1 2 9) 1 = some 9 ∧ val (.addC16 1 2 3) (b2 2 1 3 2) 1 = some 3 ∧
    val (.andC16 1 2 3) (b2 2 6 3 3) 1 = some 2 ∧ val (.orC16 1 2 3) (b2 2 6 3 3) 1 = some 7 ∧ val (.xorC16 1 2 3) (b2 2 6 3 3) 1 = some 5 ∧
    val (.shliC16 1 2 4) (b1 2 3) 1 = some 48 ∧ val (.shriC16 1 2 4) (b1 2 48) 1 = some 3 := by decide +kernel
theorem test_nop : after (exec .nop base) (fun t => t.fibre.body.pc) = some 0x10004 ∧
    after (exec .nopC16 base) (fun t => t.fibre.body.pc) = some 0x10002 := by decide +kernel

/-- The clauses of ScalarDivision: each case of the divisor. -/
theorem witness_ScalarDivision : (b2 1 7 2 0).g 2 = 0 ∧
    ((b2 1 0x8000000000000000 2 0xFFFFFFFFFFFFFFFF).g 1 = 0x8000000000000000 ∧
      (b2 1 0x8000000000000000 2 0xFFFFFFFFFFFFFFFF).g 2 = 0xFFFFFFFFFFFFFFFF) ∧
    ((b2 1 7 2 2).g 2 ≠ 0 ∧ ¬((b2 1 7 2 2).g 1 = 0x8000000000000000 ∧ (b2 1 7 2 2).g 2 = 0xFFFFFFFFFFFFFFFF)) := by decide +kernel

/-! ## Blocks, jumps, branches, tasks -/

/-- The three streams of a cell at a header outside a block, as the actor. -/
def atS : State := base.updFibre (fun f => { f with body := { f.body with blk := none } })
def atStream (st : Stream) : State :=
  { base with cur := { cell := 0, slot := 17, stream := st } }
def engAt (blk : Option Block) : Engine := { Engine.idle with run := some { pc := 0x10000, blk := blk, branch := none } }
def vBase : State := (atStream .v).updHere (fun c => { c with v := { c.v with eng := engAt (some blk0) } })
def mBase : State := (atStream .m).updHere (fun c => { c with m := { c.m with eng := engAt (some blk0) } })

theorem witness_BlockHeaders : atS.cur.stream = .s ∧ vBase.cur.stream = .v ∧ mBase.cur.stream = .m := by decide +kernel
/-- blk of 2 × 2 bytes with count 3; a count register of 0 leads past the body. -/
theorem test_blk : after (exec (.blk 3 0 2) atS) (fun t => (t.fibre.body.pc, t.fibre.body.blk)) =
      some (0x10004, some { start := 0x10004, fin := 0x10008, left := 3 }) ∧
    after (exec (.blk 0 1 2) atS) (fun t => (t.fibre.body.pc, t.fibre.body.blk)) = some (0x10008, none) ∧
    after (exec (.blk 0 9 2) vBase) (fun t => t.here.v.eng.run) = some (some { pc := 0x10008, blk := none, branch := none }) := by decide +kernel

theorem witness_Jumps : base.fibre.body.blk = some blk0 ∧ (b1 1 0x20000).g 1 + (0 : BitVec 16).signExtend 64 * 4 ≠ 0 ∧
    base.g 1 + (0 : BitVec 16).signExtend 64 * 4 = 0 ∧
    (base.fibre.body.pc + (1 : BitVec 25).signExtend 64 * 4).extractLsb' 0 2 = 0 ∧
    ((b1 1 2).g 1 + (0 : BitVec 16).signExtend 64 * 4).extractLsb' 0 2 ≠ 0 := by decide +kernel
theorem test_jumps : after (exec (.j 0x1FFFFFF) base) (fun t => (t.fibre.body.pc, t.fibre.body.blk)) = some (0xFFFC, none) ∧
    after (exec (.jal 2) base) (fun t => (t.fibre.body.pc, t.g 7)) = some (0x10008, 0x10040) ∧
    after (exec (.jr 1 1) (b1 1 0x20000)) (fun t => t.fibre.body.pc) = some 0x20004 ∧
    after (exec (.jalr 0 2 1) (b1 1 0x20000)) (fun t => (t.fibre.body.pc, t.g 2)) = some (0x20000, 0x10040) ∧
    trapClass (exec (.jr 0 1) (b1 1 2)) = some cBLOCK := by decide +kernel
theorem witness_Branches : (b2 1 4 2 4).g 1 = (b2 1 4 2 4).g 2 ∧ (b2 1 4 2 5).g 1 ≠ (b2 1 4 2 5).g 2 ∧
    ((b2 1 4 2 5).g 1).toInt < ((b2 1 4 2 5).g 2).toInt ∧ (b2 1 4 2 4).g 1 ≠ 0 ∧ base.g 1 = 0 ∧
    (base.fibre.body.pc + (2 : BitVec 16).signExtend 64 * 4).extractLsb' 0 2 = 0 := by decide +kernel
theorem test_branches : (∀ i ∈ [Instr.beq 2 1 2, .bge 2 1 2, .bgeu 2 1 2, .bnz 2 1, .bnzC16 1 2],
      after (exec i (b2 1 4 2 4)) (fun t => t.fibre.body.pc) = some 0x10008) ∧
    (∀ i ∈ [Instr.bne 2 1 2, .blt 2 1 2, .bltu 2 1 2, .bz 2 1], after (exec i (b2 1 4 2 4)) (fun t => t.fibre.body.pc) = some 0x10004) ∧
    after (exec (.blt 2 1 2) (b2 1 0xFFFFFFFFFFFFFFFF 2 0)) (fun t => t.fibre.body.pc) = some 0x10008 ∧
    after (exec (.bltu 2 1 2) (b2 1 0xFFFFFFFFFFFFFFFF 2 0)) (fun t => t.fibre.body.pc) = some 0x10004 ∧
    after (exec (.bzC16 1 2) base) (fun t => t.fibre.body.pc) = some 0x10008 := by decide +kernel

/-- The task with a posted request open, and one with a private region. -/
def posted : State := base.updFibre (fun f => { f with body := { f.body with outst := 1 } })
def withPriv : State :=
  (base.updFibre (fun f => { f with body := { f.body with priv := some 0x40000 } })).updLaunch 0 (fun l => { l with regions := [0x40000], privSize := 256 })

theorem witness_EndAndYield : posted.fibre.body.outst ≠ 0 ∧ base.fibre.body.outst = 0 ∧ base.fibre.body.kind = .task ∧
    base.here.fibres.wf = true ∧ base.fibre.body.priv = none ∧ (withPriv.fibre.body.priv = some 0x40000 ∧ withPriv.here.launch = some 0) ∧
    base.here.idx base.myLaunch < 1024 ∧ base.here.role < 16 ∧ base.cur.slot < 256 := by decide +kernel
theorem test_tend : after (exec .tend withPriv) (fun t => (t.here.fibres.find 17, (t.launch 0).regions)) = some (none, []) ∧
    after (exec .tendC16 posted) (fun t => t.fibre.status) = some (.parked (.retry .outst0 15 1) 0) := by decide +kernel
theorem test_yield : after (exec .yield base) (fun t => (t.fibre.status, t.fibre.body.pc)) = some (.issued 1, 0x10004) ∧
    after (exec .yieldC16 (base.updLaunch 0 (fun l => { l with preempt := true }))) (fun t => (t.fibre.status, t.fibre.body.pc)) =
      some (.saved, 0x10002) := by decide +kernel
theorem test_fibid : val (.fibid 2) base 2 = some 17 := by decide +kernel

/-- A deque that is full. -/
def fullDeque : State := (b1 1 0x20000).updHere (fun c => { c with deque := List.replicate 64 { task := ⟨0, 0, 0, 0, 0⟩, entered := 0 } })

theorem witness_PushAndSpawn : ((b1 1 0x1000000000000000).g 1).extractLsb' 60 4 ≠ 0 ∧
    (((b1 1 0x20002).g 1).extractLsb' 60 4 = 0 ∧ ((b1 1 0x20002).g 1).extractLsb' 0 2 ≠ 0) ∧
    (((b1 1 0x20000).g 1).extractLsb' 60 4 = 0 ∧ ((b1 1 0x20000).g 1).extractLsb' 0 2 = 0) ∧ base.fibre.body.outst = 0 ∧
    posted.fibre.body.outst ≠ 0 ∧ base.spawnTarget 0x8000000000000002 = none ∧ base.spawnTarget 0x8000000000000000 = some base.cur.cell ∧
    (base.spawnTarget 0x8000000000000001 = some 1 ∧ 1 ≠ base.cur.cell) ∧
    (b1 1 0x20000).here.deque.length < 64 ∧ 64 ≤ fullDeque.here.deque.length := by decide +kernel
theorem test_pusht : after (exec (.pusht 1) (b2 0 7 1 0x20000)) (fun t => t.here.deque) =
      some [{ task := ⟨0x20000, 7, 0x20000, 0, 0⟩, entered := 0 }] ∧
    after (exec (.pusht 1) fullDeque) (fun t => (t.fibre.body.pc, t.g 7, t.here.deque.length)) = some (0x20000, 0x10040, 64) := by decide +kernel
theorem test_spawn : after (exec (.spawn 1 2) (b2 1 0x20000 2 0x8000000000000001)) (fun t => (t.net.length, t.fibre.status)) =
    some (1, .parked (.spawn 0 0x8000000000000001 ⟨0x20000, 0, 0x20000, 0x8000000000000001, 0⟩ 4) 0) := by decide +kernel

/-- Four requests in the V fork queue. -/
def fullForks : State := (b1 1 0x20000).updHere (fun c => { c with v := { c.v with eng := { c.v.eng with forks := List.replicate 4 ⟨0, 0, 0, 0, 0⟩ } } })

theorem witness_Forks : Stream.v ≠ .s ∧ ((b1 1 0x20000).here.engOf .v).forks.length < 4 ∧ (b1 1 0x20000).behind .forkV = false ∧
    ((b1 1 0x20000).here.engOf .m).forks.length < 4 ∧ (b1 1 0x20000).behind .forkM = false ∧
    4 ≤ (fullForks.here.engOf .v).forks.length ∧ ((b1 1 0x20000).g 1).extractLsb' 60 4 = 0 ∧ ((b1 1 0x20000).g 1).extractLsb' 0 2 = 0 := by decide +kernel
theorem test_forks : after (exec (.forkm 1) (b2 0 3 1 0x20000)) (fun t => (t.here.m.eng.forks, t.here.v.eng.forks)) =
      some ([⟨0x20000, 3, 0x20000, 0, 0⟩], []) ∧
    after (exec (.forkv 1) (b1 1 0x20000)) (fun t => t.here.v.eng.forks.length) = some 1 ∧
    after (exec (.forkv 1) fullForks) (fun t => t.fibre.status) = some (.parked (.retry .forkV 12 0x20000) 0) := by decide +kernel

/-! ## Special registers and traps -/

theorem witness_SpecialRegisterReads : base.fibre.body.kind = .task ∧ (base.updFibre (fun f => { f with body := { f.body with kind := .handler 0 } })).fibre.body.kind.isHandler = true ∧
    base.Settled 0x20 ∧ base.here.pmCode 0 ≠ 5 ∧ (0x14 ≤ (0x14 : BitVec 8).toNat ∧ (0x14 : BitVec 8).toNat < 0x20) ∧
    (0x14 ≤ (0x25 : BitVec 8).toNat ∧ 0x24 < (0x25 : BitVec 8).toNat) :=
  ⟨by decide +kernel, by decide +kernel, nofun, by and_intros <;> decide +kernel⟩
/-- Cell (1, 0) of a launch of width 2 has index 1 (06 Table 6.5); the kernel id, role and shape in LGEOM. -/
theorem test_mfs : after (exec (.mfs 0 1) { base with cur := { cell := 1, slot := 17, stream := .s } }) (fun t => t.g 1) = some 0x10001 ∧
    val (.mfs 1 1) (base.updLaunch 0 (fun l => { l with kernelId := 7, roleCount := 3 })) 1 = some 0x0000000700030102 ∧
    val (.mfs 2 1) { base with device := 5 } 1 = some 0x0000000500000000 ∧ val (.mfs 4 1) base 1 = some 1 ∧
    val (.mfs 0x0F 1) base 1 = some 140000 ∧ trapClass (exec (.mfs 0x14 1) base) = some cPRIV := by decide +kernel
/-- PCELL of the cell at column 3, row 5: member 3 of cluster 13 on die 0. -/
theorem test_mfs_pcell : after (exec (.mfs 2 1) { base with cur := { cell := 123, slot := 17, stream := .s } }) (fun t => t.g 1) =
    some 0x0C0D0503 := by decide +kernel

def inHandler (k : FKind) : State := base.updFibre (fun f => { f with body := { f.body with kind := k } })
def trapHandler : State :=
  base.updFibre (fun f => { f with body := { f.body with kind := .trap .fibre }, frame := some { fib0.body with pc := 0x10008 } })
def routed : State := (b1 1 0x5123).updLaunch 0 (fun l => { l with flags := 8 })

theorem witness_SpecialRegisterWrites : trapHandler.fibre.body.kind.isTrap = true ∧ base.fibre.body.kind.isTrap = false ∧
    base.myLaunch.flags.getLsbD 3 = false ∧
    (routed.here.launch = some 0 ∧ routed.myLaunch.flags.getLsbD 3 = true ∧ ∀ e ∈ routed.routers, e.2.hist = []) ∧
    ((0x03 : BitVec 8).toNat < 4 ∧ (0x03 : BitVec 8) ≠ 9) ∧ (7 < (0x1F : BitVec 8).toNat ∧ (0x1F : BitVec 8).toNat < 0x20) ∧
    0x24 < (0x25 : BitVec 8).toNat := by decide +kernel
theorem test_mts : after (exec (.mts 5 1) (b1 1 3)) (fun t => (t.here.qovf, t.here.late)) = some (true, [{ reg := 5, till := base.now + 5, old := 0 }]) ∧
    after (exec (.mtsSeed 1) (b1 1 0x500000000)) (fun t => t.here.seed) = some 1 ∧
    after (exec (.mts 0x20 1) (b1 1 9)) (fun t => t.here.pmc[0]) = some 9 ∧
    after (exec (.mtsRouter 1) routed) (fun t => (t.launch 0).router) = some 0x5000 ∧
    trapClass (exec (.mtsRouter 1) base) = some cPRIV ∧ trapClass (exec (.mts 0 1) base) = some cPRIV ∧
    after (exec (.mtsTrappc 1) ((trapHandler).putG 1 0x10010)) (fun t => (t.fibre.trap.pc, t.fibre.trap.written)) = some (0x10010, true) := by decide +kernel

/-- One VALID descriptor of capacity 1 at 0x40, with a count. -/
def binTable (count : Nat) : State :=
  (b1 1 0x40).updHere (fun c => { c with spad := c.spad.write 0x40 16 (2 ^ 96 + count * 2 ^ 48 + 2 ^ 32 + 0x100) false })
def binsLoaded : BinLoad → Option Nat
  | .ok l => some l.length
  | _ => none

theorem witness_BinTableLoad : binsLoaded (loadBins (binTable 0).here.spad 1024 0x40 0) = some 1 ∧
    (∃ i, loadBins (binTable 2).here.spad 1024 0x40 0 = .bad i) ∧ (∃ o, loadBins (binTable 0).here.spad 1024 0xF0000 0 = .outside o) :=
  ⟨by decide +kernel, ⟨0, rfl⟩, _, rfl⟩
theorem test_binbase : after (exec (.mtsBinbase 1) (binTable 1)) (fun t => (t.here.binbase, t.here.bins.length)) = some (0x40, 1) ∧
    after (exec (.mtsBinbase 1) (binTable 2)) (fun t => (t.here.binbase, t.here.bins.length)) = some (0, 0) ∧
    trapClass (exec (.mtsBinbase 1) (binTable 2)) = some cROUTE := by decide +kernel

theorem witness_SpecialRegisterWordsGoOn : (0x13 : BitVec 8).toNat < 0x14 ∧ (0x20 ≤ (0x24 : BitVec 8).toNat ∧ (0x24 : BitVec 8).toNat ≤ 0x24) ∧ (0x05 : BitVec 8).toNat = 0x05 ∧
    routed.here.launch = some 0 ∧ routed.myLaunch.flags.getLsbD 3 = true ∧ binsLoaded (loadBins (binTable 1).here.spad 1024 0x40 0) = some 1 := by decide +kernel

/-- Every class has the action HANDLER, or IGNORE for the three that may have it, and the handler is at 0x20000. -/
def handled (s : State) : State := s.updLaunch 0 (fun l => { l with actions := 0x5555555555555555, handlerPc := 0x20000 })
def ignored (s : State) : State := s.updLaunch 0 (fun l => { l with actions := 0xAAAAAAAAAAAAAAAA })

theorem witness_ExactTrapEntry : (cALIGN < 32 ∧ fld (handled base).myLaunch.actions (2 * cALIGN + 1) (2 * cALIGN) = 1 ∧
      (handled base).fibre.body.kind = .task) ∧
    (fld base.myLaunch.actions (2 * cALIGN + 1) (2 * cALIGN) ≠ 1 ∧ base.fibre.body.kind = .task) ∧
    (inHandler (.server 0)).fibre.body.kind = .server 0 ∧ trapHandler.fibre.body.kind = .trap .fibre := by decide +kernel
/-- TRAPDETAIL in g1, TRAPPC in g2, the code in g0 (18 R359), and the trapped fibre in the frame. -/
theorem test_trapEntry : (let t := (handled base).trap cALIGN 0x77; (t.g 0, t.g 1, t.g 2, t.fibre.body.pc, t.fibre.frame.map (·.pc))) =
    (w64 cALIGN, 0x77, 0x10000, 0x20000, some 0x10000) := by decide +kernel
theorem witness_SoftwareTraps : (base.fibre.body.kind = .task ∧ fld base.myLaunch.actions (2 * 0x18 + 1) (2 * 0x18) = 0) ∧
    fld (handled base).myLaunch.actions (2 * 0x17 + 1) (2 * 0x17) = 1 ∧ fld (ignored base).myLaunch.actions (2 * 0x18 + 1) (2 * 0x18) = 2 := by decide +kernel
theorem test_softwareTraps : after (exec (.trap 1) (handled (b1 1 9))) (fun t => (t.fibre.trap.detail, t.fibre.trap.pc)) = some (9, 0x10004) ∧
    after (exec (.brk 5) (handled base)) (fun t => (t.fibre.trap.code, t.fibre.trap.detail)) = some (0x17, 5) ∧
    after (exec (.trap 1) (ignored base)) (fun t => t.fibre.body.pc) = some 0x10004 := by decide +kernel

/-- The handler of an M trap, with the stream of the engine that it stopped. -/
def engHandler : State :=
  (inHandler (.trap .m)).updHere (fun c => { c with m := { c.m with eng := { engAt none with stopped := true } } })
theorem witness_ReturnFromTrap : base.fibre.body.kind.isTrap = false ∧
    (let s := trapHandler.updFibre (fun f => { f with body := { f.body with outst := 2 } }); s.fibre.body.kind.isTrap = true ∧ s.fibre.body.outst ≠ 0) ∧
    (trapHandler.fibre.body.kind = .trap .fibre ∧ trapHandler.fibre.body.outst = 0 ∧
      trapHandler.fibre.frame.map (fun b => (b.kind, b.ending)) = some (.task, false)) ∧
    (engHandler.fibre.body.kind = .trap .m ∧ engHandler.fibre.body.outst = 0 ∧
      (engHandler.here.engOf .m).run = some { pc := 0x10000, blk := none, branch := none } ∧ engHandler.here.fibres.wf = true) := by decide +kernel
theorem test_rtt : after (exec .rtt trapHandler) (fun t => (t.fibre.body.pc, t.fibre.status, t.fibre.body.kind)) = some (0x10008, .ready, .task) ∧
    after (exec .rttDrop trapHandler) (fun t => t.fibre.body.ending) = some true ∧
    after (exec .rtt engHandler) (fun t => (t.here.m.eng.stopped, t.here.fibres.find 17)) = some (false, none) ∧
    after (exec .rttDrop engHandler) (fun t => t.here.m.eng.run) = some none ∧ trapClass (exec .rtt base) = some cILLEGAL := by decide +kernel

/-! ## Loads, stores, full/empty words (12) -/

/-- `base` with bytes in the own scratchpad, g1 the address and g2 the data. -/
def memBase (a d : Word) : State :=
  ((b2 1 a 2 d).updHere (fun c => { c with spad := c.spad.write 0x100 16 0xFFEEDDCCBBAA99888877665544332211 false }))
def poisoned (s : State) : State := s.updHere (fun c => { c with spad := { c.spad with poison := [4] } })
/-- LOCAL 0x100; the other cell's word 0x100; GLOBAL 0x10100; the same on device 1. -/
def own : Word := 0xA000000000000100
def other : Word := 0x8000000000100100
def glob : Word := 0x10100
def remote : Word := 0x1001000000010100

theorem own_reached (n : Nat) (hn : n ∈ [1, 2, 4, 8]) : (memBase own 5).ReachesOwn own n 0x100 := by
  simp only [List.mem_cons, List.not_mem_nil, or_false] at hn
  obtain rfl | rfl | rfl | rfl := hn <;> exact ⟨rfl, by decide +kernel, by decide +kernel⟩
theorem other_reached : (memBase other 5).ReachesFar other 8 (.spad 1 0x100) :=
  ⟨by decide +kernel, .inl ⟨1, 0x100, rfl, by decide +kernel, by decide +kernel, rfl⟩⟩
theorem glob_reached : (memBase glob 5).ReachesFar glob 8 (.global 0x10100) :=
  ⟨by decide +kernel, .inr (.inl ⟨0x10100, rfl, rfl⟩)⟩
theorem remote_reached : (memBase remote 5).ReachesFar remote 8 (.device 1 remote) :=
  ⟨by decide +kernel, .inr (.inr ⟨1, rfl, nofun, rfl⟩)⟩

/-- A launch spread over devices 0 and 1: cell 0 of device 1, at the hardware-managed area and below it. -/
def spreadBase (a : Word) : State := (memBase a 5).updLaunch 0 (fun l => { l with spread := [0, 1] })
theorem farArea_reached : (spreadBase 0xE0010000000F0000).ReachesFarArea 0xE0010000000F0000 8 := ⟨1, by decide +kernel, rfl, by decide⟩
theorem farCell_reached : (spreadBase 0xE0010000000EFFF8).ReachesFar 0xE0010000000EFFF8 8 (.device 1 0xE0010000000EFFF8) :=
  ⟨by decide, .inr (.inr ⟨1, by decide +kernel, fun _ => by decide, rfl⟩)⟩

theorem witness_Loads : (memBase own 0).here.spad.bad 0x100 8 = false ∧ (poisoned (memBase own 0)).here.spad.bad 0x100 8 = true ∧
    (b1 1 0xF000000000000000).resolveHere 0xF000000000000000 8 = none ∧
    ((memBase (own + 1) 0).resolveHere (own + 1) 8 = some (.spad 0 0x101) ∧ 0x101 + 8 ≤ 0xF0000 ∧ (own + 1).toNat % 8 ≠ 0) ∧
    (base.resolveHere 0x10101 8 = some (.global 0x10101) ∧ (0x10101 : Word).toNat % 8 ≠ 0) := by decide +kernel
theorem test_ld_extends : val (.ld 7 3 1 .b) (memBase own 0) 3 = some 0xFFFFFFFFFFFFFF88 ∧ val (.ld 7 3 1 .bu) (memBase own 0) 3 = some 0x88 ∧
    val (.ld 6 3 1 .h) (memBase own 0) 3 = some 0xFFFFFFFFFFFF8877 ∧ val (.ld 4 3 1 .wu) (memBase own 0) 3 = some 0x88776655 ∧
    val (.ld 0xFFF8 3 1 .d) (memBase (own + 8) 0) 3 = some 0x8877665544332211 ∧ val (.lddC16 3 1 1) (memBase own 0) 3 = some 0xFFEEDDCCBBAA9988 := by decide +kernel
theorem test_ld_traps : trapClass (exec (.ld 0 3 1 .d) (poisoned (memBase own 0))) = some cPOISON ∧ val (.ld 0 3 1 .dp) (poisoned (memBase own 0)) 3 = some 1 ∧
    trapClass (exec (.ld 1 3 1 .d) (memBase own 0)) = some cALIGN ∧ trapClass (exec (.ld 0 3 1 .d) (memBase 0xF000000000000000 0)) = some cAPERTURE := by decide +kernel
theorem test_ld_asks : after (exec (.ld 0 3 1 .d) (memBase glob 0)) (fun t => (t.net.length, t.fibre.status)) =
    some (1, .parked (.reply 0 0x10100 (some 3) .d none 4) 0) := by decide +kernel

theorem witness_Stores : Memory.wf (memBase own 0).here.spad.bytes = true ∧
    (base.resolveHere 0xA0000000000EFFFC 8 = some (.spad 0 0xEFFFC) ∧ 0xF0000 < 0xEFFFC + 8) ∧
    (memBase glob 0).fibre.body.outst < 64 ∧ (let s := (memBase glob 0).updFibre (fun f => { f with body := { f.body with outst := 64 } }); 64 ≤ s.fibre.body.outst) := by decide +kernel
theorem test_st : after (exec (.st 0 2 1 .h) (memBase own 0xABCD)) (fun t => t.here.spad.read 0x100 4) = some 0x4433ABCD ∧
    after (exec (.stdC16 2 1 1) (memBase own 0)) (fun t => t.here.spad.read 0x100 16) = some 0x8877665544332211 ∧
    after (exec (.st 0 2 1 .d) (memBase glob 5)) (fun t => (t.fibre.body.outst, t.net.length)) = some (1, 1) := by decide +kernel

theorem witness_AcquireReleaseAccesses : (memBase own 0).here.spad.bad 0x100 8 = false ∧ (memBase own 0).fibre.body.outst = 0 ∧
    (Scope.cell ≠ .fibre ∧ ((memBase own 0).updFibre (fun f => { f with body := { f.body with outst := 3 } })).fibre.body.outst ≠ 0) ∧
    base.resolveHere 0xF000000000000000 8 = none := by decide +kernel
theorem test_ldacq : val (.ldacq .device 0 3 1) (memBase own 0) 3 = some 0x8877665544332211 ∧
    after (exec (.strel .device 0 2 1) (memBase own 6)) (fun t => t.here.spad.read 0x100 8) = some 6 := by decide +kernel

def tagged (d : Word) : State := (memBase own d).updHere (fun c => { c with spad := { c.spad with full := [0x20] } })
theorem witness_FullEmptyWords : (tagged 0).here.fe = [] ∧ (tagged 0).here.spad.bad 0x100 8 = false ∧
    Memory.wf (tagged 0).here.spad.bytes = true ∧ (tagged 0).here.spad.full.Pairwise (· < ·) ∧ (tagged 0).tagOf 0x100 = true ∧
    (memBase own 0).tagOf 0x100 = false ∧ (tagged 0).fibre.body.outst = 0 := by decide +kernel
theorem test_fullEmpty : after (exec (.ldfeTake 0 3 1) (tagged 0)) (fun t => (t.g 3, t.tagOf 0x100)) = some (0x8877665544332211, false) ∧
    after (exec (.ldfePeek 0 3 1) (tagged 0)) (fun t => (t.g 3, t.tagOf 0x100)) = some (0x8877665544332211, true) ∧
    val (.ldfeTag 0 3 1) (tagged 0) 3 = some 1 ∧ after (exec (.stfePut 0 2 1) (memBase own 7)) (fun t => (t.here.spad.read 0x100 8, t.tagOf 0x100)) = some (7, true) ∧
    after (exec (.stfeForce 0 2 1) (tagged 7)) (fun t => (t.here.spad.read 0x100 8, t.tagOf 0x100)) = some (7, true) ∧
    after (exec (.stfeClear 0 1) (tagged 7)) (fun t => t.tagOf 0x100) = some false := by decide +kernel

/-! ## Full/empty elsewhere, atomics, messages, fences (12) -/

theorem witness_FullEmptyElsewhere : (∀ va, MemPlace.spad 1 0x100 ≠ .global va) ∧
    (∀ k y, MemPlace.spad 1 0x100 ≠ .device k y) ∧
    (memBase other 5).fibre.body.outst = 0 ∧ base.resolveHere 0xF000000000000000 8 = none ∧
    base.resolveHere glob 8 = some (.global 0x10100) ∧
    (base.resolveHere (other + 1) 8 = some (.spad 1 0x101) ∧ 0x101 + 8 ≤ 0xF0000 ∧ (other + 1).toNat % 8 ≠ 0) :=
  ⟨(fun _ h => nomatch h), (fun _ _ h => nomatch h), by and_intros <;> decide +kernel⟩
theorem test_fullEmptyElsewhere : after (exec (.ldfeTake 0 3 1) (memBase other 5)) (fun t => (t.net.length, t.fibre.status)) =
      some (1, .parked (.fe 0 other (some 3) (some .device) 4) 0) ∧
    after (exec (.stfeForce 0 2 1) (memBase other 5)) (fun t => (t.net.length, t.fibre.body.outst)) = some (1, 1) ∧
    trapClass (exec (.ldfeTag 0 3 1) (memBase glob 5)) = some cAPERTURE := by decide +kernel

theorem witness_Atomics : amoOk true .relaxed 0 = true ∧ amoOk false .acqRel 3 = true ∧
    (Order.relaxed.releases = false ∧ (memBase own 5).here.spad.bad 0x100 8 = false ∧ Memory.wf (memBase own 5).here.spad.bytes = true) ∧
    (poisoned (memBase own 5)).here.spad.bad 0x100 8 = true ∧ (memBase own 5).fibre.body.outst = 0 ∧
    (let s := (memBase own 5).updFibre (fun f => { f with body := { f.body with outst := 1 } });
      ¬(Order.release.releases = false ∨ Scope.cell = .fibre ∨ s.fibre.body.outst = 0)) ∧
    base.resolveHere 0xF000000000000000 8 = none ∧ (base.resolveHere 0xA0000000000EFFFC 8 = some (.spad 0 0xEFFFC) ∧ 0xF0000 < 0xEFFFC + 8) ∧
    (base.resolveHere (own + 2) 8 = some (.spad 0 0x102) ∧ 0x102 + 8 ≤ 0xF0000 ∧ (own + 2).toNat % 8 ≠ 0) := by decide +kernel
def amoVal (i : Instr) (d : Word) : Option (Nat × Word) := after (exec i (memBase own d)) (fun t => (t.here.spad.read 0x100 8, t.g 3))
theorem test_atomics : amoVal (.aadd false .w64 .relaxed .cell 3 1 2) 0xEF = some (0x8877665544332300, 0x8877665544332211) ∧
    amoVal (.aadd false .w32 .relaxed .cell 3 1 2) 0xBBCCDDEF = some (0x8877665500000000, 0x44332211) ∧
    amoVal (.amin false .w64 .relaxed .cell 3 1 2) 5 = some (0x8877665544332211, 0x8877665544332211) ∧
    amoVal (.amax false .w64 .relaxed .cell 3 1 2) 5 = some (5, 0x8877665544332211) ∧
    amoVal (.aminu false .w64 .relaxed .cell 3 1 2) 5 = some (5, 0x8877665544332211) ∧
    amoVal (.amaxu false .w64 .relaxed .cell 3 1 2) 5 = some (0x8877665544332211, 0x8877665544332211) := by decide +kernel
theorem test_atomics_bits : amoVal (.aand false .w64 .relaxed .cell 3 1 2) 0xFF = some (0x11, 0x8877665544332211) ∧
    amoVal (.aor false .w64 .relaxed .cell 3 1 2) 0xFF = some (0x88776655443322FF, 0x8877665544332211) ∧
    amoVal (.axor false .w64 .relaxed .cell 3 1 2) 0x11 = some (0x8877665544332200, 0x8877665544332211) ∧
    amoVal (.aswp true .w64 .relaxed .cell 0 1 2) 7 = some (7, 0) ∧
    after (exec (.acas .w64 .relaxed .cell 3 1 2) ((memBase own 7).putG 3 0x8877665544332211)) (fun t => t.here.spad.read 0x100 8) = some 7 ∧
    amoVal (.acas .w64 .relaxed .cell 3 1 2) 7 = some (0x8877665544332211, 0x8877665544332211) := by decide +kernel
/-- 1.5 + 2.25 = 3.75 in F32. -/
theorem test_afadd : after (exec (.afadd false .w32 .relaxed .cell 3 1 2) ((memBase own 0x40100000).updHere (fun c => { c with spad := c.spad.write 0x100 4 0x3FC00000 false })))
    (fun t => (t.here.spad.read 0x100 4, t.g 3)) = some (0x40700000, 0x3FC00000) := by decide +kernel

theorem own_named : (b2 1 own 2 0x20000).NamesCell own 0 0 := .inl ⟨rfl, 0x100, rfl⟩
theorem witness_MessagesSent : Order.release.acquires = false ∧ base.fibre.body.kind.isHandler = false ∧
    (b2 1 0xF000000000000000 2 0x20000).resolveHere 0xF000000000000000 1 = none ∧
    ((0x1000000000020000 : Word).extractLsb' 60 4 ≠ 0) ∧ ((0x20002 : Word).extractLsb' 60 4 = 0 ∧ (0x20002 : Word).extractLsb' 0 2 ≠ 0) ∧
    ((0x20000 : Word).extractLsb' 60 4 = 0 ∧ (0x20000 : Word).extractLsb' 0 2 = 0 ∧ base.fibre.body.outst = 0) := by decide +kernel
theorem test_amsend : after (exec (.amsend false .relaxed .cell 0 1 2) (b2 1 own 2 0x20000)) (fun t => (t.net.length, t.fibre.status, t.here.reqseq)) =
      some (1, .parked (.amAccept 0 0x8000000000000100 4) 0, 1) ∧
    after (exec (.amsend true .relaxed .cell 3 1 2) (b2 1 own 2 0x20000)) (fun t => t.fibre.status) =
      some (.parked (.amReply 0 0x8000000000000100 3 .cell false false 4) 0) ∧
    after (exec (.deleg .relaxed .cell 3 1 2) (b2 1 own 2 0x20000)) (fun t => t.fibre.status) =
      some (.parked (.amReply 0 0x8000000000000100 3 .cell true false 4) 0) := by decide +kernel

/-- A handler that serves entry 0, which owes a reply. -/
def amEntry : AmEntry :=
  { free := false, order := 0, front := 0, valid := true, running := true, deleg := false, reply := true, held := false, id := 0,
    sender := 0, target := 0, a0 := 0, a1 := 0, a2 := 0, a3 := 0, pc := 0x20000, scope := .cell, from_ := ⟨0, 1, 17, 0, 0⟩ }
def serving (k : FKind) : State :=
  ((b2 1 own 2 0x20000).updFibre (fun f => { f with body := { f.body with kind := k } })).updHere (fun c => { c with am := [(0, amEntry)] })
def sent8 : State := (serving (.handler 0)).updFibre (fun f => { f with body := { f.body with sends := List.replicate 8 ⟨0, 0, 0, 0, 0, 0, .relaxed, .cell⟩ } })

theorem witness_HandlerSends : (serving (.handler 0)).fibre.body.kind.isHandler = true ∧ (serving (.handler 0)).fibre.body.sends.length < 8 ∧
    8 ≤ sent8.fibre.body.sends.length ∧ (serving (.handler 0)).resolveHere own 1 = some (.spad 0 0x100) ∧
    ((serving (.handler 0)).g 2).extractLsb' 60 4 = 0 ∧ ((serving (.handler 0)).g 2).extractLsb' 0 2 = 0 := by decide +kernel
theorem test_handlerSends : after (exec (.amsend false .relaxed .cell 0 1 2) (serving (.handler 0))) (fun t => (t.fibre.body.sends.length, t.net.length)) = some (1, 0) ∧
    trapClass (exec (.amsend false .relaxed .cell 0 1 2) sent8) = some cHANDLER := by decide +kernel
theorem witness_Replies : base.fibre.body.kind.entry? = none ∧
    ((serving (.handler 0)).fibre.body.kind.entry? = some 0 ∧ (serving (.handler 0)).here.am.find 0 = some amEntry ∧ amEntry.reply = true ∧
      (serving (.handler 0)).fibre.body.replied = false ∧ (serving (.handler 0)).fibre.body.outst = 0) ∧
    ((serving (.server 0)).fibre.body.kind = .server 0 ∧ amEntry.from_.dev = (serving (.server 0)).device) ∧ amEntry.scope ≠ .fibre := by decide +kernel
theorem test_amreply : after (exec (.amreply 1) (serving (.handler 0))) (fun t => (t.fibre.body.replyBuf, t.net.length)) = some (some own, 0) ∧
    after (exec (.amreply 1) (serving (.server 0))) (fun t => (t.fibre.body.replied, t.net.length)) = some (true, 1) ∧
    trapClass (exec (.amreply 1) base) = some cILLEGAL := by decide +kernel

/-- An L1 with a sector at GLOBAL 0x10000 (device memory 0) whose byte 1 is dirty and holds 0xAB. -/
def cached (a n : Word) : State :=
  (b2 1 a 2 n).updHere (fun c => { c with l1 := [{ va := 0x400, pa := 0, data := 0xAB00, valid := BitVec.allOnes 64, dirty := 2, poison := false }] })
theorem witness_Fences : (cached 0 0).MemWf ∧ ((cached 0 0).sectorsOf 0).Pairwise (fun x y => x.pa ≠ y.pa) ∧ (cached 0 0).fibre.body.outst = 0 ∧
    (Scope.device ≠ .fibre ∧ Scope.device ≠ .cell ∧ (Scope.device = .cluster → ((cached 0 0).l1Cells 0).length = 1)) ∧
    (posted.fibre.body.outst ≠ 0 ∧ Scope.cell ≠ .fibre) := ⟨by unfold State.MemWf; decide, by and_intros <;> decide +kernel⟩
theorem test_fences : after (exec (.fenceRel .device) (cached 0 0)) (fun t => (Mem.read t.mem 1, t.here.l1.map (·.dirty))) = some (0xAB, [0]) ∧
    after (exec (.fenceAcq .device) (cached 0 0)) (fun t => (Mem.read t.mem 1, t.here.l1.map (·.valid))) = some (0, [2]) ∧
    after (exec (.fenceSc .domain) (cached 0 0)) (fun t => (Mem.read t.mem 1, t.here.l1.length)) = some (0xAB, 0) ∧
    after (exec (.fenceAr .cell) (cached 0 0)) (fun t => (Mem.read t.mem 1, t.here.l1.length)) = some (0, 1) := by decide +kernel
theorem witness_CacheOperations : 0 < min ((cached 0x10000 64).g 2).toNat 1048576 ∧ ((cached 0x10000 64).g 1).extractLsb' 60 4 = 0 ∧
    (cached 0x10000 64).resolveHere 0x10000 64 = some (.global 0x10000) ∧
    ((0x10000 : Word).extractLsb' 20 40 = 0) ∧ (0xC000000000000000 : Word).extractLsb' 60 4 = 0xC := by decide +kernel
theorem test_cacheOperations : after (exec (.cflush 1 2) (cached 0x10000 1)) (fun t => (Mem.read t.mem 1, t.here.l1.map (·.dirty))) = some (0xAB, [0]) ∧
    after (exec (.cinv 1 2) (cached 0x10000 1)) (fun t => (Mem.read t.mem 1, t.here.l1.length)) = some (0xAB, 0) ∧
    after (exec (.pref 1 2) (b2 1 0x10040 2 1)) (fun t => t.here.l1.map (fun x => (x.va, x.pa))) = some [(0x401, 1)] ∧
    after (exec (.cinv 1 2) (cached 0x10040 64)) (fun t => t.here.l1.length) = some 1 := by decide +kernel

theorem witness_AddressConversion : base.resolveHere 0xF000000000000000 1 = none ∧ base.resolveHere own 1 = some (.spad 0 0x100) ∧
    withPriv.resolveHere 0xB000000000000010 1 = some (.global 0x40010) ∧ base.resolveHere 0xD000000010000000 1 = some (.spad 1 0) ∧
    base.resolveHere glob 1 = some (.global 0x10100) ∧ base.device < 4096 := by decide +kernel
theorem witness_AddressConversion_index : ∀ c, (base.cell c).idx base.myLaunch < 1024 := by
  intro c
  match c with
  | 0 => decide +kernel
  | 1 => decide +kernel
  | n + 2 =>
    have h : base.cells.find (n + 2) = none := by simp [base, AMap.find]
    rw [State.cell, h]
    decide +kernel
theorem test_cvtg : val (.cvtg 3 1) (b1 1 0xD000000010000040) 3 = some 0x8000000000100040 ∧ val (.cvtg 3 1) (b1 1 own) 3 = some 0x8000000000000100 ∧
    val (.cvtg 3 1) ((withPriv).putG 1 0xB000000000000010) 3 = some 0x40010 ∧ trapClass (exec (.cvtg 3 1) (b1 1 0xC000000000000000)) = some cAPERTURE := by decide +kernel
/-- A LOCAL address: code 0xA, valid, a scratchpad, own, on this device (12 Table 12.6). -/
theorem test_apt : val (.apt 3 1) (b1 1 own) 3 = some 0xFA := by decide +kernel

/-! ## Counters, channels, combining (16) -/

/-- Counter 5 set, g1 an amount. -/
def counted (v : W32) (a : Word) : State := (b1 1 a).updHere (fun c => { c with k := c.k.set 5 v })
theorem witness_Counters : (counted 7 0).fibre.body.outst = 0 ∧ posted.fibre.body.outst ≠ 0 ∧
    ((counted 7 0).here.k[(5 : KReg)]).toNat + 3 < 2 ^ 32 ∧ 2 ^ 32 ≤ ((counted 0xFFFFFFFF 0).here.k[(5 : KReg)]).toNat + 1 ∧
    ((counted 7 0).here.k[(5 : KReg)]).toNat < 8 ∧ 7 ≤ ((counted 7 0).here.k[(5 : KReg)]).toNat ∧ (counted 7 0).here.k[(5 : KReg)] ≠ 0 ∧
    base.here.k[(5 : KReg)] = 0 := by decide +kernel
def kOf (i : Instr) (s : State) : Option W32 := after (exec i s) (fun t => t.here.k[(5 : KReg)])
theorem test_counters : kOf (.kinc 5 (.imm 3)) (counted 7 0) = some 10 ∧ kOf (.kinc 5 (.reg 1)) (counted 7 0x100000002) = some 9 ∧
    kOf (.kset 5 (.imm 3)) (counted 7 0) = some 3 ∧ kOf (.kwait 5 (.imm 7)) (counted 7 0) = some 0 ∧ kOf (.kwaitn 5 (.imm 7)) (counted 7 0) = some 7 ∧
    kOf (.kincC16 5) (counted 7 0) = some 8 ∧ kOf (.kwaitC16 5) (counted 7 0) = some 6 ∧ val (.krd 5 3) (counted 7 0) 3 = some 7 := by decide +kernel
theorem test_counters_corners : kOf (.kinc 5 (.imm 1)) (counted 0xFFFFFFFF 0) = some 0xFFFFFFFF ∧ trapClass (exec (.kinc 5 (.imm 1)) (counted 0xFFFFFFFF 0)) = some cCOUNTER ∧
    after (exec (.kwait 5 (.imm 8)) (counted 7 0)) (fun t => t.fibre.status) = some (.parked (.counter 5 8 true 4) 0) := by decide +kernel

/-- A fibre in slot 18 and both engines wait for 3 of counter 5. -/
def waiter : Fibre := { fib0 with status := .parked (.counter 5 3 true 4) 0 }
def contended : State := base.updHere (fun c => { c with
  fibres := c.fibres.put 18 waiter
  m := { c.m with eng := { engAt (some blk0) with wait := some (.skwait 5 3 4) } }
  v := { c.v with eng := { engAt (some blk0) with wait := some (.skwait 5 3 4) } } })
/-- 6 have reached the counter in this CCLK: enough for M and V, and then 0 is left. -/
def reached : State := contended.updHere (fun c => { c with k := c.k.set 5 6, acts := [{ k := 5, sat := false, source := none }] })
theorem witness_CounterOrder : reached.here.acts ≠ [] ∧ (∀ x ∈ reached.here.acts, x.source = none) ∧ reached.here.fibres.find 18 = some waiter ∧
    waiter.status = .parked (.counter 5 3 true 4) 0 ∧ reached.here.prismWait = [] ∧ reached.here.copy.slots = [] ∧ AMap.wf reached.here.fibres = true ∧
    reached.here.m.eng.wait = some (.skwait 5 3 4) ∧ reached.here.v.eng.wait = some (.skwait 5 3 4) ∧
    reached.here.fibres = [(17, fib0), (18, waiter)] ∧ fib0.status = .ready := by decide +kernel
theorem test_counterOrder : after (exec (.kset 5 (.imm 3)) contended) (fun t => (t.here.k[(5 : KReg)], t.here.acts.length, t.here.m.eng.wait.isSome)) = some (3, 1, true) ∧
    (let y := (reached.testAll 0).here; (y.k[(5 : KReg)], y.m.eng.wait, y.v.eng.wait, (y.fibre 18).status)) = (0, none, none, .parked (.counter 5 3 true 4) 0) ∧
    after (exec (.kset 5 (.imm 3)) contended) (fun t => let y := (t.testAll 0).here; (y.k[(5 : KReg)], y.m.eng.wait, y.v.eng.wait)) = some (0, none, some (.skwait 5 3 4)) := by decide +kernel

/-- Endpoint 2 a sender with an allowance of 1, endpoint 3 a receiver with one filled slot, of two slots of 64 bytes. -/
def chanBase (a : Word) : State := (b1 1 a).updHere (fun c => { c with
  chans := (c.chans.set 2 { Endpoint.unused with side := .sender, slots := 2, peer := some 1, peerEp := 4, count := 1, seq := 3 }).set 3
    { Endpoint.unused with side := .receiver, slots := 2, peer := some 1, peerEp := 5, filled := 1, count := 1, seq := 3, array := 0x200, k := 6 }
  k := c.k.set 6 1 })
def noAllowance : State := (chanBase 0x100).updHere (fun c => { c with chans := c.chans.set 2 { c.chans[2] with count := 0 } })
theorem witness_ChannelSends : (base.here.chans[(2 : Fin 16)]).side ≠ .sender ∧ ((chanBase 0x100).here.chans[(2 : Fin 16)]).side = .sender ∧
    0xF0000 < ((chanBase 0xEFFF0).g 1).toNat + 64 ∧ ((chanBase 0x101).g 1).toNat % 16 ≠ 0 ∧ (chanBase 0x100).fibre.body.outst = 0 ∧
    (noAllowance.here.chans[(2 : Fin 16)]).count = 0 ∧ 0 < ((chanBase 0x100).here.chans[(2 : Fin 16)]).count ∧
    (chanBase 0x100).behind (.allowance 2) = false ∧ ((chanBase 0x100).here.chans[(2 : Fin 16)]).peer = some 1 := by decide +kernel
theorem test_csend : after (exec (.csend 2 1) (chanBase 0x100)) (fun t => (t.net.length, (t.here.chans[(2 : Fin 16)]).count, (t.here.chans[(2 : Fin 16)]).seq)) = some (1, 0, 4) ∧
    after (exec (.csend 2 1) noAllowance) (fun t => t.fibre.status) = some (.parked (.retry (.allowance 2) 5 2) 0) ∧
    trapClass (exec (.csend 3 1) (chanBase 0x100)) = some cILLEGAL := by decide +kernel
theorem witness_ChannelReceives : (base.here.chans[(3 : Fin 16)]).side ≠ .receiver ∧ ((chanBase 1).here.chans[(3 : Fin 16)]).side = .receiver ∧
    0 < ((chanBase 1).here.chans[(3 : Fin 16)]).filled ∧ (chanBase 1).behind (.filled 3) = false ∧
    ((chanBase 1).here.chans[(3 : Fin 16)]).count < ((chanBase 2).g 1).toNat ∧ ((chanBase 0).g 1).toNat = 0 ∧
    (0 < ((chanBase 1).g 1).toNat ∧ ((chanBase 1).g 1).toNat ≤ ((chanBase 1).here.chans[(3 : Fin 16)]).count ∧ (chanBase 1).fibre.body.outst = 0) ∧
    ((chanBase 0xC).g 1).extractLsb' 16 48 = 0 ∧ (List.range 16).filter (fun i => ((chanBase 0xC).g 1).getLsbD i) = [2, 3] ∧
    ((chanBase 1).here.chans[(0 : Fin 16)]).side = .unused := by decide +kernel
theorem test_receives : after (exec (.crecv 3 2) (chanBase 1)) (fun t => (t.g 2, t.here.k[(6 : KReg)], (t.here.chans[(3 : Fin 16)]).count)) = some (0xA000000000000240, 0, 2) ∧
    after (exec (.cgrant 3 1) (chanBase 1)) (fun t => (t.net.length, (t.here.chans[(3 : Fin 16)]).count)) = some (1, 0) ∧
    trapClass (exec (.cgrant 3 1) (chanBase 2)) = some cILLEGAL ∧ val (.calt 2 1) (chanBase 0xC) 2 = some 2 ∧
    val (.calt 2 1) (chanBase 8) 2 = some 3 ∧ trapClass (exec (.calt 2 1) (chanBase 1)) = some cILLEGAL := by decide +kernel

def claimed : State := { base with groups := [(16, { launch := 9, contribs := [] })] }
def injectedFour : State := base.updHere (fun c => { c with injected := [(0, 4)] })
theorem witness_CombineInject : (claimed.groups.find 16).map (·.launch) = some 9 ∧ some 9 ≠ claimed.here.launch ∧ base.groups.find 16 = none ∧
    posted.fibre.body.outst ≠ 0 ∧ ((injectedFour.here.extracted.find 0).getD 0 + 4 ≤ (injectedFour.here.injected.find 0).getD 0) ∧
    (base.fibre.body.outst = 0 ∧ (base.here.injected.find 0).getD 0 < (base.here.extracted.find 0).getD 0 + 4 ∧ base.behind (.inject 0) = false ∧
      base.here.launch = some 0) := by decide +kernel
theorem test_cinj : after (exec (.cinj .fadd 0 1) (b1 1 0x133FC00000)) (fun t => (t.groups.find 16).map (fun q => q.contribs.map (fun c => (c.m, c.value)))) =
      some (some [(0, 0x3FC00000)]) ∧ trapClass (exec (.cinj .fadd 0 1) claimed) = some cCOMBINE ∧
    after (exec (.cinj .fadd 0 1) injectedFour) (fun t => t.fibre.status) = some (.parked (.retry (.inject 0) 8 0) 0) := by decide +kernel
def resulted (code : Nat) : State :=
  base.updHere (fun c => { c with results := [{ group := 0, m := 0, code := code, op := .qadd, value := 77, ovf := true }] })
theorem witness_CombineExtract : base.here.result 0 0 = none ∧ ((resulted 0).here.result 0 0).map (·.code) = some 0 ∧
    ((resulted 3).here.result 0 0).map (·.code) = some 3 ∧ (resulted 0).behind (.extract 0) = false := by decide +kernel
theorem test_cext : after (exec (.cext 0 3) (resulted 0)) (fun t => (t.g 3, t.here.qovf, t.here.results.length, t.here.extracted)) = some (77, true, 0, [(0, 1)]) ∧
    trapClass (exec (.cext 0 3) (resulted 3)) = some cCOMBINE := by decide +kernel

/-! ## Copy requests, routing, leases (13, 14, 15) -/

def g4 (a b c d : Word) : State := (((base.putG 0 a).putG 1 b).putG 2 c).putG 3 d
/-- A LINEAR request of 64 bytes from LOCAL 0x100 to LOCAL 0x200. -/
def linear : State := g4 0x400000 0xA000000000000100 0xA000000000000200 0
theorem linear_fits : linear.CopyFits := by
  refine ⟨by decide +kernel, by decide +kernel, fun _ => by decide +kernel, fun h => absurd h (by decide +kernel), .inl ⟨by decide +kernel, by decide +kernel, by decide +kernel, .inl ⟨0, 0x100, ?_⟩, .inl ⟨0, 0x200, ?_⟩⟩⟩
  · decide +kernel
  · decide +kernel
def linReq : CopyReq := { scat := none, w0 := 0x400000, w1 := 0xA000000000000100, w2 := 0xA000000000000200, w3 := 0, desc := 0, seq := 0, issued := 0 }
def fullFifo : State := linear.updHere (fun c => { c with copy := { c.copy with fifo := List.replicate 16 linReq } })
def slotOf : ArmedSlot := { req := linReq, k := 5, threshold := 1, rep := false, fired := false, armed := true, pending := 0 }
def fullSlots : State := linear.updHere (fun c => { c with copy := { c.copy with slots := (List.range 32).map (fun j => (j, slotOf)) } })
theorem witness_CopyRequests : linear.here.fifoAhead < 16 ∧ 16 ≤ fullFifo.here.fifoAhead ∧ linear.here.armWaits = false ∧
    ((linear.putG 4 2).here.k[(5 : KReg)]).toNat < (((linear.putG 4 2).g 4).setWidth 32).toNat ∧
    (∀ e ∈ linear.here.copy.slots, e.2.pending = 0 ∧ (e.2.armed = true → (linear.here.k[e.2.k]).toNat < e.2.threshold.toNat)) ∧
    (∀ e ∈ linear.here.fibres, e.2.status = .ready) ∧
    (∀ j, j < 32 → (fullSlots.here.copy.slots.find j).map (·.armed) = some true) := by decide +kernel
theorem test_cpyq : after (exec .cpyq linear) (fun t => (t.here.copy.fifo.map (·.w2), t.here.reqseq)) = some ([0xA000000000000200], 1) ∧
    after (exec (.cpyqNb 4) fullFifo) (fun t => (t.g 4, t.here.copy.fifo.length)) = some (1, 16) ∧
    after (exec (.cpya true 5 4 6) (linear.putG 6 2)) (fun t => (t.g 4, t.here.copy.slots.length)) = some (0, 1) ∧
    (after (exec .cpyq fullFifo) (fun t => decide (t.fibre.status = .parked (.copy linReq) 0))) = some true := by decide +kernel
theorem witness_CopyChecks : 8 ≤ ((g4 9 0 0 0).g 0).extractLsb' 0 4 ∧ (((g4 0x3000 0 0 0).g 0).extractLsb' 0 4 = 0 ∧ ¬(((g4 0x3000 0 0 0).g 0).extractLsb' 11 3).toNat ≤ 5) ∧
    ((0x14000 : Word).extractLsb' 16 48).toNat % 2 ^ ((0x14000 : Word).extractLsb' 14 2).toNat ≠ 0 ∧
    ((0x1000000001 : Word).extractLsb' 36 28 ≠ 0 ∧ ((0x1000000001 : Word).extractLsb' 0 4).toNat = 1) ∧
    (((6 : Word).extractLsb' 0 4).toNat = 6 ∧ (6 : Word).extractLsb' 36 28 = 0) ∧
    ((linear.g 3).extractLsb' 0 48 = 0) ∧ 0xEFFC0 < ((0xF00000001 : Word).extractLsb' 16 20).toNat ∧
    ((g4 0x404000 0xA000000000000101 0 0).g 1).toNat % 2 ^ ((0x404000 : Word).extractLsb' 14 2).toNat ≠ 0 := by decide +kernel
theorem test_copyChecks : trapClass (exec .cpyq (g4 9 0 0 0)) = some cCOPY ∧ trapClass (exec .cpyq (g4 0x404000 0xA000000000000101 0 0)) = some cALIGN ∧
    trapClass (exec (.cpyqNb 4) (g4 0xF00000001 0 0 0)) = some cAPERTURE := by decide +kernel
theorem witness_ArmedSlots : ((linear.g 4).extractLsb' 5 59 = 0 ∧ AMap.wf fullSlots.here.copy.slots = true) ∧
    (∀ e ∈ fullSlots.here.copy.slots, e.2.pending = 0 ∧ (e.2.armed = true → (fullSlots.here.k[e.2.k]).toNat < e.2.threshold.toNat)) ∧
    (∀ e ∈ fullSlots.here.fibres, e.2.status = .ready) ∧ fullSlots.here.copy.slots.find 0 = some slotOf ∧ linear.here.copy.slots.find 0 = none ∧
    ((32 : Word).extractLsb' 5 59 ≠ 0) := by decide +kernel
theorem test_cpyc : after (exec (.cpycX 4 5) (fullSlots.putG 5 3)) (fun t => (t.g 4, t.here.copy.slots.length, t.here.copy.slots.find 3)) =
      some (0x129, 31, none) ∧ val (.cpycQ 4 5) linear 4 = some 0 ∧ trapClass (exec (.cpycQ 4 5) (linear.putG 5 32)) = some cILLEGAL := by decide +kernel

/-- A GATH descriptor at 0x400: base LOCAL through aperture 0x8 of the own cell, extent 0x100, list 0x500, buffer 0x600,
2 elements of 8 bytes. -/
def gathBase : State := (b1 1 0x400).updHere (fun c => { c with spad := c.spad.write 0x400 32 (0x8000000000000800 + 0x100 * 2 ^ 64 + 0x500 * 2 ^ 128 + 0x600 * 2 ^ 160 + 2 * 2 ^ 192 + 3 * 2 ^ 224) false })
theorem gath_fits : gathBase.GathFits 0x400 false := by
  unfold State.GathFits
  and_intros
  all_goals first
    | decide +kernel
    | exact .inl ⟨0, 0x800, by decide +kernel, by decide +kernel⟩
    | exact fun h => absurd h (by decide +kernel)
theorem gathered : gathBase.resolve 0 none (w64 (gathBase.dscAt 0x400 0 8)) 1 = some (.spad 0 0x800) := by decide +kernel
theorem scat_fits : gathBase.GathFits 0x400 true := by
  unfold State.GathFits
  and_intros
  all_goals first
    | decide +kernel
    | exact .inl ⟨0, 0x800, by decide +kernel, by decide +kernel⟩
    | exact fun h => absurd h (by decide +kernel)
    | exact fun _ o h => by
        cases gathered.symm.trans h
        exact ⟨.inr (.inr (.inr (by decide +kernel))), .inr (.inr (.inr (by decide +kernel)))⟩
theorem witness_GatherScatter : gathBase.here.fifoAhead < 16 ∧ 16 ≤ fullFifo.here.fifoAhead ∧ 0xEFFC0 < ((b1 1 0xF0000).g 1).toNat := by decide +kernel
theorem test_gath : after (exec (.gath 1) gathBase) (fun t => t.here.copy.fifo.map (·.scat)) = some [some false] ∧
    after (exec (.scat 1) gathBase) (fun t => t.here.copy.fifo.map (·.scat)) = some [some true] ∧
    trapClass (exec (.gath 1) (b1 1 0xF0000)) = some cAPERTURE := by decide +kernel

/-- A routing record at 0x400 of token 7 with k = 2, its destinations not null, and one bin of capacity 2 that holds
`n` entries. -/
def binBase (n : Nat) (y : Word) : State := (b2 1 0x400 4 y).updHere (fun c => { c with
  bins := [BitVec.ofNat 128 (2 ^ 96 + n * 2 ^ 48 + 2 * 2 ^ 32 + 0x800)]
  spad := c.spad.write 0x400 48 (7 + 2 * 2 ^ 88) false })
theorem witness_BinPut : 0xF0000 < ((b1 1 0xEFF90).g 1).toNat + 128 ∧ ((b1 1 0x401).g 1).toNat % 16 ≠ 0 ∧
    ((0x100000 : Word).extractLsb' 20 44 ≠ 0) ∧ (binBase 0 0).binAt 1 = none ∧
    (binBase 0 0).binAt 0 = some (BitVec.ofNat 128 (2 ^ 96 + 2 * 2 ^ 32 + 0x800)) ∧
    (let t := BitVec.ofNat 128 (2 ^ 96 + 2 * 2 ^ 32 + 0x800); binCount t < binCapacity t ∧ binBuffer t + 32 * binCount t + 32 ≤ 0xF0000) ∧
    (let t := BitVec.ofNat 128 (2 ^ 96 + 2 * 2 ^ 48 + 2 * 2 ^ 32 + 0x800); binCount t = binCapacity t) ∧
    (binBase 0 0).ownBytes 0x40B 1 = 2 ∧ (binBase 0 0).ownBytes 0x420 2 ≠ 0xFFFF ∧ Memory.wf (binBase 0 0).here.spad.bytes = true := by decide +kernel
theorem test_binput : after (exec (.binput 5 1 4) (binBase 0 0)) (fun t => (t.g 5, t.here.spad.read 0x800 4, t.here.spad.read 0x80E 1)) = some (0, 7, 2) ∧
    val (.binput 5 1 4) (binBase 2 0) 5 = some 0xFFFFFFFF ∧ trapClass (exec (.binput 5 1 4) (binBase 0 0x20000)) = some cROUTE ∧
    trapClass (exec (.binput 5 1 4) (binBase 0 1)) = some cROUTE := by decide +kernel

def readyBase : State := base.updHere (fun c => { c with readyQ := [5, 6], comb := [(5, { token := 9, notices := [], rows := [], posted := true })] })
theorem witness_ExchangePolls : base.here.readyQ = [] ∧ readyBase.here.readyQ = [5, 6] ∧ AMap.wf readyBase.here.comb = true := by decide +kernel
theorem test_expoll : after (exec (.expoll true 4) readyBase) (fun t => (t.g 4, t.here.readyQ, t.here.comb.find 5)) = some (5, [6], none) ∧
    val (.expoll false 4) base 4 = some 0xFFFFFFFFFFFFFFFF ∧
    after (exec (.expoll true 4) base) (fun t => t.fibre.status) = some (.parked (.retry .ready 9 0) 0) := by decide +kernel

/-- A launch with the Router's flag, whose Router has a policy of 8 experts. -/
def policy8 : Policy :=
  { experts := 8, k := 2, r := 1, score := 0, groups := 2, keep := 1, flags := 0, scale := 0x3F800000, bias := List.replicate 8 0,
    place := List.replicate 8 0, hist := 0, dead := 0, disp := [] }
def gateBase (n : Nat) (va y : Word) : State :=
  let tok : RouterTok := { policy := policy8, row := [], token := 0, seq := 0, slot := 0, gate := 0, poison := false }
  { ((b2 2 va 3 y).updLaunch 0 (fun l => { l with flags := 0x18, router := 0x5000 })) with
    routers := [(0, { launch := some 0, loaded := some policy8, queue := List.replicate n tok, held := [], rr := [], hist := [], allow := [], sent := [] })] }
theorem witness_GateQueues : base.myLaunch.flags.getLsbD 3 = false ∧
    ((base.updLaunch 0 (fun l => { l with flags := 8 })).myLaunch.flags.getLsbD 3 = true ∧ (base.updLaunch 0 (fun l => { l with flags := 8 })).myLaunch.router = 0) ∧
    ((gateBase 0 0x100 0).myLaunch.flags.getLsbD 3 = true ∧ (gateBase 0 0x100 0).myLaunch.router ≠ 0 ∧
      ((gateBase 0 0x100 0).router 0).loaded = some policy8 ∧ ((gateBase 0 0x100 0).router 0).queue.length < 64 ∧ (gateBase 0 0x100 0).behind .routerRoom = false) ∧
    64 ≤ ((gateBase 64 0x100 0).router 0).queue.length ∧ 0xF0000 < (0xEFFF0 : Word).toNat + 8 * 4 ∧ (0x200000000000000 : Word).extractLsb' 57 7 ≠ 0 := by decide +kernel
theorem test_gateq : after (exec (.gateq 5 2 3) (gateBase 0 0x100 0x700000009)) (fun t => (t.router 0).queue.map (fun k => (k.token, k.seq, k.slot, k.row.length))) =
      some [(9, 7, 5, 8)] ∧ after (exec (.gateq 5 2 3) (gateBase 64 0x100 0)) (fun t => t.fibre.status) = some (.parked (.retry .routerRoom 10 0x100) 0) ∧
    trapClass (exec (.gateq 5 2 3) base) = some cROUTE ∧ trapClass (exec (.gateq 5 2 3) (gateBase 0 0x101 0)) = some cALIGN := by decide +kernel

/-- A RETURN descriptor at LOCAL 0x400 and a DISPATCH descriptor at 0x440; in GLOBAL memory a combine table at 0x11000, a
policy table of 8 experts at 0x12000 and its placement at 0x14000. -/
def exchBase (off : Word) (flags : BitVec 16) : State :=
  let s := (b1 2 off).updLaunch 0 (fun l => { l with flags := flags })
  { (s.updHere (fun c => { c with
      spad := (c.spad.write 0x400 48 (2 + 16 * 2 ^ 64 + 0x800 * 2 ^ 128 + 0x900 * 2 ^ 160 + 0x11000 * 2 ^ 320) false).write 0x440 48
        (1 + 16 * 2 ^ 64 + 0x500 * 2 ^ 96 + 0x800 * 2 ^ 128 + 0x12000 * 2 ^ 192 + 0x11000 * 2 ^ 320) false })) with
    mem := Mem.writeBytes (Mem.writeBytes s.mem 0x1000 (natBytes 16 (1 + 2 * 2 ^ 8 + 4 * 2 ^ 16 + 16 * 2 ^ 32 + 0x2000 * 2 ^ 64 + 0x3000 * 2 ^ 96)))
      0x2000 (natBytes 32 (8 + 2 * 2 ^ 16 + 1 * 2 ^ 40 + 1 * 2 ^ 48 + 0x3F800000 * 2 ^ 64 + 2 ^ 96 + 0x14000 * 2 ^ 192)) }
def tableOk {α : Type} (e : Except LoadFail α) : Bool := match e with
  | .ok _ => true
  | _ => false
theorem witness_ExchangeSends : base.myLaunch.flags.getLsbD 4 = false ∧ (exchBase 0x400 0x10).myLaunch.flags.getLsbD 4 = true ∧
    ((exchBase 0x410 0x10).g 2).toNat % 64 ≠ 0 ∧ 0xEFFC0 < ((exchBase 0xF0000 0x10).g 2).toNat ∧ (exchBase 0x800 0x10).dscAt 0x800 0 1 = 0 ∧
    (exchBase 0x400 0x10).dscAt 0x400 0 1 = 2 ∧ (exchBase 0x440 0x10).dscAt 0x440 0 1 = 1 ∧
    tableOk ((exchBase 0x400 0x10).loadComb (exchBase 0x400 0x10).myLaunch 0x11000 none (some 16)) = true := by decide +kernel
theorem witness_ExchangeSends_dispatch : tableOk ((exchBase 0x440 0x10).loadComb (exchBase 0x440 0x10).myLaunch 0x11000 (some 2) none) = true ∧
    tableOk ((exchBase 0x440 0x10).loadPolicy (exchBase 0x440 0x10).myLaunch 0x12000 false) = true := by decide +kernel
theorem test_exsend : after (exec (.exsend 2) (exchBase 0x400 0x10)) (fun t => t.exch.map (fun e => (e.req.dispatch, e.req.rows, e.req.tags))) =
      some [(false, 0x800, 0x900)] ∧ after (exec (.exsend 2) (exchBase 0x440 0x10)) (fun t => (t.exch.map (fun e => e.req.dispatch), t.here.exIssued)) =
      some ([true], 1) ∧ trapClass (exec (.exsend 2) (exchBase 0x400 0)) = some cROUTE ∧ trapClass (exec (.exsend 2) (exchBase 0x410 0x10)) = some cALIGN := by decide +kernel

/-- How the load of a Router's table ends: well, with a code of ROUTE, or with a trap at an address. -/
def loadKind {α : Type} (e : Except LoadFail α) : Nat := match e with
  | .ok _ => 0
  | .error (.route _ _) => 1
  | .error (.xlate _ _) => 2
def routerAt (va : Word) : State := ((exchBase 0x400 0x18).updLaunch 0 (fun l => { l with router := va })).updHere (fun c => { c with
  chans := c.chans.set 0 { Endpoint.unused with side := .receiver, slots := 2, size := 128, array := 0x200, k := 6 } })
theorem witness_GateQueues_load : ((routerAt 0x12000).router 0).loaded = none ∧ (routerAt 0x12000).myLaunch.router ≠ 0 ∧
    loadKind ((routerAt 0x12000).routerLoad (routerAt 0x12000).myLaunch 0) = 0 ∧ loadKind ((routerAt 0x13000).routerLoad (routerAt 0x13000).myLaunch 0) = 1 ∧
    loadKind ((routerAt 0x80000).routerLoad (routerAt 0x80000).myLaunch 0) = 2 := by decide +kernel

/-- A job with a quota of 8 pairs; g1 device 1, g2 a count of 2 and a term of 100 µs. -/
def leaseBase (y : Word) (q : Nat) : State :=
  let s := b2 1 1 2 y
  { s with jobs := [(1, { job0 with quota := q })] }
def leaseOf (id : Nat) (st : LeaseState) (pairs : List Nat) : Lease :=
  { id := id, job := 1, launch := 0, idx := 0, k := 5, dest := 1, want := 2, endsAt := 100000, st := st, pairs := pairs, notice := [],
    arrived := none }
def renewBase (y : Word) : State := { leaseBase y 8 with leases := [(3, leaseOf 0x1003 .granted [17, 33])] }
def leased (id : Word) (st : LeaseState) : State := { b1 5 id with leases := [(3, leaseOf 0x1003 st [17, 33])] }
theorem find_const {α : Type} (x : α) (l : List Nat) (n : Nat) (h : n ∈ l) : AMap.find (l.map (fun i => (i, x))) n = some x := by
  induction l with
  | nil => simp at h
  | cons a r ih =>
    simp only [List.map_cons, AMap.find]
    split
    · rfl
    · next hne =>
      obtain h | h := List.mem_cons.mp h
      · exact absurd h.symm hne
      · exact ih h
def manyLeases (k : Nat) : State :=
  { leaseBase 0x6402 8 with leases := (List.range k).map (fun i => (i, { leaseOf 0x1003 .granted [] with job := 2 })) }
theorem manyLeases_live (k n : Nat) (h : n < k) : ∃ l, (manyLeases k).leases.find n = some l ∧ l.st ≠ .ended :=
  ⟨_, find_const _ _ n (List.mem_range.mpr h), nofun⟩
theorem witness_LeaseRequests_full : ∀ n, n < 4096 → ∃ l, (manyLeases 4096).leases.find n = some l ∧ l.st ≠ .ended :=
  manyLeases_live 4096
theorem witness_LeaseRequests : (0x1000 : Word).extractLsb' 12 52 ≠ 0 ∧ ((1 : Word).extractLsb' 12 52 = 0 ∧ (0x6402 : Word).extractLsb' 37 11 = 0 ∧
      ((0x6402 : Word).extractLsb' 0 8).toNat = 2 ∧ ((0x6402 : Word).extractLsb' 8 24).toNat = 100 ∧ (0x6402 : Word).extractLsb' 48 16 = 0) ∧
    (1 ≠ (leaseBase 0x6402 8).device ∧ ((leaseBase 0x6402 8).job 1).devSet.contains 1 = true) ∧
    ((leaseBase 0x6402 1).job 1).quota < (leaseBase 0x6402 1).wanted 1 + 2 ∧ (leaseBase 0x6402 8).wanted 1 + 2 ≤ ((leaseBase 0x6402 8).job 1).quota ∧
    (leaseBase 0x6402 8).leases.find 0 = none ∧
    ((0x1003000000006401 : Word).extractLsb' 48 16 = 0x1003 ∧ (renewBase 0x1003000000006401).leases.find 3 = some (leaseOf 0x1003 .granted [17, 33]) ∧
      1 ≤ (leaseOf 0x1003 .granted [17, 33]).pairs.length ∧ (renewBase 0x1003000000006401).wantedBut 1 0x1003 + 1 ≤ 8) := by decide +kernel
theorem witness_LeaseRequests_term : ({ renewBase 0x1003000000006401 with now := 700 } : State).ns < (leaseOf 0x1003 .granted [17, 33]).endsAt ∧
    (leaseOf 0x1003 .granted [17, 33]).endsAt ≤ ({ renewBase 0x1003000000006401 with now := 70001 } : State).ns ∧ (renewBase 0x1003000000006401).asks = [] ∧
    (∃ q ∈ ({ leaseBase 0x6402 8 with asks := [{ id := 0x1003, dest := 1, offers := [17] }] } : State).asks, q.id = 0x1003) ∧
    (leaseOf 0x1003 .granted [17, 33]).pairs.length < 3 := by decide +kernel
theorem test_lease : after (exec (.lease 5 1 2) (leaseBase 0x6402 8)) (fun t => (t.leases.length, t.fabricOut.length)) = some (1, 1) ∧
    trapClass (exec (.lease 5 1 2) (leaseBase 0x6402 1)) = some cLEASE ∧ trapClass (exec (.lease 5 1 2) (leaseBase 0x6400 8)) = some cLEASE ∧
    trapClass (exec (.lease 5 1 2) (leaseBase 0x6431 8)) = some cLEASE := by decide +kernel
theorem witness_LeaseReleases : (0x10000 : Word).extractLsb' 16 48 ≠ 0 ∧ (0x1003 : Word).extractLsb' 16 48 = 0 ∧
    (leased 0x1003 .granted).leases.find (0x1003 % 4096) = some (leaseOf 0x1003 .granted [17, 33]) ∧ (leaseOf 0x1003 .granted []).job = (leased 0x1003 .granted).myLaunch.job ∧
    (leased 0x2003 .granted).leases.find (0x2003 % 4096) = some (leaseOf 0x1003 .granted [17, 33]) ∧ (leaseOf 0x1003 .granted []).id ≠ 0x2003 := by decide +kernel
theorem test_lrel : after (exec (.lrel 5) (leased 0x1003 .granted)) (fun t => ((t.leases.find 3).map (·.st), t.draining)) = some (some .ended, [(17, 1), (33, 1)]) ∧
    after (exec (.lrel 5) (leased 0x2003 .granted)) (fun t => (t.leases.find 3).map (·.st)) = some (some .granted) ∧
    trapClass (exec (.lrel 5) (b1 5 0x10000)) = some cLEASE := by decide +kernel
theorem witness_LeaseQueries : (leaseOf 0x1003 .granted [17, 33]).pairs.length < 256 ∧ (leaseOf 0x1003 .granted []).want < 256 := by decide +kernel
/-- An ended lease: state 3, 2 pairs requested, none granted, no term left (15 Table 15.6). -/
theorem test_lqry : val (.lqry 6 5) { b1 5 0x1003 with leases := [(3, leaseOf 0x1003 .ended [])] } 6 = some 0x300000200 ∧
    val (.lqry 6 5) (leased 0x2003 .granted) 6 = some 0 := by decide +kernel

/-! ## Words of the V and M streams (05) -/

/-- The V stream of `vBase` with two e registers, and the M stream of `mBase` with two q registers. -/
def ve (r : SReg) (x : Word) (q : SReg) (y : Word) : State :=
  vBase.updHere (fun c => { c with v := { c.v with eng := { c.v.eng with g := (c.v.eng.g.set r x).set q y } } })
def me (r : SReg) (x : Word) (q : SReg) (y : Word) : State :=
  mBase.updHere (fun c => { c with m := { c.m with eng := { c.m.eng with g := (c.m.eng.g.set r x).set q y } } })
def valE (i : Instr) (s : State) (r : SReg) : Option Word := after (exec i s) (fun t => t.eng.g[r])

theorem vBase_reads (l : List SReg) : vBase.StreamReads l := ⟨by decide +kernel, ⟨_, rfl⟩, fun _ _ => rfl⟩
theorem mBase_reads (l : List SReg) : mBase.StreamReads l := ⟨by decide +kernel, ⟨_, rfl⟩, fun _ _ => rfl⟩
/-- The hypotheses of StreamScalars, Tokens, StreamBranches, StreamCounters, SkincWaits, StreamEnds and
StreamSpecialRegisters on the streams. -/
theorem witness_StreamScalars : vBase.StreamReads [1, 2] ∧ mBase.StreamReads [1, 2] := ⟨vBase_reads _, mBase_reads _⟩
theorem test_streamScalars : valE (.sadd 2 3 1) (ve 1 5 2 7) 3 = some 12 ∧ valE (.ssub 2 3 1) (ve 1 5 2 7) 3 = some 0xFFFFFFFFFFFFFFFE ∧
    valE (.smul 2 3 1) (me 1 5 2 7) 3 = some 35 ∧ valE (.sand 2 3 1) (ve 1 6 2 3) 3 = some 2 ∧ valE (.sor 2 3 1) (ve 1 6 2 3) 3 = some 7 ∧
    valE (.sxor 2 3 1) (ve 1 6 2 3) 3 = some 5 ∧ valE (.sshl 2 3 1) (ve 1 3 2 65) 3 = some 6 ∧ valE (.sshr 2 3 1) (me 1 6 2 65) 3 = some 3 := by decide +kernel
theorem test_streamConstants : valE (.saddi 0xFFF 3 1) (ve 1 5 2 0) 3 = some 4 ∧ valE (.saddiC16 3 1 0x1F) (ve 1 5 2 0) 3 = some 4 ∧
    valE (.sli 0xABCD 1 3) (ve 1 5 2 0) 1 = some 0xABCD000000000005 := by decide +kernel
/-- A TOK that uses counter 5 twice. -/
def use55 : TokUse := .two 5 5
def vCount (v : W32) : State := vBase.updHere (fun c => { c with k := c.k.set 5 v })
theorem witness_Tokens : (∀ k ∈ use55.list, use55.list.count k ≤ ((vCount 2).here.k[k]).toNat) ∧
    ¬(∀ k ∈ use55.list, use55.list.count k ≤ ((vCount 1).here.k[k]).toNat) := by decide +kernel
theorem test_tok : after (exec (.tok use55 (some (3, 0))) (vCount 2)) (fun t => (t.here.k[(5 : KReg)], t.eng.tok, t.eng.run.map (·.pc))) =
      some (0, some { addr := 0x10000, use := use55, prod := some (3, 0) }, some 0x10004) ∧
    after (exec (.tok use55 none) (vCount 1)) (fun t => (t.here.k[(5 : KReg)], t.eng.wait)) =
      some (1, some (.tok { addr := 0x10000, use := use55, prod := none })) := by decide +kernel
theorem witness_StreamBranches : (ve 1 0 2 0).eng.g[(1 : SReg)] = 0 ∧ (ve 1 5 2 6).eng.g[(1 : SReg)] ≠ (ve 1 5 2 6).eng.g[(2 : SReg)] ∧
    ((ve 1 0 2 0).epc + (2 : BitVec 12).signExtend 64 * 4).extractLsb' 0 2 = 0 ∧
    (let s := (ve 1 0 2 0).updHere (fun c => { c with v := { c.v with eng := { c.v.eng with run := some { pc := 0x10002, blk := some blk0, branch := none } } } });
      (s.epc + (2 : BitVec 12).signExtend 64 * 4).extractLsb' 0 2 ≠ 0) := by decide +kernel
theorem test_sbr : (∀ c ∈ [SbrCond.z, .eq, .ge], after (exec (.sbr 2 2 c 1) (ve 1 0 2 0)) (fun t => t.eng.run.map (·.pc)) = some (some 0x10008)) ∧
    (∀ c ∈ [SbrCond.nz, .ne, .lt], after (exec (.sbr 2 2 c 1) (ve 1 0 2 0)) (fun t => t.eng.run.map (·.pc)) = some (some 0x10004)) := by decide +kernel
theorem witness_StreamCounters : (vBase.eng.amount (.inl 0)).toNat ≤ ((vCount 2).here.k[(5 : KReg)]).toNat ∧ vBase.eng.flights = [] ∧
    ((vCount 0).here.k[(5 : KReg)]).toNat < (vBase.eng.amount (.inl 0)).toNat ∧ vBase.eng.tok = none ∧ vBase.eng.wait = none ∧
    ((vCount 2).here.k[(5 : KReg)]).toNat + (vBase.eng.amount (.inl 0)).toNat < 2 ^ 32 := by decide +kernel
theorem test_streamCounters : after (exec (.skwait 5 1) (vCount 2)) (fun t => t.here.k[(5 : KReg)]) = some 0 ∧
    after (exec (.skwaitC16 5) (vCount 0)) (fun t => t.eng.wait) = some (some (.skwait 5 1 2)) ∧
    after (exec (.skinc 5 0) (vCount 2)) (fun t => t.here.k[(5 : KReg)]) = some 3 ∧ after (exec (.skincC16 5) (vCount 2)) (fun t => t.here.k[(5 : KReg)]) = some 3 ∧
    after (exec (.skincReg 5 1) (ve 1 4 2 0)) (fun t => t.here.k[(5 : KReg)]) = some 4 ∧
    after (exec (.skwaitReg 5 1) (ve 1 4 2 0)) (fun t => t.eng.wait) = some (some (.skwait 5 4 4)) ∧
    after (exec .snop vBase) (fun t => t.eng.run.map (·.pc)) = some (some 0x10004) ∧
    after (exec .snopC16 mBase) (fun t => t.eng.run.map (·.pc)) = some (some 0x10002) := by decide +kernel
def vBusy (done : Bool) : State :=
  vBase.updHere (fun c => { c with v := { c.v with eng := { c.v.eng with flights := [.word 9 [.v 3] none done] } } })
theorem witness_SkincWaits : (vBusy false).eng.flights = [.word 9 [.v 3] none false] := by decide +kernel
theorem test_skincWaits : after (exec (.skinc 5 0) (vBusy false)) (fun t => (t.here.k[(5 : KReg)], t.eng.flights.length)) = some (0, 2) := by decide +kernel
theorem witness_StreamEnds : (∀ f ∈ (vBusy true).eng.flights, f = .word 9 [.v 3] none true) ∧ vBase.eng.tok = none ∧
    (vBase.here.k[(3 : KReg)]).toNat + 0 + 1 < 2 ^ 32 ∧
    ((vBase.updHere (fun c => { c with v := { c.v with eng := { c.v.eng with tok := some { addr := 0x10000, use := .zero, prod := some (3, 0) } } } })).eng.tok =
      some { addr := 0x10000, use := .zero, prod := some (3, 0) }) := by decide +kernel
/-- A stream's word that traps while an earlier word is in flight, and when it has completed. -/
theorem witness_StreamTraps : ¬(∀ f ∈ (vBusy false).eng.flights, f.isDone = true) ∧ (∀ f ∈ (vBusy true).eng.flights, f.isDone = true) ∧
    (vBusy false).here.traps = [] ∧ (vBusy true).here.traps = [] := by decide +kernel
theorem test_trapWaits : after (exec (.smfs 8 3) (vBusy false)) (fun t => (t.here.traps.map (·.2.cls), t.eng.stopped)) = some ([cPRIV], true) ∧
    after (exec (.smfs 8 3) (vBusy true)) (fun t => (t.here.traps, t.eng.stopped)) = some ([], true) := by decide +kernel
theorem test_shalt : after (exec .shalt (vBusy true)) (fun t => t.eng.run) = some none ∧ after (exec .shalt (vBusy false)) (fun t => t.eng.wait) = some (some .drain) := by
  decide +kernel
theorem witness_StreamSpecialRegisters : (0x08 : BitVec 8).toNat < 0x10 ∧ 0x07 < (0x08 : BitVec 8).toNat ∧ 0x12 < (0x13 : BitVec 8).toNat ∧
    (0x13 : BitVec 8).toNat < 0x20 ∧ 0x24 < (0x25 : BitVec 8).toNat ∧ (0x06 : BitVec 8) ≠ 4 ∧ (0x06 : BitVec 8) ≠ 5 := by decide +kernel
theorem test_smfs : valE (.smfs 4 3) vBase 3 = some 1 ∧ after (exec (.smts 4 1) (ve 1 7 2 0)) (fun t => t.here.seed) = some 7 ∧
    after (exec (.smts 5 1) (me 1 1 2 0)) (fun t => t.here.qovf) = some true ∧ trapClass (exec (.smfs 8 3) vBase) = some cPRIV := by decide +kernel

/-! ## V words (08): element 0 of registers 1 and 2, with mask m1 -/

/-- v1, v2 and v3 as given, m1 as given. -/
def vv (x y z : Vec) (m : Mask) : State :=
  vBase.updHere (fun c => { c with v := { c.v with v := ((c.v.v.set 1 x).set 2 y).set 3 z, m := c.v.m.set 1 m } })
def lane (i : Instr) (s : State) (r : VReg) (w e : Nat) : Option Nat := after (exec i s) (fun t => (t.el w r e).toNat)

theorem vv_reads (x y z : Vec) (m : Mask) (ss ds : List VReg) (ms : List MReg) (gs : List SReg) : (vv x y z m).VReads ss ds ms gs :=
  ⟨rfl, ⟨_, rfl⟩, fun _ _ => rfl, fun _ _ => rfl, fun _ _ => rfl, fun _ _ => rfl⟩
/-- The hypotheses of the V statements: the formats of each group, and a stream whose registers are settled. -/
theorem witness_VectorIntegers : VFmt.i8.isViaInt = true ∧ VFmt.i8 ≠ .u32 ∧ (vv 1 2 3 1).VReads [2, 1] [3] [1] [] := ⟨rfl, nofun, vv_reads ..⟩
theorem witness_VectorFloats : VFmt.bf16.isSmallFloat = true ∧ (vv 1 2 3 1).VReads [2, 1, 3] [3] [1] [] := ⟨rfl, vv_reads ..⟩
theorem test_via : lane (.vadd .i8 0 2 1 3) (vv 0x80FF 0x0102 0 0) 3 16 0 = some 0x8101 ∧ lane (.vsub .i16 0 2 1 3) (vv 5 7 0 0) 3 16 0 = some 0xFFFE ∧
    lane (.vmul .i32 0 2 1 3) (vv 0x10001 0x10000 0 0) 3 32 0 = some 0x10000 ∧ lane (.vmulh .i8 0 2 1 3) (vv 0x80 0x80 0 0) 3 8 0 = some 0x40 ∧
    lane (.vmulh .u32 0 2 1 3) (vv 0xFFFFFFFF 0xFFFFFFFF 0 0) 3 32 0 = some 0xFFFFFFFE ∧ lane (.vadd .i32 1 2 1 3) (vv 5 7 9 0) 3 32 0 = some 9 := by decide +kernel
theorem test_via_logic : lane (.vand .i32 0 2 1 3) (vv 6 3 0 0) 3 32 0 = some 2 ∧ lane (.vor .i32 0 2 1 3) (vv 6 3 0 0) 3 32 0 = some 7 ∧
    lane (.vxor .i32 0 2 1 3) (vv 6 3 0 0) 3 32 0 = some 5 ∧ lane (.vshl .i8 0 2 1 3) (vv 0x81 9 0 0) 3 8 0 = some 2 ∧
    lane (.vshr .i8 0 2 1 3) (vv 0x81 9 0 0) 3 8 0 = some 0x40 ∧ lane (.vsra .i8 0 2 1 3) (vv 0x81 9 0 0) 3 8 0 = some 0xC0 ∧
    lane (.vmin .i8 0 2 1 3) (vv 0x81 9 0 0) 3 8 0 = some 0x81 ∧ lane (.vmax .u32 0 2 1 3) (vv 0x80000000 9 0 0) 3 32 0 = some 0x80000000 ∧
    lane (.vabs .i8 0 1 3) (vv 0x81 0 0 0) 3 8 0 = some 0x7F ∧ lane (.vaddC16 3 1 2) (vv 5 7 0 0) 3 32 0 = some 12 := by decide +kernel
/-- 1.5 and 2.25 in F32; 1.5 × 2.25 + 1 = 4.375. -/
theorem test_floats : lane (.vfadd .f32 0 2 1 3) (vv 0x3FC00000 0x40100000 0 0) 3 32 0 = some 0x40700000 ∧
    lane (.vfsub .f32 0 2 1 3) (vv 0x3FC00000 0x40100000 0 0) 3 32 0 = some 0xBF400000 ∧ lane (.vfmul .f32 0 2 1 3) (vv 0x3FC00000 0x40100000 0 0) 3 32 0 = some 0x40580000 ∧
    lane (.vfma .f32 0 2 1 3) (vv 0x3FC00000 0x40100000 0x3F800000 0) 3 32 0 = some 0x408C0000 ∧
    lane (.vfms .f32 0 2 1 3) (vv 0x3FC00000 0x40100000 0x3F800000 0) 3 32 0 = some 0x40180000 ∧
    lane (.vfnma .f32 0 2 1 3) (vv 0x3FC00000 0x40100000 0x3F800000 0) 3 32 0 = some 0xC0180000 ∧
    lane (.vfaddC16 3 1 2) (vv 0x3FC00000 0x40100000 0 0) 3 32 0 = some 0x40700000 ∧ lane (.vfmulC16 3 1 2) (vv 0x3FC00000 0x40100000 0 0) 3 32 0 = some 0x40580000 ∧
    lane (.vfmaC16 3 1 2) (vv 0x3FC00000 0x40100000 0x3F800000 0) 3 32 0 = some 0x408C0000 := by decide +kernel
/-- 1/3 rounds to 0x3EAAAAAB; √2 to 0x3FB504F3; minimum with a NaN is the other; BF16 keeps 8 significant bits. -/
theorem test_floats_more : lane (.vfdiv .f32 0 2 1 3) (vv 0x3F800000 0x40400000 0 0) 3 32 0 = some 0x3EAAAAAB ∧ lane (.vfsqrt .f32 0 1 3) (vv 0x40000000 0 0 0) 3 32 0 = some 0x3FB504F3 ∧
    lane (.vfmin .f32 0 2 1 3) (vv 0x7FC00000 0x40000000 0 0) 3 32 0 = some 0x40000000 ∧ lane (.vfmax .f32 0 2 1 3) (vv 0x80000000 0 0 0) 3 32 0 = some 0 ∧
    lane (.vfabs .bf16 0 1 3) (vv 0xBF80 0 0 0) 3 16 0 = some 0x3F80 ∧ lane (.vfneg .f16 0 1 3) (vv 0x3C00 0 0 0) 3 16 0 = some 0xBC00 ∧
    lane (.vfcpys .f32 0 2 1 3) (vv 0x3F800000 0x80000000 0 0) 3 32 0 = some 0xBF800000 ∧ lane (.vfadd .bf16 0 2 1 3) (vv 0x3F80 0x3B00 0 0) 3 16 0 = some 0x3F80 := by decide +kernel
theorem witness_FloatRounding : (0x3F800000 : Nat) < 2 ^ Fmt.f32.width ∧ (1 : Int) ≤ 3 ∧ (-2 : Int) ≤ 0 := by decide +kernel
theorem witness_SpecialFunctions : (vv 1 2 3 1).VReads [1] [3] [1] [] := vv_reads ..
/-- 2^0.5 = 0x3FB504F3, log2 3 = 0x3FCAE00D, 1/3, 1/√2 = 0x3F3504F3, sin(π/2) = 1, cos π = −1, tanh 1 = 0x3F42F7D6, 1/(1 + e^−1) = 0x3F3B26A8. -/
theorem test_special : lane (.vexp2 0 1 3) (vv 0x3F000000 0 0 0) 3 32 0 = some 0x3FB504F3 ∧ lane (.vlog2 0 1 3) (vv 0x40400000 0 0 0) 3 32 0 = some 0x3FCAE00D ∧
    lane (.vrcp 0 1 3) (vv 0x40400000 0 0 0) 3 32 0 = some 0x3EAAAAAB ∧ lane (.vrsqrt 0 1 3) (vv 0x40000000 0 0 0) 3 32 0 = some 0x3F3504F3 ∧
    lane (.vsinpi 0 1 3) (vv 0x3F000000 0 0 0) 3 32 0 = some 0x3F800000 ∧ lane (.vcospi 0 1 3) (vv 0x3F800000 0 0 0) 3 32 0 = some 0xBF800000 ∧
    lane (.vtanh 0 1 3) (vv 0x3F800000 0 0 0) 3 32 0 = some 0x3F42F7D6 ∧ lane (.vsigm 0 1 3) (vv 0x3F800000 0 0 0) 3 32 0 = some 0x3F3B26A8 := by decide +kernel

/-! ## V words: compares to streams (08) -/

def vd (i : Instr) (s : State) (r : VReg) : Option Vec := after (exec i s) (fun t => t.here.v.v[r])
def md (i : Instr) (s : State) (r : MReg) : Option Mask := after (exec i s) (fun t => t.here.v.m[r])
theorem vv_clean (x y z : Vec) (k : Mask) (f : VFmt) (m : MReg) (l : List VReg) : (vv x y z k).VClean f m l := by
  intro r _ e _ _
  have h : (vv x y z k).here.v.vp = Vector.replicate 32 0 := rfl
  rw [h]
  simp
theorem witness_VectorCompares : (1 : MReg) ≠ 0 ∧ (vv 1 2 3 1).VReads [1, 2] [] [1] [] ∧ (vv 1 2 3 1).VClean .f32 1 [1, 2] ∧
    VFmt.f32.isFloat = true ∧ VFmt.i8.isFloat = false := ⟨by decide +kernel, vv_reads .., vv_clean _ _ _ _ _ _ _, rfl, rfl⟩
/-- Lanes: 1 < 2, −0 = +0, NaN unordered, 2 > 1; the other 124 lanes are equal zeros. -/
def fx : Vec := 0x40000000_7FC00000_80000000_3F800000
def fy : Vec := 0x3F800000_3F800000_00000000_40000000
theorem test_vcmp : (md (.vcmp .f32 0 2 1 2 .lt) (vv fx fy 0 0) 2).map (·.extractLsb' 0 4) = some 1 ∧
    (md (.vcmp .f32 0 2 1 2 .eq) (vv fx fy 0 0) 2).map (·.extractLsb' 0 4) = some 2 ∧
    (md (.vcmp .f32 0 2 1 2 .ne) (vv fx fy 0 0) 2).map (·.extractLsb' 0 4) = some 0xD ∧
    (md (.vcmp .f32 0 2 1 2 .un) (vv fx fy 0 0) 2).map (·.extractLsb' 0 4) = some 4 ∧
    (md (.vcmp .i8 0 2 1 2 .lt) (vv 0x80 1 0 0) 2).map (·.extractLsb' 0 4) = some 1 ∧
    (md (.vcmp .i32 0 2 1 2 .eq) (vv 0 0 0 0) 2).map (·.extractLsb' 128 1) = some 0 := by decide +kernel
theorem witness_Conversions : Fmt.f32.isVcvt = true ∧ Fmt.e4m3.isVcvt = true := by decide +kernel
/-- 1.0 → F8E4M3 0x38; 300 saturates to 0xFF in U8; −1.5 → I8 −2 (to even); 2.5 → 2. -/
theorem test_vcvt : lane (.vcvt .f32 .e4m3 .rne false 0 1 3) (vv 0x3F800000 0 0 0) 3 8 0 = some 0x38 ∧
    lane (.vcvt .f32 .u8 .rne false 0 1 3) (vv 0x43960000 0 0 0) 3 8 0 = some 0xFF ∧
    lane (.vcvt .f32 .i8 .rne false 0 1 3) (vv 0xBFC00000 0 0 0) 3 8 0 = some 0xFE ∧ lane (.vcvt .f32 .i32 .rtz false 0 1 3) (vv 0x40200000 0 0 0) 3 32 0 = some 2 ∧
    lane (.vcvt .bf16 .f32 .rne false 0 1 3) (vv 0x3F80 0 0 0) 3 32 0 = some 0x3F800000 ∧ lane (.vcvt .f32 .e4m3 .rne false 0 1 3) (vv 0 0 0xFF00 0) 3 8 200 = some 0 := by decide +kernel
theorem witness_FixedPoint : (vv 1 2 3 1).VReads [1, 2] [3] [1] [] := vv_reads ..
theorem test_fixedPoint : lane (.vqadd 0 2 1 3) (vv 0x7FFFFFFFFFFFFFFF 1 0 0) 3 64 0 = some 0x8000000000000000 ∧
    after (exec (.vqadd 0 2 1 3) (vv 0x7FFFFFFFFFFFFFFF 1 0 0)) (fun t => t.here.qovf) = some true ∧
    lane (.vqsub 0 2 1 3) (vv 5 7 0 0) 3 64 0 = some 0xFFFFFFFFFFFFFFFE ∧ lane (.vqcvt .rne 0 2 1 3) (vv 0x3FC00000 4 0 0) 3 64 0 = some 24 ∧
    lane (.vqtof .rne 0 2 1 3) (vv 24 4 0 0) 3 32 0 = some 0x3FC00000 := by decide +kernel
/-- A block whose largest magnitude is 1.0 has the scale 0 − 8 + 127 = 119 for F8E4M3; 1.0 × 2^(127 − 119) = 256. -/
theorem test_scales : lane (.vsclf 0 .e4m3 1 3) (vv 0x3F800000 0 0 0) 3 8 0 = some 119 ∧ lane (.vsclf 0 .e4m3 1 3) (vv 0x3F800000 0 0 0) 3 8 1 = some 0x7F ∧
    lane (.vsclf 0 .e4m3 1 3) (vv 0x7F800000 0 0 0) 3 8 0 = some 0xFF ∧ lane (.vscla 0 2 1 3) (vv 0x3F800000 119 0 0) 3 32 0 = some 0x43800000 ∧
    lane (.vscla 0 2 1 3) (vv 0x3F800000 0xFF 0 0) 3 32 0 = some 0x7FC00000 := by decide +kernel
theorem witness_BlockScales : (vv 1 2 3 1).VReads [1] [3] [1] [] ∧ (vv 1 2 3 1).VReads [1, 2] [3] [1] [] := ⟨vv_reads .., vv_reads ..⟩
theorem witness_Reductions : (vv 1 2 3 1).VReads [1] [] [1] [] ∧ (vv 1 2 3 1).VClean .f32 1 [1] := ⟨vv_reads .., vv_clean _ _ _ _ _ _ _⟩
theorem test_reductions : valE (.vredsum .i8 1 1 3) (vv 0xFF02 0 0 3) 3 = some 1 ∧ valE (.vredsum .u32 1 1 3) (vv 0xFFFFFFFF_00000002 0 0 3) 3 = some 1 ∧
    valE (.vredmax .i8 1 1 3) (vv 0x0180 0 0 1) 3 = some 0xFFFFFFFFFFFFFF80 ∧ valE (.vredmin .i8 0 1 3) (vv 0x0180 0 0 0) 3 = some 0xFFFFFFFFFFFFFF80 ∧
    valE (.vargmax .i8 0 1 3) (vv 0x0501 0 0 0) 3 = some 1 ∧ valE (.vargmin .u32 1 1 3) (vv 5 0 0 0) 3 = some 0xFFFFFFFFFFFFFFFF ∧
    valE (.vredsum .f32 1 1 3) (vv 0x40100000_3FC00000 0 0 3) 3 = some 0x40700000 ∧ valE (.vredmax .f32 1 1 3) (vv 0x7FC00000 0 0 1) 3 = some 0x7FC00000 := by decide +kernel
theorem witness_Scans : VFmt.i32.isScan = true ∧ (vv 1 2 3 1).VReads [1] [3] [1] [] := ⟨rfl, vv_reads ..⟩
theorem test_scans : lane (.vscan .i32 0 1 3) (vv 0x00000003_00000002_00000001 0 0 0) 3 32 2 = some 6 ∧ lane (.vscanx .i32 0 1 3) (vv 0x00000003_00000002_00000001 0 0 0) 3 32 2 = some 3 ∧
    lane (.vscan .f32 0 1 3) (vv 0x80000000 0 0 0) 3 32 0 = some 0x80000000 := by decide +kernel
theorem witness_VectorMoves : (vv 1 2 3 1).VReads [1, 2] [3] [1] [] ∧ (vv 1 2 3 1).VReads [] [3] [1] [4] := ⟨vv_reads .., vv_reads ..⟩
theorem test_moves : lane (.vperm 0 2 1 3) (vv (0x7 <<< 64) 2 0 0) 3 32 0 = some 7 ∧ lane (.vsldu .i8 0 2 1 3) (vv 0x0605 1 0 0) 3 8 1 = some 5 ∧
    lane (.vsldd .i8 0 2 1 3) (vv 0x0605 1 0 0) 3 8 0 = some 6 ∧ lane (.vsel .i8 1 2 1 3) (vv 0x0605 0x0807 0 2) 3 8 1 = some 6 ∧
    lane (.vsel .i8 1 2 1 3) (vv 0x0605 0x0807 0 2) 3 8 0 = some 7 ∧ lane (.vcmprs .i8 1 1 3) (vv 0x0605 0 0xFFFF 2) 3 8 0 = some 6 ∧
    lane (.vcmprs .i8 1 1 3) (vv 0x0605 0 0xFFFF 2) 3 8 1 = some 0 ∧ lane (.vexpnd .i8 1 1 3) (vv 0x0605 0 0 2) 3 8 1 = some 5 ∧
    lane (.vmov .i8 1 1 3) (vv 0x0605 0 0x0909 2) 3 16 0 = some 0x0609 ∧ lane (.vmovC16 3 1) (vv 0x0605 0 0 0) 3 16 0 = some 0x0605 := by decide +kernel
theorem test_vbcst : after (exec (.vbcst .i8 0 1 3) (ve 1 0x1AB 2 0)) (fun t => (t.el 8 3 511).toNat) = some 0xAB := by decide +kernel
theorem witness_MaskWords : (vv 1 2 3 1).VReads [] [] [1, 2] [4] := vv_reads ..
theorem test_masks : (md (.mand .f32 0 1 2) (vv 0 0 0 5) 2) = some 5 ∧ (md (.mor .f32 2 1 2) (vv 0 0 0 5) 2) = some 5 ∧
    (md (.mxor .f32 1 1 2) (vv 0 0 0 5) 2) = some 0 ∧ (md (.mnot .q64 1 2) (vv 0 0 0 5) 2) = some 0xFFFFFFFFFFFFFFFA ∧
    after (exec (.mset .f32 1 2) (ve 1 3 2 0)) (fun t => t.here.v.m[(2 : MReg)]) = some 7 ∧ valE (.mpop .f32 1 3) (vv 0 0 0 5) 3 = some 2 ∧
    valE (.mfirst .f32 1 3) (vv 0 0 0 4) 3 = some 2 ∧ valE (.mfirst .f32 1 3) (vv 0 0 0 0) 3 = some 0xFFFFFFFFFFFFFFFF := by decide +kernel

/-- The V stream with e1 as given, v3 as given, m1 the first lane, and words in the scratchpad at 0x100. -/
def vm (a : Word) (z : Vec) : State :=
  (vv 0 4 z 1).updHere (fun c => { c with spad := c.spad.write 0x100 16 0x44444444_33333333_22222222_11111111 false
                                          v := { c.v with eng := { c.v.eng with g := (c.v.eng.g.set 1 a).set 2 8 } } })
theorem witness_VectorMemory : Memory.wf (vm 0x100 0).here.spad.bytes = true ∧ (vm 0x100 0).here.spad.poison.Pairwise (· < ·) ∧
    (vm 0x100 0).VIdle 12 ∧ (vm 0x100 0).LanesIn 0 (fun k => (vm 0x100 0).eng.g[(1 : SReg)] + BitVec.ofNat 64 (4 * k)) ∧
    (vm 0x100 0).LanesIn 1 (fun k => (vm 0x100 0).eng.g[(1 : SReg)] + BitVec.ofNat 64 k * 8) ∧
    (vm 0xEFFFE 0).LaneFails 1 (fun k => (vm 0xEFFFE 0).eng.g[(1 : SReg)] + BitVec.ofNat 64 (4 * k)) 0 ∧
    ((vm 0x104 0).eng.g[(1 : SReg)]).toNat % 16 ≠ 0 ∧ (vm 0x100 0).laneOn 1 0 = true := by
  unfold State.VIdle State.LanesIn State.LaneFails
  decide +kernel
theorem test_vectorMemory : lane (.vld 0 0 1 3) (vm 0x100 0) 3 32 1 = some 0x22222222 ∧ lane (.vld 0 1 1 3) (vm 0x100 (7 <<< 32)) 3 32 1 = some 7 ∧
    after (exec (.vst 0 1 1 3) (vm 0x100 9)) (fun t => t.here.spad.read 0x100 8) = some 0x2222222200000009 ∧
    lane (.vlds 2 0 1 3) (vm 0x100 0) 3 32 1 = some 0x33333333 ∧ after (exec (.vsts 2 0 1 3) (vm 0x100 (9 <<< 32))) (fun t => t.here.spad.read 0x108 4) = some 9 ∧
    lane (.vldx 2 1 1 3) (vm 0x100 0) 3 32 0 = some 0x22222222 ∧ after (exec (.vstx 2 1 1 3) (vm 0x100 9)) (fun t => t.here.spad.read 0x104 4) = some 9 := by decide +kernel
theorem test_vectorMemory_more : lane (.vldC16 3 1 0) (vm 0x100 0) 3 32 3 = some 0x44444444 ∧
    after (exec (.vstC16 3 1 1) (vm 0xF0 (5 <<< 4064))) (fun t => t.here.spad.read 0x2FC 4) = some 5 ∧
    trapClass (exec (.vld 0 1 1 3) (vm 0x104 0)) = some cALIGN ∧ trapClass (exec (.vlds 2 1 1 3) (vm 0xF0000 0)) = some cAPERTURE := by decide +kernel
def vz : State := (vv 0 0 (9 <<< 2048) 1).updHere (fun c => { c with m := { c.m with z := c.m.z.set 2 { rows := (Vector.replicate 64 0).set 7 0xABCD, poison := 0 } } })
theorem witness_AccumulatorAccess : vz.VReads [] [3] [1] [] ∧ vz.VReads [3] [] [1] [] :=
  ⟨⟨rfl, ⟨_, rfl⟩, fun _ _ => rfl, fun _ _ => rfl, fun _ _ => rfl, fun _ _ => rfl⟩, ⟨rfl, ⟨_, rfl⟩, fun _ _ => rfl, fun _ _ => rfl, fun _ _ => rfl, fun _ _ => rfl⟩⟩
theorem test_accumulators : lane (.vldz 0 3 2 3) vz 3 32 64 = some 0xABCD ∧
    after (exec (.vstz 0 3 2 3) vz) (fun t => ((t.here.m.z[(2 : ZReg)]).rows[(7 : Fin 64)]).toNat) = some 9 := by decide +kernel

/-- 08's example of VMRG: A has {2, 5, 9} with 1.0, 2.5, −4.0; B has {1, 5, 9, 12} with 3.0, −2.5, 4.0, 0.5. -/
def merging : State := vBase.updHere (fun c => { c with v := { c.v with v := ((((c.v.v.set 4 (~~~(0 : Vec) <<< 96 ||| 0x00000009_00000005_00000002)).set 5
  0xC0800000_40200000_3F800000).set 6 (~~~(0 : Vec) <<< 128 ||| 0x0000000C_00000009_00000005_00000001)).set 7 0x3F000000_40800000_C0200000_40400000) } })
theorem witness_MergeWords : VFmt.f32.isMerge = true ∧ merging.VReads [4, 5, 6, 7] [8, 9] [] [] ∧ merging.VReads [4, 5, 6, 7] [] [] [] ∧
    (∀ r ∈ [(4 : VReg), 5, 6, 7], merging.here.v.vp[r] = 0) :=
  ⟨rfl, ⟨rfl, ⟨_, rfl⟩, fun _ _ => rfl, fun _ _ => rfl, fun _ _ => rfl, fun _ _ => rfl⟩,
    ⟨rfl, ⟨_, rfl⟩, fun _ _ => rfl, fun _ _ => rfl, fun _ _ => rfl, fun _ _ => rfl⟩, by decide +kernel⟩
theorem test_vmrg : (vd (.vmrgKz .f32 6 4 8) merging 8).map (·.extractLsb' 0 192) = some 0xFFFFFFFF_0000000C_00000009_00000005_00000002_00000001 ∧
    (vd (.vmrgDz .f32 6 4 8) merging 8).map (·.extractLsb' 0 128) = some 0xFFFFFFFF_0000000C_00000002_00000001 := by decide +kernel
theorem test_vmrgc : valE (.vmrgc .f32 6 4 false 3) merging 3 = some 0x0000000500040003 ∧ valE (.vmrgc .f32 6 4 true 3) merging 3 = some 0x0000000300040003 := by decide +kernel
theorem witness_MergesAreSorted : ∀ i j : Fin 128, i < j →
    (merging.here.v.v[(4 : VReg)].extractLsb' (32 * i.val) 32).toNat < (merging.here.v.v[(4 : VReg)].extractLsb' (32 * j.val) 32).toNat ∨
    (merging.here.v.v[(4 : VReg)].extractLsb' (32 * i.val) 32).toNat = 0xFFFFFFFF ∧ (merging.here.v.v[(4 : VReg)].extractLsb' (32 * j.val) 32).toNat = 0xFFFFFFFF := by
  decide +kernel

/-- A read stream's descriptor at 0x100: base 0x200, stride 512, 2 vectors, no counter; e1 names it. -/
def strm (flags : Nat) : State := vBase.updHere (fun c => { c with
  spad := c.spad.write 0x100 32 (0x200 + 512 * 2 ^ 64 + 2 * 2 ^ 128 + flags * 2 ^ 160) false
  v := { c.v with eng := { c.v.eng with g := c.v.eng.g.set 1 0x100 } } })
def bound (write : Bool) (pos : Nat) (l : List (Vec × BitVec 8)) : Binding :=
  { base := 0x200, stride := 512, count := 2, write := write, counter := some 5, pos := pos, fetched := l }
def boundAt (r : Nat) (b : Binding) : State := vBase.updHere (fun c => { c with v := { c.v with binds := [(r, b)], v := c.v.v.set 3 0x77 } })
theorem witness_StreamBinding : (strm 0).VReads [] [] [] [1] ∧ (strm 0).VIdle 15 ∧ (strm 0).ownBytes 0x114 2 = 0 ∧ (strm 2).ownBytes 0x114 2 = 2 ∧
    (strm 0).ownBytes 0x100 8 = 0x200 ∧ (strm 0).here.v.binds.find 24 = none ∧ ((boundAt 24 (bound false 0 [])).here.v.binds.find 24).isSome = true ∧
    (boundAt 24 (bound false 0 [])).VReads [] [] [] [] :=
  ⟨⟨rfl, ⟨_, rfl⟩, fun _ _ => rfl, fun _ _ => rfl, fun _ _ => rfl, fun _ _ => rfl⟩, by unfold State.VIdle; decide +kernel, by decide +kernel, by decide +kernel, by decide +kernel,
    by decide +kernel, by decide +kernel, ⟨rfl, ⟨_, rfl⟩, nofun, nofun, nofun, nofun⟩⟩
theorem test_vstrm : after (exec (.vstrm 1 24) (strm 0)) (fun t => (t.here.v.binds.find 24).map (fun b => (b.base, b.stride, b.count, b.write))) = some (some (0x200, 512, 2, false)) ∧
    trapClass (exec (.vstrm 1 24) (strm 2)) = some cSTREAM ∧ after (exec (.vstrmx 24) (boundAt 24 (bound false 0 []))) (fun t => t.here.v.binds) = some [] := by decide +kernel
theorem witness_BoundRegisters : (boundAt 24 (bound false 0 [])).cur.stream = .v ∧ (24 : VReg) ≠ 3 ∧ (boundAt 24 (bound false 0 [])).VIdle 10 ∧
    (boundAt 24 (bound false 0 [])).eng.inFlight (.v 24) = false ∧ (boundAt 24 (bound false 0 [(7, 0)])).here.v.binds.find 24 = some (bound false 0 [(7, 0)]) ∧
    (boundAt 24 (bound false 0 [])).here.v.binds.find 3 = none ∧ (bound false 0 []).pos < (bound false 0 []).count ∧ (bound false 2 []).count ≤ (bound false 2 []).pos ∧
    (0 ≤ ((bound true 1 []).base : Int) + (bound true 1 []).pos * (bound true 1 []).stride) := by
  unfold State.VIdle
  decide +kernel
theorem test_bound : lane (.vmov .f32 0 24 3) (boundAt 24 (bound false 0 [(7, 0)])) 3 32 0 = some 7 ∧
    after (exec (.vmov .f32 0 24 3) (boundAt 24 (bound false 0 []))) (fun t => t.eng.wait) = some (some (.vector 24)) ∧
    after (exec (.vmov .f32 0 3 24) (boundAt 24 (bound true 1 []))) (fun t => (t.here.spad.read 0x400 4, (t.here.v.binds.find 24).map (·.pos))) = some (0x77, some 2) ∧
    trapClass (exec (.vmov .f32 0 24 3) (boundAt 24 (bound false 2 []))) = some cSTREAM := by decide +kernel


/-! ## M words (09, 10) -/

/-- The M stream with MCONF `conf`, q1 = `a`, q2 = `b`, q3 = `c`, and values in the scratchpad at three offsets. -/
def mm (conf a b c : Word) (l : List (Nat × Nat × Nat)) : State := mBase.updHere (fun x => { x with
  spad := l.foldl (fun p e => p.write e.1 e.2.1 e.2.2 false) x.spad
  m := { x.m with mconf := conf, eng := { x.m.eng with g := ((x.m.eng.g.set 1 a).set 2 b).set 3 c } } })
theorem reads_of (s : State) (qs : List QReg) (h : s.cur.stream = .m) (e : s.eng = { engAt (some blk0) with g := s.eng.g }) (a : s.here.m.arr = none) :
    s.MReads qs := by
  refine ⟨h, ⟨_, by rw [e]; rfl⟩, fun r _ => by rw [e]; rfl, by rw [e]; rfl, fun x g => ?_⟩
  rw [a] at g
  cases g
theorem mm_reads (conf a b c : Word) (l : List (Nat × Nat × Nat)) (qs : List QReg) : (mm conf a b c l).MReads qs :=
  reads_of _ _ rfl rfl (by rw [mm, State.here_updHere]; rfl)
/-- A word, and then the effects of the array word that is in execution. -/
def performed (i : Instr) (s : State) : Host.Outcome State Fault Refusal := match exec i s with
  | .next t => .next (t.arrPerform t.cur.cell)
  | o => o
/-- Element [i][j] of a tile after a word has performed its effects, and its poison. -/
def tile (i : Instr) (s : State) (z : ZReg) (r c : Nat) : Option (Nat × Nat) :=
  after (performed i s) (fun t => (t.here.m.z[z].el r c, t.here.m.z[z].poison.toNat))
/-- `s` with one element, held 64 times in one row, in tile 0. -/
def withRow (s : State) (r : Fin 64) (v : BitVec 2048) : State :=
  s.updHere (fun x => { x with m := { x.m with z := x.m.z.set 0 { rows := (Vector.replicate 64 0).set r v, poison := 2 } } })

/-- I8 with K = 32: row 0 of A is −1, 0, …, 0, 2 and row 1 of B is 3, 0, …, 0, 5. -/
def prodI8 : State := mm 0xAA 0 0x40000 32 [(0, 32, 0xFF + 2 * 2 ^ 248), (0x40020, 32, 3 + 5 * 2 ^ 248)]
/-- F8E4M3 with K = 32: 1.0, 2.0 by 1.0, 1.0. -/
def prodF8 : State := mm 0x33 0 0x40000 32 [(0, 2, 0x4038), (0x40000, 2, 0x3838)]
theorem witness_MatrixProducts : prodF8.MReads [3, 2, 1] ∧ (mm 0x33 0 0x40000 0 []).MReads [0, 2, 1] ∧ depthFits 32 ∧
    regionsOk 0 (tileBytes .e4m3 false 64 32) 0x40000 (tileBytes .e4m3 false 64 32) ∧ regionsOk 0 (40 * 32) 0x40000 (64 * 32) ∧
    confA prodF8.here.m.mconf = .e4m3 ∧ confB prodF8.here.m.mconf = .e4m3 ∧ confMx prodF8.here.m.mconf = false := by
  refine ⟨mm_reads .., mm_reads .., ?_⟩
  unfold depthFits regionsOk
  decide +kernel
/-- A24 in which every pair keeps columns 0 and 1 (metadata 4). -/
def prod24 : State := mm 0x33 0 0x40000 32 [(0, 2, 0x4038), (0x400, 256, (16 ^ 512 - 1) / 15 * 4), (0x40000, 2, 0x3838)]
theorem prod24_bytes : ∀ n, n < 256 → prod24.ownBytes (0x400 + n) 1 = 0x44 := by decide +kernel
theorem witness_MatrixProducts_pairs : prod24.MReads [3, 2, 1] ∧ ∀ i q, i < 64 → q < 32 / 4 →
    (prod24.ownBytes (0x400 + i * 4 + q / 2) 1 / 16 ^ (q % 2) % 16) % 4 < prod24.ownBytes (0x400 + i * 4 + q / 2) 1 / 16 ^ (q % 2) % 16 / 4 := by
  refine ⟨mm_reads .., fun i q h k => ?_⟩
  rw [Nat.add_assoc, prod24_bytes (i * 4 + q / 2) (by omega)]
  obtain h | h := Nat.mod_two_eq_zero_or_one q <;> rw [h] <;> decide
theorem test_mma24 : trapClass (performed (.mma24 true 3 2 0 1) prodF8) = some cSPMETA := by decide +kernel
theorem witness_IntegerProducts : prodI8.MReads [3, 2, 1] ∧ prodI8.here.m.mconf = 0xAA ∧ depthFits 32 ∧ regionsOk 0 (64 * 32) 0x40000 (64 * 32) := by
  refine ⟨mm_reads .., rfl, ?_⟩
  unfold depthFits regionsOk
  decide
theorem test_mma_i8 : tile (.mma true 3 2 0 1) prodI8 0 0 1 = some (7, 0) ∧ tile (.mma false 3 2 0 1) (withRow prodI8 0 (0xFFFFFFFF <<< 32)) 0 0 1 = some (6, 2) := by
  decide +kernel
def k0 (s : State) : State := s.updHere (fun x => { x with m := { x.m with eng := { x.m.eng with g := x.m.eng.g.set 0 32 } } })
theorem test_mma_compact : tile (.mmaC16 0 1 2) (k0 (withRow prodI8 0 0x100000005)) 0 0 0 = some (5, 2) ∧
    tile (.mmaClrC16 0 1 2) (k0 (withRow prodI8 0 0x100000005)) 0 0 1 = some (7, 0) := by decide +kernel
theorem witness_MatrixChecks : (mm 0x33 0 0x40000 33 []).MReads [3, 2, 1] ∧ (mm 0x33 0 0x40000 33 []).here.m.arrFree ≤ (mm 0x33 0 0x40000 33 []).eng.clk ∧
    ¬depthFits 33 ∧ depthFits 64 ∧ 0xF0000 < 0xEFFF0 + tileBytes .e4m3 false 64 32 ∧ ¬regionsOk 0 2048 0x4000 2048 := by
  refine ⟨mm_reads .., ?_⟩
  unfold depthFits regionsOk
  decide +kernel
theorem test_mma_checks : trapClass (exec (.mma true 3 2 0 1) (mm 0x33 0 0x40000 33 [])) = some cILLEGAL ∧
    trapClass (exec (.mma true 3 2 0 1) (mm 0x33 8 0x40000 32 [])) = some cALIGN ∧ trapClass (exec (.mma true 3 2 0 1) (mm 0x33 0 0xEFFF0 32 [])) = some cAPERTURE ∧
    trapClass (exec (.mma true 3 2 0 1) (mm 0x33 0 0x4000 32 [])) = some cBANKGRP ∧ trapClass (exec (.mma true 3 2 0 1) (mm 0x33 0x3FFF0 0x80000 32 [])) = some cBANKGRP := by
  decide +kernel

/-- Cells 0 and 1 at the rendezvous of a chain of two. -/
def waiting : Engine := { engAt (some blk0) with wait := some (.chain 2 1 32 0xAA true 0 0 0x40000) }
def chained : State := (mm 0xAA 0 0x40000 32 []).updCell 1 (fun c => { c with m := { c.m with eng := waiting }
                                                                              spad := c.spad.write 0x40000 1 5 false })
def chainW : Nat → Bool × ZReg × Nat × Nat := fun _ => (true, 0, 0, 0x40000)
def chainReady : State := chained.updCell 0 (fun c =>
  { c with m := { c.m with eng := { c.m.eng with wait := some (.chain 2 0 32 0xAA true 0 0 0x40000) } }
           spad := c.spad.write 0 1 3 false })
theorem witness_Chains : chained.MReads [3, 2, 1] ∧ chained.here.m.arrFree ≤ chained.eng.clk ∧ depthFits 32 ∧ regionsOk 0 2048 0x40000 2048 ∧
    ((0 : Fin 4).val ≤ chained.here.x ∧ chained.here.x - (0 : Fin 4).val + (1 : Fin 4).val < chained.myLaunch.w) ∧
    ¬((1 : Fin 4).val ≤ chained.here.x ∧ chained.here.x - (1 : Fin 4).val + (2 : Fin 4).val < chained.myLaunch.w) ∧ chainReady.active 1 = true ∧
    (∀ i, i < 2 → (chainReady.cell (0 + i)).launch = (chainReady.cell (0 + 1)).launch ∧ (chainReady.cell (0 + i)).x = (chainReady.cell 0).x + i ∧
      (chainReady.cell (0 + i)).m.eng.wait = some (.chain 2 i 32 0xAA (chainW i).1 (chainW i).2.1 (chainW i).2.2.1 (chainW i).2.2.2)) ∧
    (chainW 0).2.2.1 = 0 := by
  refine ⟨reads_of _ _ rfl rfl (by decide +kernel), ?_⟩
  unfold depthFits regionsOk
  decide +kernel
theorem test_mmac : after (exec (.mmac 0 1 true 3 2 0 1) chained) (fun t => t.eng.wait) = some (some (.chain 2 0 32 0xAA true 0 0 0x40000)) ∧
    after (exec (.mmacChainStart 1) chainReady) (fun t => (((t.arrPerform 1).cell 1).m.z[(0 : ZReg)].el 0 0, (t.cell 1).m.arrFree, (t.cell 0).m.arrFree)) = some (15, 11, 10) := by
  decide +kernel

/-- Tile 1 with element [0][3] = 1.0 and row 1 poisoned. -/
def tile1 : Tile := { rows := (Vector.replicate 64 0).set 0 (0x3F800000 <<< 96), poison := 4 }
def twoTiles : State := (withRow (mm 0x33 0x100 0x200 0 [(0x104, 4, 7)]) 0 (0x40000000 <<< 96)).updHere (fun x => { x with m := { x.m with z := x.m.z.set 1 tile1 } })
theorem witness_TileMoves : twoTiles.MReads [] ∧ twoTiles.MReads [1] ∧ ((twoTiles.eng.g[(1 : QReg)]).toNat % 16 = 0 ∧ (twoTiles.eng.g[(1 : QReg)]).toNat + 16384 ≤ 0xF0000) ∧
    (mm 0x33 8 0 0 []).MReads [1] ∧ ((mm 0x33 8 0 0 []).eng.g[(1 : QReg)]).toNat % 16 ≠ 0 ∧ (0xF0000 : Nat) < ((mm 0x33 0xEFFF0 0 0 []).eng.g[(1 : QReg)]).toNat + 16384 ∧
    twoTiles.here.m.arrFree ≤ twoTiles.eng.clk :=
  ⟨reads_of _ _ rfl rfl (by decide +kernel), reads_of _ _ rfl rfl (by decide +kernel), by decide +kernel, mm_reads .., by and_intros <;> decide +kernel⟩
theorem test_tileMoves : tile (.mzero 0) twoTiles 0 0 3 = some (0, 0) ∧ tile (.mzeroC16 0) twoTiles 0 0 3 = some (0, 0) ∧ tile (.mxpMov 1 0) twoTiles 0 0 3 = some (0x3F800000, 4) ∧
    tile (.mxpTrn 1 0) twoTiles 0 3 0 = some (0x3F800000, 0xFFFFFFFFFFFFFFFF) ∧ tile (.mxpAdd 1 0) twoTiles 0 0 3 = some (0x40400000, 6) ∧ tile (.mzld 0 1) twoTiles 0 0 1 = some (7, 0) := by
  decide +kernel
theorem test_mzld_checks : trapClass (exec (.mzld 0 1) (mm 0x33 8 0 0 [])) = some cALIGN ∧ trapClass (exec (.mzld 0 1) (mm 0x33 0xEFFF0 0 0 [])) = some cAPERTURE := by decide +kernel

/-- A column map at 0x200 that exchanges columns 0 and 1. -/
def swap01 : Nat := ((List.range 64).map (fun j => (if j < 2 then 1 - j else j) * 256 ^ j)).foldl (· + ·) 0
def mapped : State := twoTiles.updHere (fun x => { x with spad := x.spad.write 0x200 64 swap01 false })
def badMap : State := mapped.updHere (fun x => { x with spad := x.spad.write 0x205 1 64 false })
theorem mapped_bytes : ∀ j, j < 64 → mapped.ownBytes ((mapped.eng.g[(2 : QReg)]).toNat + j) 1 = if j < 2 then 1 - j else j := by decide +kernel
theorem badMap_bytes : ∀ j, j < 6 → badMap.ownBytes (0x200 + j) 1 = if j = 5 then 64 else if j < 2 then 1 - j else j := by decide +kernel
theorem witness_TileStores : Fmt.f32.isMzst = true ∧ Memory.wf mapped.here.spad.bytes = true ∧ mapped.here.spad.poison.Pairwise (· < ·) ∧ mapped.MReads [3, 2, 1] ∧
    ((mapped.eng.g[(1 : QReg)]).toNat % 16 = 0 ∧ (mapped.eng.g[(1 : QReg)]).toNat + 63 * 256 + 256 ≤ 0xF0000) ∧ mapped.eng.g[(3 : QReg)] = 0 ∧
    (let m := (mapped.eng.g[(2 : QReg)]).toNat; m % 16 = 0 ∧ m + 64 ≤ 0xF0000 ∧ (∀ j, j < 64 → mapped.ownBytes (m + j) 1 < 64) ∧
      ∀ i j, i < j → j < 64 → mapped.ownBytes (m + i) 1 ≠ mapped.ownBytes (m + j) 1) ∧
    badMap.MReads [3, 2, 1] ∧ badMap.here.m.arrFree ≤ badMap.eng.clk ∧ 64 ≤ badMap.ownBytes (0x200 + 5) 1 ∧
    (∀ k, k < 5 → badMap.ownBytes (0x200 + k) 1 < 64 ∧ ∀ i, i < k → badMap.ownBytes (0x200 + i) 1 ≠ badMap.ownBytes (0x200 + k) 1) := by
  refine ⟨rfl, by decide +kernel, by decide +kernel, reads_of _ _ rfl rfl (by decide +kernel), by decide +kernel, by decide +kernel,
    ⟨by decide +kernel, by decide +kernel, fun j h => ?_, fun i j h k => ?_⟩, reads_of _ _ rfl rfl (by decide +kernel), by decide +kernel,
    by rw [badMap_bytes 5 (by decide)]; decide, fun k h => ⟨?_, fun i g => ?_⟩⟩
  · rw [mapped_bytes j h]
    split <;> omega
  · rw [mapped_bytes j k, mapped_bytes i (by omega)]
    split <;> split <;> omega
  · rw [badMap_bytes k (by omega)]
    split <;> (try split) <;> omega
  · rw [badMap_bytes k (by omega), badMap_bytes i (by omega)]
    repeat' split
    all_goals omega
theorem test_mzst_element : storeEl false 0 .f32 .rne false 0 0x40000000 = (0x40000000, false) ∧ storeEl false 0 .e4m3 .rne false 0 0x40000000 = (0x40, false) ∧
    storeEl false 0 .bf16 .rne false 0 0x3F808000 = (0x3F80, false) ∧ storeEl true 2 .i8 .rne false 0 300 = (127, false) ∧ storeEl false 2 .q64 .rne false 0 0x3F800000 = (4, false) := by decide +kernel
theorem test_mzst_map : trapClass (exec (.mzstCmap false .rne .f32 3 2 0 1) badMap) = some cSPMETA := by decide +kernel
theorem witness_MatrixRegisters : (mm 0 0x33 0 0 []).MReads [1] ∧ (mm 0 0x333 0 0 []).MReads [1] ∧ (mm 0 0x333 0 0 []).here.m.arrFree ≤ (mm 0 0x333 0 0 []).eng.clk :=
  ⟨mm_reads .., mm_reads .., by decide⟩
theorem test_matrixRegisters : after (exec (.mcfg 1) (mm 0 0x133 0 0 [])) (fun t => t.here.m.mconf) = some 0x133 ∧ trapClass (exec (.mcfg 1) (mm 0 0x233 0 0 [])) = some cILLEGAL ∧
    trapClass (exec (.mcfg 1) (mm 0 0x3A 0 0 [])) = some cILLEGAL ∧ valE (.mcfgRd 1) (mm 0x44 7 0 0 []) 1 = some 0x44 ∧ valE (.mprog 1) (mm 0x44 7 0 0 []) 1 = some 0 := by decide +kernel
theorem test_mzpoi : valE (.mzpoiRd 1 1) twoTiles 1 = some 4 ∧ tile (.mzpoiWr 1 1) twoTiles 1 0 3 = some (0x3F800000, 0x100) ∧ tile (.mzpoiOr 1 1) twoTiles 1 0 3 = some (0x3F800000, 0x104) := by
  decide +kernel

/-! ## Array words in parts, steps of the engines -/

/-- A word that runs in parts stands in the array since CCLK 0, its flight in the engine. -/
def running (arr : Option ArrWord) (c : Cell) : Cell := { c with m := { c.m with
  arr := arr.map (fun w => { word := w, seq := 9, began := 0, past := [], base := none, raced := 0 })
  eng := { c.m.eng with flights := if arr = none then [] else [.word 0 [.part] none false] } } }
/-- MMG of one entry at 0x100: A of 1 row at 0x1000, B at 0x40000, row 2 of the tile, accumulating. -/
def grouped (entry : Nat) (arr : Option ArrWord) : State := (mm 0x33 0x100 1 32
    [(0x100, 16, 0x1000 + 0x40000 * 2 ^ 32 + 1 * 2 ^ 64 + 2 * 2 ^ 72 + entry * 2 ^ 96), (0x1000, 2, 0x4038), (0x40000, 2, 0x3838)]).updHere (running arr)
def inList : ArrWord := .mmg 0 0x100 1 32 0x33 0 0x10000
theorem runs_of (s : State) (w : ArrWord) (h : s.here.m.arr = some { word := w, seq := 9, began := 0, past := [], base := none, raced := 0 })
    (f : s.here.m.eng.flights = [.word 0 [.part] none false]) : s.PartRuns w 0 [] := ⟨⟨9, h⟩, ⟨0, f⟩, nofun⟩
theorem witness_GroupedProducts : (grouped 0 none).MReads [3, 2, 1] ∧ (mm 0x33 0x108 65536 32 []).MReads [3, 2, 1] ∧ (grouped 0 none).here.m.arrFree ≤ (grouped 0 none).eng.clk ∧
    65535 < ((mm 0x33 0x108 65536 32 []).eng.g[(2 : QReg)]).toNat ∧ ¬depthFits 33 ∧ depthFits 32 ∧ 0x108 % 16 ≠ 0 ∧ 0xF0000 < 0xEFFF0 + 16 * 2 ∧ 0x100 + 16 * 1 ≤ 0xF0000 :=
  ⟨reads_of _ _ rfl rfl (by decide +kernel), mm_reads .., by unfold depthFits; decide +kernel⟩
theorem witness_GroupedProducts_entry : (let s := grouped 0 (some inList); let p := s.here.spad
    s.PartRuns inList 0 [] ∧ s.active s.cur.cell = true ∧ s.ownBytes 0x100 4 < 2 ^ 20 ∧ s.ownBytes 0x104 4 < 2 ^ 20 ∧ s.ownBytes 0x109 1 + s.ownBytes 0x108 1 ≤ 64 ∧
      s.ownBytes 0x109 1 ≤ 63 ∧ s.ownBytes 0x10C 1 ≤ 1 ∧ s.ownBytes 0x10D 3 = 0 ∧ regionsOk 0x1000 (tileBytes .e4m3 false 1 32) 0x40000 (tileBytes .e4m3 false 64 32) ∧
      p.bad 0x40000 (tileBytes .e4m3 false 64 32) = false) := by
  refine ⟨runs_of _ _ (by decide +kernel) (by decide +kernel), ?_⟩
  unfold regionsOk
  decide +kernel
theorem test_mmg : after (exec (.mmg 3 2 0 1) (grouped 0 none)) (fun t => t.here.m.arr.map (·.word)) = some (some inList) ∧
    trapClass (exec (.mmg 3 2 0 1) (mm 0x33 0x100 65536 32 [])) = some cILLEGAL ∧ trapClass (exec (.mmg 3 2 0 1) (mm 0x33 0x108 1 32 [])) = some cALIGN ∧
    trapClass (exec (.mmg 3 2 0 1) (mm 0x33 0xEFFF0 2 32 [])) = some cAPERTURE := by decide +kernel
theorem test_mmg_entry : after (exec (.mmgEntryBoundary 0) (grouped 0 (some inList))) (fun t => (t.here.m.z[(0 : ZReg)].el 2 0, t.here.m.arr)) = some (0x40400000, none) ∧
    trapClass (exec (.mmgEntryBoundary 0) (grouped 2 (some inList))) = some cILLEGAL := by decide +kernel

/-- A bitmap tile with 2.0 in row 0 at k = `k`: format 3, orientation `o`, nnz 1, row offsets 0, 1, 1, …; values at +0x290. -/
def bitTile (at_ o k : Nat) : List (Nat × Nat × Nat) :=
  [(at_, 4, 3 + 256 * o + 65536), (at_ + 16, 8, 2 ^ k), (at_ + 0x212, 126, (256 ^ 126 - 1) / 65535), (at_ + 0x290, 1, 0x40)]
def sparse (arr : Option ArrWord) : State := (mm 0x33 0 0x40000 0 (bitTile 0 0 5 ++ bitTile 0x40000 1 5)).updHere (running arr)
def spWord (n : Nat) (md : Option SpMeta) : ArrWord := .mmas 0 true 0 0x40000 0x33 n md 0 false 0x10000
theorem witness_SparseProducts : (sparse none).MReads [2, 1] ∧ (mm 0x133 0 0x40000 0 []).MReads [2, 1] ∧ confMx 0x133 = true ∧
    (sparse none).here.m.arrFree ≤ (sparse none).eng.clk ∧ confMx 0x33 = false ∧ regionsOk 0 (0x2D0 + 512 * 8) 0x40000 (0x2D0 + 512 * 8) :=
  ⟨reads_of _ _ rfl rfl (by decide +kernel), mm_reads .., by unfold regionsOk; decide +kernel⟩
/-- The structures of both tiles are sound (10 R207), not poisoned, and the first chunk is next. -/
theorem witness_SparseProducts_chunk : (let s := sparse (some (spWord 0 none)); let p := s.here.spad
    let bits (x n : Nat) : Nat := ((List.range n).filter (fun k => x.testBit k)).length
    s.PartRuns (spWord 0 none) 0 [] ∧ s.active s.cur.cell = true ∧ p.bad 0 0x290 = false ∧ p.bad 0x40000 0x290 = false ∧
      (∀ j, j < 64 → p.spRowBad .e4m3 0x40290 (s.ownBytes (0x40000 + 16 + 8 * j) 8) (s.ownBytes (0x40000 + 0x210 + 2 * j) 2) = false) ∧
      (∀ t ∈ [0, 0x40000], s.ownBytes t 1 = 3 ∧ s.ownBytes (t + 6) 10 = 0 ∧ s.ownBytes (t + 4) 2 = 0 ∧ s.ownBytes (t + 2) 2 = 1 ∧
        (∀ i, i < 64 → bits (s.ownBytes (t + 16 + 8 * i) 8) 64 = if i = 0 then 1 else 0) ∧
        ∀ i, i < 64 → s.ownBytes (t + 0x210 + 2 * i) 2 = if i = 0 then 0 else 1) ∧
      s.ownBytes 1 1 = 0 ∧ s.ownBytes 0x40001 1 = 1) := ⟨runs_of _ _ (by decide +kernel) (by decide +kernel), by decide +kernel⟩
theorem test_mmas : after (exec (.mmas true 2 0 1) (sparse none)) (fun t => t.here.m.arr.map (·.word)) = some (some (spWord 0 none)) ∧
    trapClass (exec (.mmas true 2 0 1) (mm 0x133 0 0x40000 0 [])) = some cILLEGAL := by decide +kernel
theorem test_mmas_chunk : after (exec (.mmasChunkBoundary 0) (sparse (some (spWord 0 none)))) (fun t => (t.here.m.z[(0 : ZReg)].el 0 0, t.here.m.z[(0 : ZReg)].el 1 0)) =
    some (0x40800000, 0) := by decide +kernel

/-- The V engine of cell 0, idle, with a fork waiting; and with a word in flight. -/
def forked : State := base.updHere (fun c => { c with v := { c.v with eng := { c.v.eng with forks := [{ pc := 0x10000, a0 := 1, a1 := 2, a2 := 3, a3 := 4 }], flights := [.word 0 [] none true] } } })
def flying (p : Option Produce) : State := vBase.updHere (fun c => { c with v := { c.v with eng := { c.v.eng with flights := [.word 3 [.v 1] p false] } } })
def inFlight : State := mBase.updHere (fun c => { c with m := { c.m with
  arr := some { word := .mzero 1, seq := 9, began := 0, past := [], base := none, raced := 0 }
  eng := { c.m.eng with flights := [.word 3 [.arr 9] none false] } } })
def fetching : State := boundAt 24 { bound false 0 [(7, 0)] with stride := 512 }
theorem witness_EngineSteps : ((forked.cell 0).engOf .v).run = none ∧ ((forked.cell 0).engOf .v).stopped = false ∧ forked.active 0 = true ∧
    (∀ f ∈ ((forked.cell 0).engOf .v).flights, f = .word 0 [] none true) ∧ ((forked.cell 0).engOf .v).forks.length = 1 ∧
    ((flying none).here.engOf .v).flights = [.word 3 [.v 1] none false] ∧
    (inFlight.here.m.arr.map (·.word)) = some (.mzero 1) ∧ inFlight.here.m.eng.flights = [.word 3 [.arr 9] none false] ∧
    (fetching.cell 0).v.binds.find 24 = some (bound false 0 [(7, 0)]) ∧ 0 + 1 < (bound false 0 [(7, 0)]).count := by decide +kernel
theorem test_engineSteps : after (exec (.streamStart 0 .v) forked) (fun t => ((t.cell 0).v.eng.run.map (·.pc), (t.cell 0).v.eng.g[(3 : SReg)], (t.cell 0).v.eng.forks)) = some (some 0x10000, 4, []) ∧
    after (exec (.streamWordComplete 0 .v 0) (flying (some ⟨4, 1, 0x10000⟩))) (fun t => ((t.cell 0).k[(4 : KReg)], (t.cell 0).v.eng.flights)) = some (1, [.word 3 [.v 1] none true]) ∧
    after (exec (.vstrmVectorFetch 0 24) fetching) (fun t => ((t.cell 0).v.binds.find 24).map (·.fetched.length)) = some (some 2) := by decide +kernel
theorem witness_ArrayOrder : inFlight.cur.stream = .m ∧ (inFlight.here.m.arr.map (fun x => x.word.inParts)) = some false ∧ (grouped 0 (some inList)).cur.stream = .m ∧
    ((grouped 0 (some inList)).here.m.arr.map (fun x => x.word.inParts)) = some true ∧ (grouped 0 (some inList)).eng.stopped = false := by decide +kernel
/-- A second word stands behind the list that is under way; the other performs its effects first (09 R185). -/
theorem test_arrayOrder : after (exec (.mzero 0) (grouped 0 (some inList))) (fun t => t.eng.wait) = some (some .array) ∧
    after (exec (.mzero 0) (inFlight.updHere (fun x => { x with m := { x.m with z := x.m.z.set 1 tile1 } }))) (fun t => t.here.m.z[(1 : ZReg)].el 0 3) = some 0 := by decide +kernel
theorem witness_PartedWordsGoOn : (grouped 0 none).MReads [3, 2, 1] ∧ (sparse none).MReads [2, 1] ∧ ((grouped 0 none).eng.g[(2 : QReg)]).toNat ≤ 65535 ∧
    ((grouped 0 none).eng.g[(1 : QReg)]).toNat + 16 * ((grouped 0 none).eng.g[(2 : QReg)]).toNat ≤ 0xF0000 ∧ depthFits 32 ∧ confMx 0x33 = false ∧ regionsOk 0 (0x2D0 + 512 * 8) 0x40000 (0x2D0 + 512 * 8) :=
  ⟨witness_GroupedProducts.1, witness_SparseProducts.1, by unfold depthFits regionsOk; decide +kernel⟩

/-! ## Tasks, steals, the network, messages (04, 01, 12) -/

def rec0 : TaskRec := { pc := 0x20000, a0 := 1, a1 := 2, a2 := 3, a3 := 4 }
def rec1 : TaskRec := { rec0 with pc := 0x30000 }
def entry0 (x : TaskRec) (at_ : Nat) : DequeEntry := { task := x, entered := at_ }
/-- Two records; the cold one entered at 0 and the time is `now`. -/
def queued (now priv : Nat) : State := (({ base with now := now }).updHere (fun c => { c with deque := [entry0 rec0 0, entry0 rec1 now] })).updLaunch 0
  (fun l => { l with privSize := priv, reserve := 0x1000 })
def queuedPool (now : Nat) : State := { queued now 256 with jobs := [(1, { job0 with poolBase := 0x18000, poolSize := 0x1000 })] }
theorem witness_TaskStarts : (queued 0 0).active 0 = true ∧ ((queued 0 0).cell 0).launch = some 0 ∧ ((queued 0 0).cell 0).fibres.lowestFree 239 17 = some 18 ∧
    ((queued 0 0).cell 0).deque = [entry0 rec0 0] ++ [entry0 rec1 0] ∧ ¬(0 + 1048576 ≤ (queued 0 0).now) ∧ 0 + 1048576 ≤ (queued 1048576 0).now ∧
    ((queued 0 0).launch 0).privSize = 0 ∧ ((queuedPool 0).launch 0).privSize ≠ 0 ∧ (queuedPool 0).newRegion 0 = some 0x18000 := by decide +kernel
theorem test_taskStarts : after (exec (.taskPop 0) (queued 0 0)) (fun t => ((t.cell 0).fibres.find 18).map (fun f => (f.body.pc, f.body.g[(3 : GReg)], f.body.g[(6 : GReg)]))) = some (some (0x30000, 4, 0)) ∧
    after (exec (.coldEndPromote 0) (queued 1048576 0)) (fun t => ((t.cell 0).fibres.find 18).map (·.body.pc)) = some (some 0x20000) ∧
    after (exec (.taskPop 0) (queuedPool 0)) (fun t => (((t.cell 0).fibres.find 18).map (fun f => (f.body.priv, f.body.g[(6 : GReg)])), (t.launch 0).regions)) =
      some (some (some 0x18000, 0xB000000000000100), [0x18000]) := by decide +kernel

/-- Cell 0 runs no task and steals; cell 1 has `l` in its deque. -/
def thief (p : StealPhase) (l : List DequeEntry) : State :=
  { base with now := 2000, cells := [(0, { Cell.idle with launch := some 0, steal := { last := none, empties := 0, phase := p } }), (1, { Cell.idle with launch := some 0, x := 1, deque := l })] }
theorem witness_Stealing : ((thief .idle []).cell 0).deque = [] ∧ ((thief .idle []).cell 0).fibres = [] ∧ (thief .idle []).active 0 = true ∧ (thief .idle []).noSteal 0 = false ∧
    nextVictim ((thief .idle []).cell 0).steal.last ((thief .idle []).victims 0) = some 1 ∧ ((thief (.answered (some rec0)) []).cell 0).steal.phase = .answered (some rec0) ∧
    ((thief (.answered (some rec0)) []).cell 0).deque.length < 64 ∧ ((thief (.answered none) []).cell 0).steal.phase = .answered none ∧
    ((thief (.backoff 976) []).cell 0).steal.phase = .backoff 976 ∧ 976 + 1024 ≤ (thief (.backoff 976) []).now := by decide +kernel
theorem test_steals : after (exec (.stealSend 0) (thief .idle [])) (fun t => ((t.cell 0).steal.phase, (t.cell 0).steal.last)) = some (.asked 1, some 1) ∧
    after (exec (.stealAnswerArrive 0) (thief (.answered (some rec0)) [])) (fun t => (t.cell 0).deque) = some [entry0 rec0 2000] ∧
    after (exec (.stealAnswerArrive 0) (thief (.answered none) [])) (fun t => (t.cell 0).steal.phase) = some (.backoff 2000) ∧
    after (exec (.stealBackoffExpire 0) (thief (.backoff 976) [])) (fun t => (t.cell 0).steal.phase) = some .idle := by decide +kernel
/-- A victim none of whose task slots is FREE; and one with FREE slots and no region for a task. -/
def busyVictim : State := (thief (.asked 1) [entry0 rec0 0]).updCell 1 (fun c => { c with fibres := (upFrom 239 17).map (fun n => (n, fib0)) })
def roomless (l : List DequeEntry) : State := (thief (.asked 1) l).updLaunch 0 (fun x => { x with privSize := 256 })
theorem witness_StealAnswers : ((thief (.asked 1) []).cell 0).steal.phase = .asked 1 ∧ ((thief (.asked 1) []).cell 1).deque = [] ∧
    (busyVictim.cell 1).deque = [entry0 rec0 0] ∧ (∀ n, n < 256 → 17 ≤ n → ((busyVictim.cell 1).fibres.find n).isSome = true) ∧
    (∀ s ∈ [thief (.asked 1) [], busyVictim, roomless [entry0 rec0 0], roomless [entry0 rec0 0, entry0 rec1 0]], s.canPop 1 = false ∧ s.spawnWaits 1 = false) ∧
    ((roomless [entry0 rec0 0]).cell 1).fibres.find 17 = none ∧ (thief (.asked 1) [entry0 rec0 0]).canPop 1 = true ∧
    ((roomless [entry0 rec0 0, entry0 rec1 0]).cell 1).deque = entry0 rec0 0 :: entry0 rec1 0 :: [] := by decide +kernel
def stole (o : Host.Outcome State Fault Refusal) : Option (StealPhase × List DequeEntry) := after o (fun t => ((t.cell 0).steal.phase, (t.cell 1).deque))
theorem test_stealServe : stole (exec (.stealServe 0) (roomless [entry0 rec0 0, entry0 rec1 0])) = some (.answered (some rec0), [entry0 rec1 0]) ∧
    stole (exec (.stealServe 0) (roomless [entry0 rec0 0])) = some (.answered none, [entry0 rec0 0]) ∧ stole (exec (.stealServe 0) busyVictim) = some (.answered (some rec0), []) ∧
    stole (exec (.stealServe 0) (thief (.asked 1) [entry0 rec0 0])) = some (.asked 1, [entry0 rec0 0]) := by decide +kernel

/-- One message in the network, from cell 0 to cell 1. -/
def msg (b : MsgBody) (landed : Bool) : Msg :=
  { id := 7, src := .cell 0, dst := .cell 1, cls := .request, body := b, stage := if landed then .landed else .whole, part := 0, sent := 0, got := 0, since := 0 }
def netS (b : MsgBody) : State := { base with net := [msg b true], nextId := 8 }
def who0 : Asker := { dev := 0, cell := 0, slot := 17, fid := 0, id := 5 }
theorem lands (s : State) (m : Msg) (h : s.net = [m]) (l : m.stage = .landed) : s.Lands m [] [] := ⟨h, l, fun _ g => absurd g List.not_mem_nil, fun _ g => absurd g List.not_mem_nil⟩
/-- A message that is to be delivered, behind one of its order that is still on its way, or not. -/
def onWay (first : List Msg) : State := { base with net := first ++ [msg (.spawn who0 rec0) false] }
def rows129 : MsgBody := .slot 0 0 (List.replicate 129 0) [] 0
/-- The long message of cell 0 with its part at a stage since half-NCLK 0, at time `now`; where `fenced`, cell 0 is excluded. -/
def bigMsg (st : MsgStage) (now : Nat) (fenced : Bool) : State :=
  { base with net := [{ msg rows129 false with stage := st }], now := now, excluded := if fenced then [0] else [] }
def ahead : Msg := { msg (.spawn who0 rec1) false with id := 6 }
def reported (landed : Bool) : Msg := { msg (.dropReport (.cell 0)) landed with dst := .xdie }
theorem witness_NetworkSteps : (onWay []).net = [] ++ msg (.spawn who0 rec0) false :: [] ∧ (bigMsg .asked 0 false).net = [] ++ { msg rows129 false with stage := .asked } :: [] ∧
    (msg (.spawn who0 rec0) false).arrived = true ∧ ({ msg rows129 false with stage := .asked } : Msg).arrived = false ∧ (reported false).arrived = true ∧
    (onWay [ahead]).net = [ahead] ++ msg (.spawn who0 rec0) false :: [] ∧
    ahead.id ≠ (msg (.spawn who0 rec0) false).id ∧ ahead.before (msg (.spawn who0 rec0) false) = true ∧ ahead.stage ≠ .landed ∧
    (bigMsg .granted 32768 true).senderFenced (.cell 0) = true ∧ (bigMsg .granted 32768 false).senderFenced (.cell 0) = false := by decide +kernel
/-- Node 40 has held its injection since NCLK 0; its neighbour 41 asserts a hold, or not. -/
def held (now : Nat) (holds : List Nat) : State := { base with now := now, torus := { flits := [], waits := [(40, 0)], holds := holds } }
theorem witness_NetworkSteps_hold : (40, 0) ∈ (held 128 []).torus.waits ∧ neighbour 40 0 = 41 ∧ (∀ p, p < 4 → ¬(held 128 []).torus.holds.contains (neighbour 40 p) = true) := by decide +kernel
def stages (o : Host.Outcome State Fault Refusal) : Option (List MsgStage) := after o (fun t => t.net.map (·.stage))
theorem test_network : stages (exec (.messageDeliver 7) (onWay [])) = some [.landed] ∧ stages (exec (.messageDeliver 7) (onWay [ahead])) = some [.whole, .whole] ∧
    stages (exec (.messageDeliver 7) (bigMsg .granted 0 false)) = some [.granted] ∧ stages (exec (.messageDeliver 7) (bigMsg .whole 0 false)) = some [.landed] ∧
    stages (exec (.reassemblyReserve 7) (bigMsg .asked 0 false)) = some [.granting] ∧ stages (exec (.reassemblyReserve 7) (bigMsg .staged 0 false)) = some [.staged] := by decide +kernel
/-- The drop after 65,536 NCLK, not before and not of a sender that is not fenced (01 R22); the hold after 256 NCLK (01 R17). -/
theorem test_drops : after (exec (.reassemblyDrop 7) (bigMsg .granted 32768 true)) (fun t => t.net.map (·.body)) = some [.dropReport (.cell 0)] ∧
    stages (exec (.reassemblyDrop 7) (bigMsg .granted 32767 true)) = some [.granted] ∧ stages (exec (.reassemblyDrop 7) (bigMsg .granted 32768 false)) = some [.granted] ∧
    after (exec .injectionHold (held 128 [])) (·.torus.holds) = some [40] ∧ after (exec .injectionHold (held 127 [])) (·.torus.holds) = some [] ∧
    after (exec .injectionHold (held 128 [41])) (·.torus.holds) = some [41] := by decide +kernel
/-- Four flits at node 0: two for it, one for node 1 to the east and one for node 0 as well. -/
def flit0 (m dst : Nat) : Flit := { msg := m, kind := .data, dst := dst, node := 0, port := 0, due := 0, born := 0 }
def four : List Flit := [flit0 1 1, flit0 2 0, flit0 3 0, flit0 4 0]
theorem witness_TorusNodes : (0 : Nat) < 768 ∧ four.length ≤ 4 ∧ (∀ f ∈ four, f.dst < 768) := by decide
theorem test_torusNode : (let o := four.foldl (NodeOut.assign 0 9 (0, 0)) { used := [], moved := [], ejected := [], deflected := 0 }
    (o.ejected.map (·.msg)).length = 2 ∧ o.moved.map (·.msg) = [1, 4] ∧ o.moved.head? = some { flit0 1 1 with node := 1, port := 1, due := 11 }) := by decide +kernel
def fullDequeNet : State := ((netS (.spawn who0 rec0)).updCell 1 (fun c => { c with deque := List.replicate 64 (entry0 rec1 0) })).updLaunch 0 (fun x => { x with privSize := 256 })
def spawned (ok : Bool) : State := (netS (.spawnAns who0 ok)).updFibre (fun f => { f with status := .parked (.spawn 5 0x10 rec0 4) 0 })
theorem witness_SpawnMessages : (netS (.spawn who0 rec0)).Lands (msg (.spawn who0 rec0) true) [] [] ∧ (msg (.spawn who0 rec0) true).dst = .cell 1 ∧
    who0.dev = (netS (.spawn who0 rec0)).device ∧ ((netS (.spawn who0 rec0)).cell 1).deque.length < 64 ∧ 64 ≤ (fullDequeNet.cell 1).deque.length ∧
    fullDequeNet.Lands (msg (.spawn who0 rec0) true) [] [] ∧ (netS (.spawn who0 rec0)).canPop 1 = false ∧ fullDequeNet.canPop 1 = false ∧ (spawned true).Lands (msg (.spawnAns who0 true) true) [] [] ∧
    ((spawned true).cell who0.cell).fibres.find who0.slot = some { fib0 with status := .parked (.spawn 5 0x10 rec0 4) 0 } ∧ fib0.body.fid = who0.fid :=
  ⟨lands _ _ rfl rfl, rfl, rfl, by decide, by decide +kernel, lands _ _ rfl rfl, by decide +kernel, by decide +kernel, lands _ _ rfl rfl, by decide +kernel, rfl⟩
theorem test_spawnMessages : after (exec (.spawnRecordArrive 7) (netS (.spawn who0 rec0))) (fun t => ((t.cell 1).deque.length, t.net.map (·.body))) = some (1, [.spawnAns who0 true]) ∧
    after (exec (.spawnRecordArrive 7) fullDequeNet) (fun t => ((t.cell 1).deque.length, t.net.map (·.body))) = some (64, [.spawnAns who0 false]) ∧
    after (exec (.spawnAnswerArrive 7) (spawned true)) (fun t => (t.fibre.status, t.fibre.body.pc)) = some (.ready, 0x10004) ∧
    after (exec (.spawnAnswerArrive 7) (spawned false)) (fun t => (t.fibre.body.pc, t.g 0, t.g 7)) = some (0x20000, 1, 0x10040) := by decide +kernel
def am0 : AmMsg :=
  { ctx := { job := 1, key := none }, who := who0, id := 5, target := own, toDev := 0, toCell := 1, pc := 0x20000, a0 := 1, a1 := 2, a2 := 3, a3 := 4, sender := other, reply := false, deleg := false, scope := .cell, buffered := false }
def parkedNet (p : Park) (b : MsgBody) : State := (netS b).updFibre (fun f => { f with status := .parked p 0 })
def amGranted (b : MsgBody) : State := (netS b).updCell 1 (fun c => { c with am := [(0, AmEntry.granted 0 am0)] })
def amFull : State := (netS (.amReserve am0)).updCell 1 (fun c => { c with am := (upFrom 64 0).map (fun i => (i, amEntry)) })
theorem witness_MessageArrivals : (netS (.amReserve am0)).Lands (msg (.amReserve am0) true) [] [] ∧ ((netS (.amReserve am0)).cell 1).freeAm = some 0 ∧
    amFull.Lands (msg (.amReserve am0) true) [] [] ∧ (amFull.cell 1).freeAm = none ∧ (netS (.amGrant am0 0)).Lands (msg (.amGrant am0 0) true) [] [] ∧
    am0.toDev = base.device ∧ (amGranted (.am am0 0)).Lands (msg (.am am0 0) true) [] [] ∧ ((amGranted (.am am0 0)).cell 1).am.find 0 = some (AmEntry.granted 0 am0) ∧
    am0.buffered = false ∧ (parkedNet (.amAccept 5 0x10 4) (.amTaken who0)).Lands (msg (.amTaken who0) true) [] [] ∧
    ((parkedNet (.amAccept 5 0x10 4) (.amTaken who0)).cell 0).fibres.find 17 = some { fib0 with status := .parked (.amAccept 5 0x10 4) 0 } ∧
    (parkedNet (.amReply 5 0x10 3 .cell false false 4) (.amReply who0 9)).Lands (msg (.amReply who0 9) true) [] [] ∧
    ((parkedNet (.amReply 5 0x10 3 .cell false false 4) (.amReply who0 9)).cell 0).fibres.find 17 = some { fib0 with status := .parked (.amReply 5 0x10 3 .cell false false 4) 0 } :=
  ⟨lands _ _ rfl rfl, by decide +kernel, lands _ _ rfl rfl, by decide +kernel, lands _ _ rfl rfl, rfl, lands _ _ rfl rfl, by decide +kernel, rfl, lands _ _ rfl rfl, by decide +kernel,
    lands _ _ rfl rfl, by decide +kernel⟩
theorem test_amRequests : after (exec (.amReserveArrive 7) (netS (.amReserve am0))) (fun t => ((t.cell 1).am.find 0, t.net.map (·.body))) = some (some (AmEntry.granted 0 am0), [.amGrant am0 0]) ∧
    after (exec (.amReserveArrive 7) amFull) (fun t => ((t.cell 1).amWaiting, t.net)) = some ([am0], []) ∧
    after (exec (.amGrantArrive 7) (netS (.amGrant am0 0))) (fun t => t.net.map (·.body)) = some [.am am0 0] := by decide +kernel
theorem test_amArrivals : after (exec (.amMessageArrive 7) (amGranted (.am am0 0))) (fun t => (((t.cell 1).am.find 0).map (fun e => (e.valid, e.a3, e.pc)), t.net.map (·.body))) =
      some (some (true, 4, 0x20000), [.amTaken who0]) ∧
    after (exec (.amReplyArrive 7) (parkedNet (.amAccept 5 0x10 4) (.amTaken who0))) (fun t => (t.fibre.status, t.fibre.body.pc)) = some (.ready, 0x10004) ∧
    after (exec (.amReplyArrive 7) (parkedNet (.amReply 5 0x10 3 .cell false false 4) (.amReply who0 9))) (fun t => (t.g 3, t.fibre.body.pc)) = some (9, 0x10004) := by decide +kernel
/-- A message that waits for a handler, or for the delegated routine; a completion; a trap of M. -/
def arrived (deleg : Bool) : State := base.updHere (fun c => { c with am := [(0, { amEntry with running := false, deleg := deleg, a2 := 6, target := own })] })
def comp0 : CompReq := { pc := 0x20000, id := 1, status := 2, done := 3, word0 := 4, seq := 5, scope := .cell, order := 0, front := 0 }
def completed : State := base.updHere (fun c => { c with copy := { c.copy with comps := [comp0] } })
def trap0 : TrapRec := { cls := cILLEGAL, sub := 0, detail := 9, pc := 0x10000, seq := 0, word := 0x10000, when_ := 0, src := 2 }
def trapped : State := (handled base).updHere (fun c => { c with traps := [(.m, trap0)] })
/-- As `trapped`, with a trap of V before it that waits for a word. -/
def trappedBehind : State := trapped.updHere (fun c =>
  { c with v := { c.v with eng := { c.v.eng with flights := [.word 3 [] none false] } }, traps := [(.v, trap0), (.m, trap0)] })
theorem witness_HandlerStarts : (arrived false).active 0 = true ∧ ((arrived false).cell 0).traps = [] ∧ ((arrived false).cell 0).fibres.lowestFree 16 0 = some 0 ∧
    ((arrived false).cell 0).nextHandler = some (.msg 0 { amEntry with running := false, deleg := false, a2 := 6, target := own }) ∧
    (completed.cell 0).nextHandler = some (.completion comp0) ∧ ((arrived true).cell 0).fibres.find 16 = none ∧
    ((arrived true).cell 0).nextDeleg = some (.msg 0 { amEntry with running := false, deleg := true, a2 := 6, target := own }) ∧
    (trapped.cell 0).traps = (.m, trap0) :: [] ∧ (∀ f ∈ (trapped.cell 0).m.eng.flights, f.isDone = true) ∧
    trapAction (trapped.launchOf 0).actions trap0.cls = 1 ∧ (trappedBehind.cell 0).traps = [(.v, trap0)] ++ (.m, trap0) :: [] ∧
    (∃ f ∈ (trappedBehind.cell 0).v.eng.flights, f.isDone = false) ∧ (trappedBehind.cell 0).fibres.lowestFree 16 0 = some 0 ∧
    trapAction ((base.updHere (fun c => { c with traps := [(.m, trap0)] })).launchOf 0).actions trap0.cls ≠ 1 := by decide +kernel
theorem test_handlerStarts : after (exec (.handlerStart 0) (arrived false)) (fun t => ((t.cell 0).fibres.find 0).map (fun f => (f.body.g[(2 : GReg)], f.body.g[(4 : GReg)], f.body.pc, f.body.kind))) =
      some (some (6, own, 0x20000, .handler 0)) ∧
    after (exec (.handlerStart 0) completed) (fun t => (((t.cell 0).fibres.find 0).map (fun f => (f.body.g[(1 : GReg)], f.body.g[(5 : GReg)])), (t.cell 0).copy.comps)) = some (some (2, 5), []) ∧
    after (exec (.delegRoutineStart 0) (arrived true)) (fun t => ((t.cell 0).fibres.find 16).map (·.body.kind)) = some (some (.server 0)) ∧
    after (exec (.trapHandlerStart 0) trapped) (fun t => ((t.cell 0).fibres.find 0).map (fun f => (f.body.pc, f.body.g[(1 : GReg)]))) = some (some (0x20000, 9)) ∧
    after (exec (.trapHandlerStart 0) trappedBehind) (fun t => (t.cell 0).traps) = some [(.v, trap0)] := by decide +kernel

/-! ## Requests and answers, waits and budgets, channels (11, 12, 16, 18) -/

def req (place : MemPlace) (op : MemOp) : MemReq :=
  { ctx := { job := 1, key := none }, who := who0, posted := false, seq := 4, pc := 0x10000, addr := own, place := place, op := op }
/-- A request in the network; the other cell has bytes at 0x100 and the device has bytes at 0 (GLOBAL 0x10000). -/
def asked (r : MemReq) : State := ({ netS (.mem r) with mem := [(0, 0x80), (1, 0x01)] }).updCell 1 (fun c => { c with spad := c.spad.write 0x100 8 0x11223344AABBCCDD false })
def farBad (s : State) : State := s.updCell 1 (fun c => { c with spad := { c.spad with poison := [4] } })
/-- The answer that leaves, as its result and what `f` reads of the state. -/
def answers {α : Type} (o : Host.Outcome State Fault Refusal) (f : State → α) : Option (List AnsRes × α) :=
  after o (fun t => (t.net.filterMap (fun m => match m.body with | .memAns a => some a.res | _ => none), f t))
theorem witness_RemoteRequests : (asked (req (.spad 1 0x100) (.load .w true))).Lands (msg (.mem (req (.spad 1 0x100) (.load .w true))) true) [] [] ∧
    base.excluded.contains 1 = false ∧ (asked (req (.spad 1 0x100) (.load .w true))).excluded.contains 1 = false ∧
    ({ asked (req (.spad 1 0x100) (.load .w true)) with excluded := [1] }).excluded.contains 1 = true ∧
    ((farBad (asked (req (.spad 1 0x100) (.amo .add .w64 1 0)))).cell 1).spad.bad 0x100 8 = true ∧ ((asked (req (.spad 1 0x100) (.amo .add .w64 1 0))).cell 1).spad.bad 0x100 8 = false ∧
    base.translate 1 0x10000 .read = .pa 0 ∧ base.translate 1 0x10000 .write = .pa 0 ∧ base.translate 1 0x900000 .read = .fault cXLATE ∧
    (∀ x ∈ ((asked (req (.global 0x10000) (.load .h true))).cell 0).l1, x.va ≠ 0x400) ∧ (asked (req (.global 0x10000) (.load .h true))).homeBad 0 8 = false ∧
    ({ asked (req (.global 0x10000) (.load .h true)) with memPoison := [0] }).homeBad 0 8 = true ∧
    ({ base with jobs := [(1, Job.zero.mapPage 0 0x10000 (2 ^ 55 + 0xD))] }).translate 1 0x10040 .read = .window 0 0x40 :=
  ⟨lands _ _ rfl rfl, by decide +kernel⟩
theorem test_remote_spad : answers (exec (.remoteRequestServe 7) (asked (req (.spad 1 0x100) (.load .w true)))) (fun _ => 0) = some ([.ok 0xAABBCCDD false], 0) ∧
    answers (exec (.remoteRequestServe 7) (farBad (asked (req (.spad 1 0x100) (.load .w true))))) (fun _ => 0) = some ([.ok 0xAABBCCDD true], 0) ∧
    answers (exec (.remoteRequestServe 7) (asked (req (.spad 1 0x102) (.store 2 0x5566 false)))) (fun t => (t.cell 1).spad.read 0x100 8) = some ([.ok 0 false], 0x112233445566CCDD) ∧
    answers (exec (.remoteRequestServe 7) (asked (req (.spad 1 0x100) (.amo .add .w64 1 0)))) (fun t => (t.cell 1).spad.read 0x100 8) =
      some ([.ok 0x11223344AABBCCDD false], 0x11223344AABBCCDE) ∧
    answers (exec (.remoteRequestServe 7) (farBad (asked (req (.spad 1 0x100) (.amo .add .w64 1 0))))) (fun t => (t.cell 1).spad.read 0x100 8) =
      some ([.refused cPOISON], 0x11223344AABBCCDD) := by decide +kernel
theorem test_remote_global : answers (exec (.remoteRequestServe 7) (asked (req (.global 0x10000) (.load .h true)))) (fun _ => 0) = some ([.ok 0x180 false], 0) ∧
    answers (exec (.remoteRequestServe 7) (asked (req (.global 0x900000) (.load .h true)))) (fun _ => 0) = some ([.refused cXLATE], 0) ∧
    answers (exec (.remoteRequestServe 7) (asked (req (.global 0x10000) (.amo .swp .w32 7 0)))) (fun t => Mem.readNat t.mem 4 0) = some ([.ok 0x180 false], 7) := by decide +kernel

def feAsked (f : FeFn) (full : Bool) : State :=
  (asked (req (.spad 1 0x100) (.fe f 9))).updCell 1 (fun c => { c with spad := { c.spad with full := if full then [0x20] else [] } })
theorem witness_FullEmptyRequests : (feAsked .put true).Lands (msg (.mem (req (.spad 1 0x100) (.fe .put 9))) true) [] [] ∧ ((feAsked .put true).cell 1).fe = [] ∧ ((feAsked .put true).cell 1).acqDue = false ∧
    ((feAsked .put true).cell 1).spad.tag 0x100 = true ∧ ((feAsked .put false).cell 1).spad.tag 0x100 = false ∧ ((feAsked .take true).cell 1).spad.bad 0x100 8 = false ∧
    ((farBad (feAsked .take true)).cell 1).spad.bad 0x100 8 = true :=
  ⟨lands _ _ rfl rfl, by decide +kernel⟩
noncomputable def feRes (f : FeFn) (full : Bool) : Option (List AnsRes × (Nat × Bool × Nat)) :=
  answers (exec (.feRequestServe 7) (feAsked f full)) (fun t => ((t.cell 1).spad.read 0x100 8, (t.cell 1).spad.tag 0x100, (t.cell 1).fe.length))
def word0 : Nat := 0x11223344AABBCCDD
theorem test_fe_full : ∀ x ∈ ([(.take, true, [.ok (BitVec.ofNat 64 word0) false], word0, false, 0), (.peek, true, [.ok (BitVec.ofNat 64 word0) false], word0, true, 0),
    (.force, true, [.ok 0 false], 9, true, 0), (.clear, true, [.ok 0 false], word0, false, 0), (.tag, true, [.ok 1 false], word0, true, 0), (.put, true, [], word0, true, 1),
    (.put, false, [.ok 0 false], 9, true, 0), (.take, false, [], word0, false, 1)] : List (FeFn × Bool × List AnsRes × Nat × Bool × Nat)), feRes x.1 x.2.1 = some x.2.2 := by decide +kernel

def memAns (posted : Bool) (r : AnsRes) : MsgBody := .memAns { who := who0, posted := posted, seq := 4, pc := 0x10000, addr := own, res := r }
def loading (r : AnsRes) : State := parkedNet (.reply 5 own (some 3) .b none 4) (memAns false r)
def posting (r : AnsRes) : State := (netS (memAns true r)).updFibre (fun f => { f with body := { f.body with outst := 2, window := (0xFFF8, 4), refusals := [⟨9, own, 0x1E, none⟩] } })
def refusedEarlier : State := base.updFibre (fun f => { f with body := { f.body with refusals := [⟨9, own, 0x1E, none⟩] } })
theorem witness_AnswersAtFibres : (loading (.ok 0x80 false)).Lands (msg (memAns false (.ok 0x80 false)) true) [] [] ∧
    ((loading (.ok 0x80 false)).cell who0.cell).fibres.find who0.slot = some { fib0 with status := .parked (.reply 5 own (some 3) .b none 4) 0 } ∧ fib0.body.fid = who0.fid ∧
    (posting (.refused cXLATELATE)).Lands (msg (memAns true (.refused cXLATELATE)) true) [] [] ∧
    (posting (.refused cXLATELATE)).fibre.body.refusals.Pairwise (fun x y => x.seq.toNat < y.seq.toNat) ∧
    (∀ x ∈ (posting (.refused cXLATELATE)).fibre.body.refusals, x.seq ≠ 4) ∧
    (refusedEarlier.active 0 = true ∧ refusedEarlier.fibre.status = .ready ∧ refusedEarlier.fibre.body.refusals = ⟨9, own, 0x1E, none⟩ :: []) :=
  ⟨lands _ _ rfl rfl, by decide +kernel, rfl, lands _ _ rfl rfl, by and_intros <;> decide +kernel⟩
/-- The fibre that has posted stands in a trap frame of slot 17. -/
def framed : State := (posting (.ok 0 false)).updFibre (fun f => { f with body := { f.body with fid := 9 }, frame := some f.body })
theorem witness_AnswersAtFibres_frame : framed.Lands (msg (memAns true (.ok 0 false)) true) [] [] ∧
    (framed.fibre.frame.map (fun o => (o.fid, o.outst))) = some (who0.fid, 2) ∧ framed.fibre.body.fid ≠ who0.fid := ⟨lands _ _ rfl rfl, by decide +kernel⟩
theorem test_framedAnswer : after (exec (.postedAnswerArrive 7) framed) (fun t => t.fibre.frame.map (·.outst)) = some (some 1) := by decide +kernel
theorem test_answers : after (exec (.loadReplyArrive 7) (loading (.ok 0x80 false))) (fun t => (t.g 3, t.fibre.body.pc, t.fibre.status)) = some (0xFFFFFFFFFFFFFF80, 0x10004, .ready) ∧
    trapClass (exec (.loadReplyArrive 7) (loading (.ok 0x80 true))) = some cPOISON ∧ trapClass (exec (.loadReplyArrive 7) (loading (.refused cXLATE))) = some cXLATE ∧
    after (exec (.postedAnswerArrive 7) (posting (.ok 0 false))) (fun t => t.fibre.body.outst) = some 1 := by decide +kernel
theorem test_lateRefusals : after (exec (.lateRefusalArrive 7) (posting (.refused cXLATELATE))) (fun t => (t.fibre.body.outst, t.fibre.body.refusals.map (fun x => (x.seq, x.word)))) =
      some (1, [(4, some 0xFFF8), (9, none)]) ∧ trapClass (exec (.lateTrapDeliver 0 17) refusedEarlier) = some 0x1E := by decide +kernel

/-- The task has waited since 0 and the limit is reached. -/
def tired (p : Park) : State := { base.updFibre (fun f => { f with status := .parked p 0 }) with now := 16777216 }
def tiredV (w : EWait) : State := { vBase.updHere (fun c => { c with v := { c.v with eng := { c.v.eng with wait := some w } } }) with now := 16777216 }
/-- A word of another device, through the aperture of devices (11 R219). -/
def farWord : Word := 0x1001000000010000
theorem witness_WaitLimits : (∀ r, (tired (.exch r 0x100)).fibre.status = .parked (.exch r 0x100) 0) ∧ (let s := tired (.counter 5 3 true 4)
      (s.cell 0).launch = some 0 ∧ (s.launchOf 0).stage = .running ∧ (s.launchOf 0).cancel = false ∧ 0 + (s.launchOf 0).waitlim ≤ s.now) ∧
    (∀ p ∈ [.counter 5 3 true 4, .retry (.filled 3) 6 3, .retry .outst0 15 0, .retry .outstLow 15 0, .copy linReq, .arm linReq 5 1 false 4,
      .reply 5 own (some 3) .d none 4, .reply 5 farWord (some 3) .d none 4], (tired p).fibre.status = .parked p 0) ∧
    (tired (.reply 5 own (some 3) .d none 4)).waitDevice 0 (.reply 5 own (some 3) .d none 4) = none ∧
    (tired (.reply 5 farWord (some 3) .d none 4)).waitDevice 0 (.reply 5 farWord (some 3) .d none 4) = some 1 ∧
    (tired (.reply 5 farWord (some 3) .d none 4)).recalls = [] ∧
    (tired (.reply 5 own (some 3) .d none 4)).answerComing who0 = false ∧ (∀ m ∈ (tired (.reply 5 own (some 3) .d none 4)).net, m.body.grantOf who0 = none) := by
  refine ⟨fun _ => rfl, ?_⟩
  and_intros <;> decide +kernel
def curV (w : EWait) : State := { tiredV w with cur := { cell := 0, slot := 0, stream := .v } }
theorem witness_WaitLimits_engine : (curV (.skwait 5 3 4)).here.v.eng.waitSince = 0 ∧ (curV (.skwait 5 3 4)).cur = { cell := 0, slot := 0, stream := .v } ∧
    (curV (.skwait 5 3 4)).here.v.eng.wait = some (.skwait 5 3 4) ∧ (curV (.tok { addr := 0x10000, use := use55, prod := none })).here.v.eng.wait = some (.tok { addr := 0x10000, use := use55, prod := none }) := by
  decide +kernel
theorem test_waitLimits : trapClass (exec (.waitLimitExpire 0 17) (tired (.counter 5 3 true 4))) = some cWAITLIMIT ∧ trapClass (exec (.waitLimitExpire 0 17) (tired (.reply 5 own (some 3) .d none 4))) = some cWAITLIMIT ∧
    trapClass (exec (.waitLimitExpire 0 17) (tired (.copy linReq))) = some cWAITLIMIT ∧ trapClass (exec (.waitLimitExpire 0 256) (curV (.skwait 5 3 4))) = some cWAITLIMIT ∧
    after (exec (.waitLimitExpire 0 17) { tired (.counter 5 3 true 4) with now := 16777215 }) (fun t => t.fibre.status) = some (.parked (.counter 5 3 true 4) 0) := by decide +kernel

/-- The task, or a handler, has used its budget of 140,000 (18 R360: 65,536 for handlers). -/
def spent (k : FKind) (n : Nat) : State := { base.updFibre (fun f => { f with body := { f.body with kind := k, since := some 0 } }) with now := n }
theorem witness_BudgetsAndCompletion : (spent .task 140000).fibre.body.kind = .task ∧ (spent .task 140000).fibre.status = .ready ∧
    ((spent .task 140000).launchOf 0).budget ≤ (spent .task 140000).fibre.body.usedAt (spent .task 140000).now ∧ ((spent .task 140000).launchOf 0).cancel = false ∧
    ((spent .task 140000).launchOf 0).preempt = false ∧ (((spent .task 140000).updLaunch 0 (fun l => { l with preempt := true })).launchOf 0).preempt = true ∧
    fld ((spent .task 140000).launchOf 0).actions (2 * 0x0E + 1) (2 * 0x0E) ≠ 2 ∧ fld ((ignored (spent .task 140000)).launchOf 0).actions (2 * 0x0E + 1) (2 * 0x0E) = 2 ∧
    Config.handlerBudget ≤ (spent (.handler 0) 65536).fibre.body.usedAt 65536 ∧ (spent (.handler 0) 65536).fibre.body.kind.isHandler = true ∧ (spent (.trap .m) 65536).fibre.body.kind = .trap .m ∧
    (base.updFibre (fun f => { f with status := .issued 1 })).fibre.status = .issued 1 := by decide +kernel
theorem test_budgets : trapClass (exec (.taskBudgetExpire 0 17) (spent .task 140000)) = some 0x0E ∧
    after (exec (.taskBudgetExpire 0 17) ((spent .task 140000).updLaunch 0 (fun l => { l with preempt := true }))) (fun t => (t.fibre.status, t.fibre.body.used)) = some (.saved, 140000) ∧
    after (exec (.taskBudgetExpire 0 17) (ignored (spent .task 140000))) (fun t => (t.fibre.status, t.fibre.body.used, t.fibre.body.since)) = some (.ready, 0, some 140000) ∧
    after (exec (.taskBudgetExpire 0 17) (spent .task 139999)) (fun t => t.fibre.status) = some .ready ∧ trapClass (exec (.handlerBudgetExpire 0 17) (spent (.trap .m) 65536)) = some cHANDLER ∧
    after (exec (.sInstructionCompletion 0 17) (base.updFibre (fun f => { f with status := .issued 1 }))) (fun t => (t.fibre.status, t.now)) = some (.ready, 1) := by decide +kernel

def slotMsg : MsgBody := .slot 0 3 [0xAA, 0xBB] [] 64
def chanNet (b : MsgBody) : State := { chanBase 1 with net := [{ msg b true with dst := .cell 0 }], nextId := 8 }
theorem witness_ChannelArrivals : (chanNet slotMsg).Lands { msg slotMsg true with dst := .cell 0 } [] [] ∧ (0 : Nat) = (chanNet slotMsg).cur.cell ∧
    ((chanNet slotMsg).here.k[((chanNet slotMsg).here.chans[(3 : Fin 16)]).k]).toNat + 1 < 2 ^ 32 ∧ Memory.wf (chanNet slotMsg).here.spad.bytes = true ∧
    (chanNet (.grant 0 2 1)).Lands { msg (.grant 0 2 1) true with dst := .cell 0 } [] [] :=
  ⟨lands _ _ rfl rfl, rfl, by decide +kernel, by decide +kernel, lands _ _ rfl rfl⟩
theorem test_channelArrivals : after (exec (.channelSlotArrive 7) (chanNet slotMsg)) (fun t => (t.here.spad.read 0x240 2, (t.here.chans[(3 : Fin 16)]).filled, t.here.k[(6 : KReg)])) = some (0xBBAA, 2, 2) ∧
    after (exec (.channelGrantArrive 7) (chanNet (.grant 0 2 1))) (fun t => (t.here.chans[(2 : Fin 16)]).count) = some 2 := by decide +kernel

/-! ## The Copy Engine's steps (13) -/

def xfer0 (r : CopyReq) : Transfer :=
  { id := 3, req := r, descending := false, done := 0, crc := BitVec.allOnes 64, checked := false, asked := 0, plan := [], pending := [], failed := none, segs := [] }
def copying (x : Transfer) (l : List (Nat × Nat × Nat)) : State := base.updHere (fun c => { c with
  copy := { c.copy with xfers := [x] }
  spad := l.foldl (fun p e => p.write e.1 e.2.1 e.2.2 false) c.spad })
def oneFifo : State := base.updHere (fun c => { c with copy := { c.copy with fifo := [linReq] } })
def oneSlot : State := base.updHere (fun c => { c with copy := { c.copy with slots := [(3, slotOf)] }, k := c.k.set 5 4, reqseq := 9 })
theorem witness_TransferStarts : oneFifo.here.copy.fifo = linReq :: [] ∧ (oneFifo.launchOf 0).preempt = false ∧ (oneFifo.launchOf 0).cancel = false ∧ oneFifo.here.copy.xfers.length < 8 ∧
    (∀ e ∈ oneFifo.here.fibres, e.2.status = .ready) ∧ oneFifo.here.copy.slots = [] ∧ oneSlot.here.copy.slots = [(3, slotOf)] ∧ slotOf.armed = true ∧ slotOf.pending = 0 ∧
    slotOf.threshold.toNat ≤ (oneSlot.here.k[slotOf.k]).toNat ∧ oneSlot.here.copy.fifo.length < 16 ∧ (∀ e ∈ oneSlot.here.fibres, e.2.status = .ready) := by decide +kernel
theorem test_transferStarts : after (exec (.transferStart 0) oneFifo) (fun t => (t.here.copy.fifo, t.here.copy.xfers.map (fun x => (x.req, x.done, x.crc)))) = some ([], [(linReq, 0, BitVec.allOnes 64)]) ∧
    after (exec (.armedSlotFire 0) oneSlot) (fun t => (t.here.k[(5 : KReg)], t.here.copy.fifo.map (·.seq), t.here.copy.slots.map (fun e => (e.2.armed, e.2.fired)))) = some (3, [9], [(false, true)]) := by
  decide +kernel
/-- 64 bytes from LOCAL 0x100 to LOCAL 0x200; from LOCAL to GLOBAL 0x10040. -/
def moving : State := copying (xfer0 linReq) [(0x100, 8, 0x1122334455667788)]
def movingOut : State := copying (xfer0 { linReq with w2 := 0x10040 }) [(0x100, 8, 0x1122334455667788)]
theorem witness_LinearChunks : moving.here.xfer 3 = some (xfer0 linReq) ∧ linReq.scat = none ∧ linReq.op = 0 ∧ 1 ≤ linReq.total ∧ linReq.total ≤ 4096 ∧
    linReq.w1.toNat % 4096 + linReq.total ≤ 4096 ∧ linReq.w2.toNat % 4096 + linReq.total ≤ 4096 ∧ moving.cpyPlace 0 linReq.w1 .read = .ok (.spad 0 0x100) ∧
    moving.cpyPlace 0 linReq.w2 .write = .ok (.spad 0 0x200) ∧ movingOut.cpyPlace 0 0x10040 .write = .ok (.mem 0x40) ∧ Memory.wf moving.mem = true ∧
    Memory.wf moving.here.spad.bytes = true ∧ Memory.wf (moving.cell 1).spad.bytes = true ∧ Memory.wf (moving.cell 2).spad.bytes = true := by
  refine ⟨by decide +kernel, by decide, by decide, by decide, by decide, by decide, by decide, ?_, ?_, ?_, by and_intros <;> decide +kernel⟩ <;> rfl
theorem test_linearChunks : after (exec (.copyChunkPerform 0 3) moving) (fun t => (t.here.spad.read 0x200 8, t.here.copy.xfers.map (·.done))) = some (0x1122334455667788, [64]) ∧
    after (exec (.copyChunkPerform 0 3) movingOut) (fun t => (Mem.readNat t.mem 8 0x40, t.here.copy.xfers.map (·.done))) = some (0x1122334455667788, [64]) ∧
    after (exec (.copyChunkReissue 0 3) moving) (fun t => t.here.copy.xfers.map (·.done)) = some [0] := by decide +kernel
theorem test_writtenFor : after (exec (.copyChunkPerform 0 3) movingOut) (fun t => (t.authors.length, t.authors.find 0x40, t.authors.find 0x7F)) = some (64, some 0, some 0) := by decide +kernel
/-- All 64 bytes done; counter 6 and a handler at 0x20000 with identity 0x99. -/
def doneReq : CopyReq := { linReq with w0 := 0x400000 + 0x600 + 6 * 16, w3 := 0x99000000020000, seq := 11 }
def doneCopy : State := copying { xfer0 doneReq with done := 64 } []
/-- A gather of 2 elements of 8 bytes (list 0x500, buffer 0x600) that issued at 0 and whose elements are done; under Umbra. -/
def gathReq (sc : Bool) : CopyReq :=
  { scat := some sc, w0 := 0, w1 := 0, w2 := 0, w3 := 0, desc := 0x8000000000000800 + 0x100 * 2 ^ 64 + 0x500 * 2 ^ 128 + 0x600 * 2 ^ 160 + 2 * 2 ^ 192 + 3 * 2 ^ 224, seq := 0, issued := 0 }
def doneGath : State := { (copying { xfer0 (gathReq false) with done := 2, asked := 2 } []).updLaunch 0 (fun l => { l with umbra := true }) with now := 300 }
theorem witness_TransferEnds : doneCopy.here.xfer 3 = some { xfer0 doneReq with done := 64 } ∧ doneReq.total = 64 ∧ doneReq.counter = some 6 ∧ (doneCopy.here.k[(6 : KReg)]).toNat + 1 < 2 ^ 32 ∧
    doneReq.handler = true ∧ linReq.handler = false ∧ linReq.counter = none ∧ doneReq.op ≠ 5 ∧ doneGath.here.xfer 3 = some { xfer0 (gathReq false) with done := 2, asked := 2 } ∧
    (gathReq false).total = 2 ∧ doneGath.myLaunch.umbra = true ∧ doneGath.resolve 0 none (gathReq false).base 1 = some (.spad 0 0x800) ∧ (doneCopy.launchOf 0).cancel = false ∧ base.myLaunch.umbra = false := by decide +kernel
/-- B = 256 + 4 · 2 = 264; at 300 the least multiple that is not earlier is 528. -/
theorem test_transferEnds : after (exec (.transferComplete 0 3) doneCopy) (fun t => (t.here.k[(6 : KReg)], t.here.copy.xfers.length, t.here.copy.comps.map (fun q => (q.id, q.done)))) =
      some (1, 0, [(0x99, 64)]) ∧
    after (exec (.umbraGathDeadline 0 3) doneGath) (fun t => (t.now, t.here.copy.xfers.length)) = some (528, 0) ∧
    after (exec (.transferComplete 0 3) doneGath) (fun t => t.here.copy.xfers.length) = some 1 := by decide +kernel
/-- The list is {2, 40}: element 0 is 8 bytes at base + 16, element 1 lies outside the extent of 256. -/
def gathS (x : Transfer) : State := copying x [(0x500, 4, 2), (0x504, 4, 40), (0x810, 8, 0xABCD), (0x600, 8, 0x77)]
def gath0 : Transfer := xfer0 (gathReq false)
def el0 : GathEl := { t := 0, i := 2, status := 0, places := [(.spad 0 0x810, 8)] }
def scat0 : Transfer := xfer0 (gathReq true)
theorem witness_Elements : (gathS gath0).here.xfer 3 = some gath0 ∧ (gathReq false).esize = 8 ∧ (gathS gath0).here.spad.read ((gathReq false).list + 4 * 0) 4 = 2 ∧
    (2 + 1) * 8 ≤ (gathReq false).extent ∧ ((gathReq false).base + BitVec.ofNat 64 (2 * 8)).toNat % 4096 + 8 ≤ 4096 ∧ 0 < (gathReq false).count ∧
    (gathS gath0).here.spad.read ((gathReq false).list + 4 * 1) 4 = 40 ∧ (gathReq true).extent < (40 + 1) * 8 ∧
    ({ gath0 with pending := [el0], asked := 1 }).pending.find? (fun y => y.t = 0) = some el0 ∧ Memory.wf (gathS gath0).here.spad.bytes = true := by decide +kernel
theorem witness_Elements_places : (gathS gath0).cpyPlace 0 0x8000000000000810 .read = .ok (.spad 0 0x810) ∧ (gathS scat0).cpyPlace 0 0x8000000000000810 .write = .ok (.spad 0 0x810) ∧
    (CPlace.spad 0 0x810).external = false := ⟨rfl, rfl, rfl⟩
theorem test_elements : after (exec (.copyChunkPerform 0 3) (gathS gath0)) (fun t => t.here.copy.xfers.map (fun x => (x.asked, x.pending))) = some [(1, [el0])] ∧
    after (exec (.gathElementReply 0 3 0) (gathS { gath0 with pending := [el0], asked := 1 })) (fun t => (t.here.spad.read 0x600 8, t.here.copy.xfers.map (fun x => (x.done, x.pending)))) = some (0xABCD, [(1, [])]) ∧
    after (exec (.copyChunkPerform 0 3) (gathS scat0)) (fun t => (t.here.spad.read 0x810 8, t.here.copy.xfers.map (·.done))) = some (0x77, [1]) ∧
    after (exec (.copyChunkPerform 0 3) (gathS { scat0 with done := 1 })) (fun t => t.here.copy.xfers.map (fun x => (x.done, x.failed))) = some [(2, some (5, 1))] := by decide +kernel
def winOp0 : WinOp := { session := 1, op := 2, dev := 0, cell := 0, seg := 8, n := some 64, job := 1, window := 3, sentAt := 0 }
def windowed : State := { copying { xfer0 linReq with segs := [{ id := 8, read := true, pos := 0, window := some 0, answer := none }] } [] with winOps := [winOp0], now := 70000000 }
theorem witness_WindowTimeouts : winOp0.sentAt + 100000000 ≤ windowed.ns ∧ ({ windowed with now := 69999999 }).ns < winOp0.sentAt + 100000000 ∧ windowed.winOps.find? (fun y => y.cell = winOp0.cell ∧ y.seg = winOp0.seg) = some winOp0 ∧ winOp0.dev = windowed.device ∧ winOp0.cell < 768 := by decide +kernel
theorem test_windowTimeouts : after (exec (.hostWindowTimeout 0 8) windowed) (fun t => (t.winOps, t.here.copy.xfers.map (fun x => x.segs.map (·.answer)))) = some ([], [[some (.refused 6)]]) ∧
    after (exec (.hostWindowTimeout 0 8) { windowed with now := 69999999 }) (fun t => t.winOps.length) = some 1 := by decide +kernel

/-! ## Routing and the exchange (14) -/

/-- 14's example after R286: E = 8, G = 2, L = 1, k = 2, r = 1, RENORM, scale 1.0, expert 7 dead; expert e is on slot e. -/
def policyEx : Policy :=
  { policy8 with flags := 2, dead := 0x80, place := (List.range 8).map (fun e => BitVec.ofNat 128 (2 ^ 31 + e)), disp := [0] }
/-- {0.5, 0.25, 0.75, 0.125, 0.625, 0.375, 0.25, 0.875} and {NaN, NaN, 0.3, NaN, 0.1, 0.2, 0.05, 0.9}. -/
def row1 : List W32 := [0x3F000000, 0x3E800000, 0x3F400000, 0x3E000000, 0x3F200000, 0x3EC00000, 0x3E800000, 0x3F600000]
def row2 : List W32 := [0x7FC00000, 0x7FC00000, 0x3E99999A, 0x7FC00000, 0x3DCCCCCD, 0x3E4CCCCD, 0x3D4CCCCD, 0x3F666666]
def tok0 (row : List W32) : RouterTok := { policy := policyEx, row := row, token := 0x1234, seq := 9, slot := 5, gate := 1, poison := false }
def router0 (row : List W32) (allow : Nat) : Router :=
  { launch := some 0, loaded := some policyEx, queue := [tok0 row], held := [], rr := [], hist := [], allow := [(0, allow)], sent := [] }
def routing (row : List W32) (allow : Nat) : State :=
  { base.updHere (fun c => { c with chans := c.chans.set 0 { Endpoint.unused with side := .receiver, slots := 2, size := 128, array := 0x200, k := 6 } }) with routers := [(0, router0 row allow)] }
def sentRec (o : Host.Outcome State Fault Refusal) : Option (List Byte) :=
  (after o (fun t => match t.net with
    | [m] => match m.body with | .slot _ _ d _ _ => some d | _ => none
    | _ => none)).join
def field (l : List Byte) (o n : Nat) : Nat := bytesNat ((l.drop o).take n)
theorem witness_RoutingDecisions : ((routing row1 1).router 0).queue = tok0 row1 :: [] ∧ ((routing row1 1).router 0).held = [] ∧ ((routing row1 1).router 0).launch = some 0 ∧
    (((routing row1 1).router 0).allow.find 0).getD 0 ≠ 0 ∧ (((routing row1 0).router 0).allow.find 0).getD 0 = 0 := by decide +kernel
theorem test_routing_first : (sentRec (exec (.routerTokenDecide 0) (routing row1 1))).map (fun l => [field l 0 4, field l 8 1, field l 9 1, field l 0xA 1, field l 0xB 1, field l 0x20 2, field l 0x24 4,
    field l 0x28 2, field l 0x2C 4, field l 0x30 2, field l 0x33 1, field l 0x34 4, field l 0x38 2]) =
    some [0x1234, 2, 1, 2, 2, 2, 0x3F19999A, 0, 0x3ECCCCCD, 1, 1, 0x3E4CCCCD, 0xFFFF] := by decide +kernel
theorem test_routing_second : (sentRec (exec (.routerTokenDecide 0) (routing row2 1))).map (fun l => [field l 8 1, field l 9 1, field l 0xA 1, field l 0x20 2, field l 0x24 4, field l 0x28 2]) =
      some [1, 0, 0xA, 2, 0x3F800000, 0xFFFF] ∧
    after (exec (.routerTokenDecide 0) (routing row2 0)) (fun t => ((t.router 0).held.length, t.net.length)) = some (1, 0) := by decide +kernel

/-- Demands 3, 5, 2 against 6: shares 1, 3, 1, and the one left over goes to the first (14 R293). -/
theorem witness_PermitGrants : [3, 2].sum ≤ 6 ∧ 6 < [3, 5, 2].sum := by decide
theorem test_permits : grants 6 [3, 2] = [3, 2] ∧ grants 6 [3, 5, 2] = [2, 3, 1] ∧ grants 0 [1, 1] = [0, 0] := by decide +kernel

def ent0 (token : W32) (dest : Nat) : BinEnt :=
  { token := token, seq := 0, origin := 0, rowSlot := 0, j := 0, k := 1, poison := false, null := false, renorm := false, weight := 0x3F800000,
    spareExpert := 0xFFFF, spareReplica := 0, originDev := 0, dest := dest, expert := 0, replica := 0 }
def comb0 : CombTable := { nc := 1, k := 1, t := 4, rowSize := 16, buffer := 0x4000, weights := 0x5000, list := [0] }
def exReq0 (ents : List BinEnt) : ExReq :=
  { launch := 0, device := 0, idx := 0, dispatch := true, fast := false, comp := 0x25, scope := .cell, role := 0, rowSize := 16, n := 1, rows := 0x600, tags := 0, slot := 0,
    policyVa := 0x12000, slotDir := 0x13000, combVa := 0x11000, policy := some policyEx, comb := comb0, ents := ents }
def sub0 (ents : List BinEnt) : ExSub := { id := 2, req := exReq0 ents, round := 0, started := false, decided := false, owed := 0 }
/-- Slot 0 of die 0: cell 1, capacity 1, buffer 0x1000, tags 0x2000; counters 1, 2, 3. -/
def slotDir0 : Nat := 1 + 1 * 2 ^ 16 + 0x1000 * 2 ^ 32 + 0x2000 * 2 ^ 64 + 16 * 2 ^ 96 + (1 + 2 * 32 + 3 * 1024) * 2 ^ 112
def exSlot0 : ExSlot :=
  { dest := 0, cell := 1, cap := 1, buffer := 0x1000, tags := 0x2000, filled := 1, done := 2, release := 3, granted := 0, pos := 0, toCome := 0, started := false, finished := false }
def opening : State := { base.updLaunch 0 (fun l => { l with roles := [0, 1], stage := .running, flags := 0x10 }) with
  exch := [sub0 [ent0 7 0, ent0 8 0]], nextId := 9, mem := Mem.writeBytes base.mem 0x3000 (natBytes 16 slotDir0) }
def slotsOf (e : Except (Nat × Nat) (List ExSlot)) : Option (List ExSlot) := match e with
  | .ok l => some l
  | _ => none
theorem witness_ExchangeRounds : (opening.launch 0).stage = .running ∧ (opening.launch 0).preempt = false ∧ (opening.launch 0).cancel = false ∧
    opening.roundReady 0 = some (sub0 [ent0 7 0, ent0 8 0] :: []) ∧ (sub0 [ent0 7 0, ent0 8 0]).req.role = (sub0 [ent0 7 0, ent0 8 0]).round % 16 ∧
    slotsOf (opening.readSlots (opening.launch 0) 0x13000 16 (opening.launch 0).dies) = some [exSlot0] := by decide +kernel
def rent (e : BinEnt) (st : EntState) : RoundEnt := { src := 0, ent := e, dest := e.dest, expert := e.expert, replica := e.replica, state := st }
def round0 (p : RoundPhase) (policy : Nat) (slots : List ExSlot) (ents : List RoundEnt) : Round :=
  { id := 9, n := 0, launch := 0, fast := false, policy := policy, subs := [2], slots := slots, far := [], ents := ents, phase := p }
def inRound (r : Round) : State := { opening with exch := [{ sub0 [ent0 7 0, ent0 8 0] with started := true, decided := false }], rounds := [r], nextId := 10 }
def permitS (policy : Nat) : State := inRound (round0 .permit policy [{ exSlot0 with toCome := 2 }] [rent (ent0 7 0) .waiting, rent (ent0 8 0) .waiting])
def secondS : State := inRound (round0 .second 1 [{ exSlot0 with toCome := 2, granted := 1 }] [rent (ent0 7 0) .granted, rent (ent0 8 0) .waiting])
/-- A FAST round; a round that still waits for the slots of device 1. -/
def fastS : State := inRound { round0 .permit 0 [] [rent (ent0 7 0) .waiting] with fast := true }
def farS : State := { permitS 0 with launches := [(0, { opening.launch 0 with spread := [0, 1] })] }
theorem witness_ExchangeRounds_far : (fastS.rounds.map (fun r => (r.phase, r.fast, fastS.farReady r))) = [(.permit, true, true)] ∧ (farS.rounds.map farS.farReady) = [false] := by decide +kernel
theorem test_farRounds : after (exec (.permitRound 9) fastS) (fun t => t.rounds.map (fun r => (r.phase, r.ents.map (·.state)))) = some [(.decided, [.dropped])] ∧
    after (exec (.permitRound 9) farS) (fun t => t.rounds.map (·.phase)) = some [.permit] := by decide +kernel
theorem witness_ExchangeRounds_permits : (permitS 0).round 9 = some (round0 .permit 0 [{ exSlot0 with toCome := 2 }] [rent (ent0 7 0) .waiting, rent (ent0 8 0) .waiting]) ∧
    (∀ p ∈ [0, 1], ∀ r ∈ (permitS p).rounds, (permitS p).farReady r = true ∧ (∀ e ∈ r.ents, e.src < r.subs.length)) ∧ (secondS.rounds.map (·.phase)) = [.second] := by decide +kernel
theorem test_roundStart : after (exec (.dispatchRoundStart 0) opening) (fun t => t.rounds.map (fun r => (r.phase, r.slots.map (·.toCome), r.ents.map (·.state)))) = some [(.permit, [0], [.waiting, .waiting])] := by
  decide +kernel
theorem test_permitRound : after (exec (.permitRound 9) (permitS 0)) (fun t => t.rounds.map (fun r => (r.phase, r.slots.map (·.granted), r.ents.map (·.state)))) = some [(.decided, [1], [.granted, .dropped])] := by
  decide +kernel
theorem test_secondRound : after (exec (.permitRound 9) (permitS 1)) (fun t => t.rounds.map (fun r => (r.phase, r.slots.map (·.granted)))) = some [(.second, [1])] ∧
    after (exec (.secondRound 9) secondS) (fun t => t.rounds.map (fun r => (r.phase, r.ents.map (·.state)))) = some [(.decided, [.granted, .dropped])] := by decide +kernel

def org0 : ExOrg := { dev := 0, key := none, round := 0 }
def slot2 : ExSlot := { exSlot0 with cell := 0, cap := 2, granted := 2, toCome := 2, started := true }
def decided0 : Round := round0 .decided 0 [slot2] [rent (ent0 7 0) .granted, rent (ent0 8 0) .granted]
def packetB : MsgBody := .packet 9 2 7 0 false false 0 0 [(0, 0x3F800000)] (natBytes 16 0xCAFE) [] org0
def placing : State := { inRound decided0 with net := [msg packetB true] }
theorem witness_RowsAtExperts : placing.Lands (msg packetB true) [] [] ∧ org0.dev = placing.device ∧ placing.round 9 = some decided0 ∧
    decided0.slots.find? (fun z => z.dest = 0) = some slot2 ∧ (slot2.started = true ∧ slot2.finished = false ∧ slot2.pos < slot2.granted) ∧
    (decided0.slots.map (·.dest)).Pairwise (· ≠ ·) ∧ (placing.rounds.map (·.id)).Pairwise (· ≠ ·) ∧ (∀ k : Fin 32, (placing.here.k[k]).toNat + 2 < 2 ^ 32) ∧
    Memory.wf placing.here.spad.bytes = true :=
  ⟨lands _ _ rfl rfl, rfl, by and_intros <;> decide +kernel⟩
theorem test_rowsAtExperts : after (exec (.prismPacketArrive 7) placing) (fun t => (t.here.spad.read 0x1000 16, t.here.spad.read 0x2000 4, t.here.k[(1 : KReg)], t.rounds.map (fun r => r.slots.map (·.pos)))) =
    some (0xCAFE, 7, 1, [[1]]) := by decide +kernel

def notice0 : Notice := { token := 7, seq := 3, k := 1, j := 0, dest := 0, weight := 0x3F800000, poison := false, renorm := false, status := .granted }
def combEntry0 (l : List Notice) : CombEntry := { token := 7, notices := l, rows := [], posted := false }
def combining (b : MsgBody) (l : List Notice) : State := { inRound decided0 with
  net := [msg b true], cells := base.cells.map (fun e => (e.1, if e.1 = 0 then { e.2 with comb := if l = [] then [] else [(2, combEntry0 l)] } else e.2)) }
def noticeB : MsgBody := .notice 0 2 comb0 notice0 2 org0
def rowB : MsgBody := .retRow 0 2 comb0 7 0 false (natBytes 16 0xBEEF) [] 2 org0
theorem witness_CombineEntries : (combining noticeB []).Lands (msg noticeB true) [] [] ∧ org0.dev = (combining noticeB []).device ∧ (combEntry0 []).posted = false ∧
    ((combining noticeB []).cell 0).comb.find 2 = none ∧ (combEntry0 []).token = notice0.token ∧ notice0.poison = false ∧ Memory.wf ((combining noticeB []).cell 0).spad.bytes = true ∧
    (combining rowB [notice0]).Lands (msg rowB true) [] [] ∧ ((combining rowB [notice0]).cell 0).comb.find 2 = some (combEntry0 [notice0]) ∧
    (combEntry0 [notice0]).sorted.find? (fun z => z.status = .granted ∧ z.dest = 0) = some notice0 :=
  ⟨lands _ _ rfl rfl, rfl, rfl, by decide +kernel, rfl, rfl, by decide +kernel, lands _ _ rfl rfl, by decide +kernel, by decide +kernel⟩
/-- Entry 2 with k = 1: weights at 0x5000 + 4 · 2, the row at 0x4000 + 2 · 16. -/
theorem test_combineEntries : after (exec (.noticeArrive 7) (combining noticeB [])) (fun t => ((t.cell 0).comb.find 2).map (fun e => (e.notices.length, e.posted))) = some (some (1, false)) ∧
    after (exec (.returnRowArrive 7) (combining rowB [notice0])) (fun t => ((t.cell 0).spad.read 0x4020 16, (t.cell 0).spad.read 0x5008 4, (t.cell 0).readyQ.length)) =
      some (0xBEEF, 0x3F800000, 1) := by decide +kernel
def leaving : State := { opening with exch := [{ sub0 [] with started := true, decided := true }] }
theorem witness_ExchangeEnds : leaving.exSub 2 = some { sub0 [] with started := true, decided := true } ∧ (exReq0 []).device = leaving.device ∧ (exReq0 []).comp.testBit 5 = true ∧
    (leaving.launch (exReq0 []).launch).physIdx (exReq0 []).idx = leaving.cur.cell ∧ (leaving.here.k[(5 : KReg)]).toNat + 1 < 2 ^ 32 ∧
    (∀ e ∈ leaving.here.fibres, e.2.status = .ready) := ⟨by decide +kernel, rfl, by and_intros <;> decide +kernel⟩
theorem test_exchangeEnds : after (exec (.exchangeComplete 2) leaving) (fun t => (t.exch.length, t.here.k[(5 : KReg)])) = some (0, 1) := by decide +kernel

/-! ## Event units, combining, leases, frames, faults and power (15, 16, 18, 19) -/

def storeB (cfg : Bool) (v : Word) : MsgBody := .eventStore who0 4 0 3 cfg v
/-- A store to line 3 of cluster 0, which stands as `l`. -/
def lineS (cfg : Bool) (v : Word) (l : Line) : State := { netS (storeB cfg v) with lines := [(3, l)] }
def barrier2 (n : Nat) : Line := { Line.off with cfg := 0x20001, kind := .barrier, arrivals := n }
def childBarrier (n : Nat) : Line := { Line.off with cfg := 0xB00020001, kind := .barrier, arrivals := n }
def mutexW (l : List LineWaiter) : Line := { Line.off with cfg := 2, kind := .mutex, busy := true, waiters := l }
def lineWaiter : LineWaiter := { who := who0, phase := 1 }
def mutexS : State := (lineS false 1 (mutexW [lineWaiter])).updFibre (fun f => { f with status := .parked (.event 0xC000000000000018 3 4) 0 })
theorem witness_EventLineStores : (lineS false 1 (barrier2 0)).StoreNext (msg (storeB false 1) true) [] [] 0 ∧ (msg (storeB false 1) true).body = .eventStore who0 4 0 3 false 1 ∧
    who0.dev = (lineS false 1 (barrier2 0)).device ∧ (lineS false 1 (barrier2 0)).mayApply who0 = true ∧ (lineS false 1 (barrier2 0)).line 3 = barrier2 0 ∧
    0 + 1 < fld (barrier2 0).cfg 31 16 ∧ fld (barrier2 1).cfg 31 16 ≤ 1 + 1 ∧ (lineS false 1 (barrier2 1)).lineParent 3 (barrier2 1) = none ∧
    (∀ e ∈ (lineS false 1 (barrier2 1)).lines, (lineS false 1 (barrier2 1)).lineParent e.1 e.2 ≠ some 3) ∧ (lineS false 1 (childBarrier 1)).lineParent 3 (childBarrier 1) = some 5 ∧
    (lineS false 1 .off).line 3 = .off ∧ mutexS.line 3 = mutexW [lineWaiter] ∧ (mutexS.cell 0).fibre 17 = { fib0 with status := .parked (.event 0xC000000000000018 3 4) 0 } :=
  ⟨⟨rfl, fun _ g => absurd g List.not_mem_nil, fun _ g => absurd g List.not_mem_nil⟩, rfl, rfl, by and_intros <;> decide +kernel⟩
theorem test_lineStores : after (exec (.eventLineStoreApply 7) (lineS true 0x20001 .off)) (fun t => (t.line 3).kind) = some .barrier ∧
    after (exec (.eventLineStoreApply 7) (lineS false 1 (barrier2 0))) (fun t => ((t.line 3).arrivals, (t.line 3).phase)) = some (1, 0) ∧
    after (exec (.eventLineStoreApply 7) (lineS false 1 (barrier2 1))) (fun t => ((t.line 3).arrivals, (t.line 3).phase)) = some (0, 1) ∧
    after (exec (.eventLineStoreApply 7) (lineS false 1 (childBarrier 1))) (fun t => ((t.line 3).phase, (t.line 3).closed, t.net.length)) = some (0, 1, 2) ∧
    after (exec (.eventLineStoreApply 7) (lineS false 1 .off)) (fun t => (t.lines, t.net.length)) = some ([(3, .off)], 1) := by decide +kernel
theorem test_lineStores_more : after (exec (.eventLineStoreApply 7) mutexS) (fun t => ((t.line 3).waiters, (t.line 3).busy, t.fibre.status, t.g 3)) = some ([], true, .ready, 0) ∧
    after (exec (.eventLineStoreApply 7) (lineS false 0 { Line.off with cfg := 3, kind := .event, set := true })) (fun t => (t.line 3).set) = some false ∧
    after (exec (.eventLineStoreApply 7) (lineS false 1 { Line.off with cfg := 3, kind := .event })) (fun t => (t.line 3).set) = some true := by decide +kernel
def parentS (b : MsgBody) (l : Line) : State := { netS b with lines := [(5, l)] }
def releasing : State := (parentS (.lineRelease 5) { childBarrier 0 with cfg := 0xD00020001, closed := 1, waiters := [lineWaiter] }).updFibre (fun f => { f with status := .parked (.event 0xC000000000000028 3 4) 0 })
theorem witness_ParentLines : (parentS (.lineArrive 5) (barrier2 0)).net = [] ++ msg (.lineArrive 5) true :: [] ∧ ((parentS (.lineArrive 5) (barrier2 0)).line 5).kind = .barrier ∧
    0 + 1 < fld (barrier2 0).cfg 31 16 ∧ ((parentS (.lineArrive 5) .off).line 5).kind ≠ .barrier ∧ releasing.net = [] ++ msg (.lineRelease 5) true :: [] ∧
    (releasing.line 5).phase < (releasing.line 5).closed ∧ (releasing.line 5).waiters = [lineWaiter] ∧ lineWaiter.phase ≤ (releasing.line 5).phase + 1 ∧
    (releasing.cell 0).fibre 17 = { fib0 with status := .parked (.event 0xC000000000000028 3 4) 0 } := by decide +kernel
theorem witness_ParentLines_none : (∀ e ∈ releasing.lines, releasing.lineParent e.1 e.2 ≠ some 5) ∧ ∀ e ∈ releasing.lines, releasing.lineParent e.1 e.2 = some 6 := by decide +kernel
theorem test_parentLines : after (exec (.parentArrival 7) (parentS (.lineArrive 5) (barrier2 0))) (fun t => (t.line 5).arrivals) = some 1 ∧
    after (exec (.parentReleaseArrive 7) releasing) (fun t => ((t.line 5).phase, t.g 3, t.fibre.status)) = some (1, 1, .ready) := by decide +kernel

def contrib (op : CombOp) (x y : Word) : Group := { launch := 0, contribs := [{ who := 0, m := 0, op := op, value := x }, { who := 1, m := 0, op := op, value := y }] }
def combS (op : CombOp) (x y : Word) : State := { base with groups := [(16, contrib op x y)] }
theorem witness_CombiningResults : (combS .qadd 5 6).groups.find 16 = some (contrib .qadd 5 6) ∧ ((combS .qadd 5 6).launch 0).key = none ∧ ((combS .qadd 5 6).launch 0).spread = [] ∧
    ((combS .qadd 5 6).launch 0).saved = none ∧ ((combS .qadd 5 6).launch 0).w * ((combS .qadd 5 6).launch 0).h = 2 ∧
    (∀ i, i < 2 → ∀ j, j < 2 → ((combS .qadd 5 6).launch 0).physIdx i = ((combS .qadd 5 6).launch 0).physIdx j → i = j) ∧
    (∀ i, i < 2 → ((contrib .qadd 5 6).contribs.map (fun c => (c.who, c.m, c.op)))[i]? = some (i, 0, .qadd)) := by decide +kernel
noncomputable def combRes (op : CombOp) (x y : Word) : Option (List (Word × Bool)) := after (exec (.combineResultArrive 16 0) (combS op x y)) (fun t => (t.cell 1).results.map (fun r => (r.value, r.ovf)))
theorem test_combining : combRes .qadd 0x7FFFFFFFFFFFFFFF 1 = some [(0x8000000000000000, true)] ∧ combRes .imin 0xFFFFFFFFFFFFFFFF 1 = some [(0xFFFFFFFFFFFFFFFF, false)] ∧
    combRes .imax 0xFFFFFFFFFFFFFFFF 1 = some [(1, false)] ∧ combRes .and 6 3 = some [(2, false)] ∧ combRes .or 6 3 = some [(7, false)] ∧ combRes .iadd 6 3 = some [(9, false)] := by decide +kernel
theorem test_combineRedo : after (exec (.combineRedo 16 0) (combS .qadd 1 2)) (fun t => t.dieMon.find 23) = some (some 1) := by decide +kernel

/-- A request of device 1 for 1 of the pairs 17 and 33; a lease of device 2 that holds pair 17 since 0, at 30 µs. -/
def reqS (leases : List InLease) (reqs : List InReq) : State := { base with now := 21000, device := 0, inbox := [{ src := 1, body := .leaseReq 0x1003 1 [17, 33], since := 0 }], inLeases := leases, inReqs := reqs }
def heldLease (l : List Nat) : InLease := { src := 2, id := 0x2004, since := 0, pairs := l }
def inReq0 : InReq := { src := 1, id := 0x1003, count := 1, offers := [17, 33], revoking := none }
def takes (s : State) : List Nat := ((grantOrder 1 s.device).filter (fun p => inReq0.offers.contains p && !s.ingressBusy.contains p)).take 1
theorem witness_LeaseService : (reqS [] []).inbox[0]? = some ⟨1, .leaseReq 0x1003 1 [17, 33], 0⟩ ∧ takes (reqS [] []) = [17] ∧ takes (reqS [heldLease [17, 33]] []) = [] ∧
    ¬(reqS [heldLease [17, 33]] []).ns ≤ 0 + 20000 ∧ ({ reqS [heldLease [17, 33]] [] with now := 14000 } : State).ns ≤ 0 + 20000 ∧
    (reqS [heldLease [17, 33]] [inReq0]).inReqs = inReq0 :: [] ∧ takes (reqS [heldLease [17, 33]] [inReq0]) = [] ∧ ((heldLease [17, 33]).src ≠ 1 ∨ (heldLease [17, 33]).id ≠ 0x1003) ∧
    (heldLease [17, 33]).since + 20000 < (reqS [heldLease [17, 33]] [inReq0]).ns ∧
    (grantOrder 1 0).find? (fun p => (heldLease [17, 33]).pairs.contains p && inReq0.offers.contains p) = some 17 := by decide +kernel
theorem test_leaseService : after (exec (.leaseRequestArrive 0) (reqS [] [])) (fun t => (t.inLeases.map (·.pairs), t.fabricOut.map (·.body))) = some ([[17]], [.leaseGrant 0x1003 [17]]) ∧
    after (exec (.leaseRequestArrive 0) { reqS [heldLease [17, 33]] [] with now := 14000 }) (fun t => t.inReqs) = some [inReq0] ∧
    after (exec .leaseReclaimRetry (reqS [heldLease [17, 33]] [inReq0])) (fun t => (t.inLeases.map (·.pairs), t.fabricOut.map (·.body))) = some ([[33]], [.leaseNotice 0x2004 17 false]) := by decide +kernel
def turn (l : Lease) : State := { base with leases := [(3, l)], draining := [] }
def settled : Lease := { leaseOf 0x1003 .granted [17] with want := 2, arrived := some [33, 49] }
def ending : Lease := { leaseOf 0x1003 .granted [17] with endsAt := 0, notice := [(33, 30000)] }
/-- The same with a request in flight; a frame on pair 33 that waits for its acknowledgement. -/
def askingS (l : Lease) : State := { turn l with asks := [{ id := 0x1003, dest := 1, offers := [33] }] }
def onPair : State := { turn ending with draining := [(33, 1)],
                                          fabricKept := [{ frame := { dev := 1, seq := 0, good := true, cls := .response, body := .leaseFree 9, pair := some 33 }, sentAt := 0, failed := false, tries := 0 }] }
theorem witness_LeaseTurns : (turn settled).leases.find 3 = some settled ∧ settled.id % 4096 = 3 ∧ (turn settled).fencedFns = [] ∧ (turn settled).launches.find 0 = some launch0 ∧ launch0.saved = none ∧
    launch0.physIdx settled.idx = (turn settled).cur.cell ∧ ((turn settled).here.k[settled.k]).toNat + 1 < 2 ^ 32 ∧ settled.arrived = some [33, 49] ∧
    ending.notice.find? (fun n => n.1 = 33) = some (33, 30000) ∧ (turn ending).ns < 30000 ∧ 30000 ≤ ({ turn ending with now := 21000 } : State).ns ∧ ending.live = true ∧
    ending.endsAt ≤ (turn ending).ns ∧ (turn settled).ns < settled.endsAt ∧ (turn ending).asking ending = false ∧ (askingS ending).asking ending = true ∧
    onPair.draining = [(33, 1)] ∧ (∀ k ∈ onPair.fabricKept, k.frame.dev = 1 ∧ k.frame.pair = some 33) := by decide +kernel
theorem test_leaseTurns : after (exec (.leaseGrantSettle 3) (turn settled)) (fun t => (t.leases.map (·.2.pairs), t.draining, t.here.k[(5 : KReg)])) = some ([[17, 33]], [(49, 1)], 1) := by
  decide +kernel
theorem test_leaseTurns_more :
    after (exec (.leaseNoticeExpire 3 33) { turn ending with now := 21000 }) (fun t => (t.leases.map (·.2.notice), t.draining)) = some ([[]], [(33, 1)]) ∧
    after (exec (.leaseNoticeExpire 3 33) (turn ending)) (·.draining) = some [] ∧ after (exec (.leasePairDrained 33) onPair) (·.draining) = some [(33, 1)] ∧
    after (exec (.leaseTermExpire 3) (askingS ending)) (fun t => t.fabricOut.map (·.body)) = some [.leaseCancel 0x1003] ∧
    after (exec (.leaseTermExpire 3) (turn ending)) (fun t => (t.leases.map (·.2.pairs), t.draining, t.here.k[(5 : KReg)])) = some ([[]], [(17, 1), (33, 1)], 1) ∧
    after (exec (.leasePairDrained 33) { turn ending with draining := [(33, 1)] }) (fun t => (t.draining, t.fabricOut.map (·.body))) = some ([], [.leaseFree 33]) := by decide +kernel

def fabricS (f : FabricMsg) (next : Nat) : State := { base with fabricIn := [f], fabricSeqIn := [(8 + f.cls.code, next)] }
def answerF (good : Bool) (seq : Nat) : FabricMsg := { dev := 1, seq := seq, good := good, cls := .response, body := memAns false (.ok 5 false), pair := none }
def requestF : FabricMsg := { dev := 1, seq := 2, good := true, cls := .request, body := .mem { req (.global 0) (.load .d true) with addr := remote }, pair := none }
/-- Frame 4 to device 1, kept since 0; and an answer that names it. -/
def keptF : KeptFrame := { frame := { requestF with seq := 4 }, sentAt := 0, failed := false, tries := 0 }
def ackF (good : Bool) : FabricMsg := { dev := 1, seq := 0, good := true, cls := .response, body := .frameAck .request 4 good, pair := none }
def keeping (f : FabricMsg) (now : Nat) : State := { fabricS f 2 with fabricKept := [keptF], now := now }
theorem witness_Frames : (fabricS (answerF true 2) 2).fabricIn[0]? = some (answerF true 2) ∧ ((fabricS (answerF true 2) 2).fabricSeqIn.find (8 * 1 + (answerF true 2).cls.code)).getD 0 = 2 ∧
    (answerF false 2).good = false ∧ (answerF true 1).seq < 2 ∧ (2 : Nat) < (answerF true 3).seq ∧ (fabricS requestF 2).fencedFns = [] ∧ fld remote 63 60 = 1 ∧ fld remote 47 0 = 0x10100 ∧
    (keeping (ackF true) 0).fabricIn[0]? = some (ackF true) ∧ (keeping requestF 2800).fabricKept[0]? = some keptF ∧ keptF.sentAt + 4000 ≤ (keeping requestF 2800).ns ∧
    (keeping requestF 2799).ns < keptF.sentAt + 4000 := by decide +kernel
theorem test_frames : after (exec (.turobFrameReceive 0) (fabricS (answerF true 2) 2)) (fun t => (t.fabricIn.length, t.net.length, t.fabricSeqIn.map (·.2), t.fabricOut.map (·.body))) =
      some (0, 1, [3], [.frameAck .response 2 true]) ∧
    after (exec (.turobFrameReceive 0) (fabricS (answerF false 2) 2)) (fun t => (t.fabricIn.length, t.net.length, t.fabricOut.map (·.body))) = some (0, 0, [.frameAck .response 2 false]) ∧
    after (exec (.turobFrameReceive 0) (fabricS (answerF true 3) 2)) (fun t => (t.fabricIn.length, t.net.length)) = some (1, 0) ∧
    after (exec (.turobFrameReceive 0) (fabricS requestF 2)) (fun t => t.net.map (fun m => match m.body with | .mem r => some r.place | _ => none)) = some [some (.global 0x10100)] := by decide +kernel
theorem test_keptFrames : after (exec (.turobFrameResend 0) (keeping requestF 2799)) (fun t => t.fabricOut.length) = some 0 ∧
    after (exec (.turobFrameReceive 0) (keeping (ackF true) 0)) (fun t => t.fabricKept.length) = some 0 ∧
    after (exec (.turobFrameReceive 0) (keeping (ackF false) 0)) (fun t => t.fabricKept.map (·.failed)) = some [true] := by decide +kernel

def session0 : Session := { job := some 1, next := 4, devNext := 6, segs := [], busy := false }
def told : State := { base with sessions := [(2, session0)] }
theorem witness_FaultsAndFences : (0 : Nat) < 768 ∧ ({ told with memPoison := [77] } : State).memPoison.contains 77 = true ∧ (farBad told |>.cell 1).spad.poison.contains 4 = true ∧ told.authors = [] ∧ (told.cell 5).launch = none ∧ (∀ e ∈ told.jobs, 64 * (2 ^ 30) < e.2.allotBase ∨ e.2.allotBase + e.2.allotSize ≤ 64 * (2 ^ 30)) ∧
    (0 : Nat) ∉ told.excluded ∧ AMap.wf told.sessions = true ∧ (told.cell 0).launch = some 0 ∧ told.launches.find 0 = some launch0 ∧ AMap.wf told.launches = true ∧ launch0.cancel = false ∧
    launch0.key = none ∧ launch0.ended = none := by decide +kernel
theorem test_faults : after (exec (.uncorrectableError (some 5) 9) told) (fun t => (t.cell 5).spad.poison) = some [9] ∧ after (exec (.uncorrectableError none 77) told) (fun t => t.memPoison) = some [77] ∧
    after (exec (.functionFence 0 0) told) (fun t => (t.excluded, (t.launch 0).cancel, t.hostOut.length, t.sessions.map (·.2.devNext))) = some ([0], true, 1, [7]) := by decide +kernel
theorem witness_PowerSteps : AMap.wf told.sessions = true ∧ told.fencedFns = [] ∧ ({ told with launches := [] } : State).launches = [] ∧
    told.warmAt + 100000000 ≤ ({ told with now := 70000000 } : State).ns ∧ told.ns < told.warmAt + 100000000 := by decide +kernel
theorem witness_PowerSteps_cap : (let s : State := { told with cap := 0 }; s.cap < Config.windowPower s.fresh + 1) ∧ (let s : State := { told with cap := Config.windowPower 0 + 1 }; Config.windowPower s.fresh + 1 ≤ s.cap ∧ 9 * s.cap ≤ 10 * (Config.windowPower s.fresh + 1)) ∧
    (let s : State := { told with cap := 2 * (Config.windowPower 0 + 1) }; 10 * (Config.windowPower s.fresh + 1) < 9 * s.cap) :=
  ⟨Nat.succ_pos _, ⟨Nat.le_refl _, Nat.mul_le_mul_right _ (by decide)⟩, by
    change 10 * (Config.windowPower 0 + 1) < 9 * (2 * (Config.windowPower 0 + 1))
    omega⟩
/-- At 700 CCLK of the full step 1,000 ns have passed; 350 CCLK of the half step are 1,000 ns more (00 R2). -/
theorem test_power : after (exec (.thermalLimit false) { told with now := 700 }) (fun t => (t.half, t.ns, ({ t with now := 1050 } : State).ns, t.hostOut.map (·.body))) =
      some (true, 1000, 2000, [.event 4 1 [1]]) ∧
    after (exec .powerStepUp { told with half := true, now := 35000000 }) (fun t => (t.half, t.hostOut.length)) = some (false, 1) ∧
    after (exec .powerStepUp { told with half := true, now := 34999999 }) (fun t => t.half) = some true ∧
    after (exec .powerGood told) (fun t => (t.up, t.mem, t.cells.length)) = some (true, [], 0) := by decide +kernel

/-! ## The host (03, 11, 19) -/

/-- Session 2 of job `job`, whose next operation has arrived whole. -/
def sessOf (job : Option Nat) (code : Nat) (d : List Byte) (busy : Bool) : Session :=
  { job := job, next := 4, devNext := 6, segs := [{ op := 4, idx := 0, code := code, last := true, data := d }], busy := busy }
def hs (job : Option Nat) (code : Nat) (d : List Byte) : State := { base with sessions := [(2, sessOf job code d false)] }
def hb (n v : Nat) : List Byte := natBytes n v
/-- The reply that leaves: code, status and data. -/
def replied (o : Host.Outcome State Fault Refusal) : Option (List (Nat × Nat × List Byte)) :=
  after o (fun t => t.hostOut.filterMap (fun m => match m.body with | .reply a b d => some (a, b, d) | _ => none))
theorem requests (s : State) (job : Option Nat) (code : Nat) (d : List Byte) (h : s.sessions = [(2, sessOf job code d false)]) :
    s.Requests 2 (sessOf job code d false) code d := by
  refine ⟨by rw [h]; rfl, ?_, rfl, ?_⟩
  · simp [Session.ready, sessOf, assembled, upFrom]
  · simp [Session.ready, Session.past, sessOf, assembled]
def openD (job : Nat) : List Byte := hb 4 job ++ hb 32 0x77
def openS (g : List Byte) : State := { base with opens := [{ op := 0, idx := 0, code := 1, last := true, data := openD 1 }], nextId := 4, jobs := [(1, { job0 with digest := g })] }
theorem witness_Sessions : (openS (Config.sha384 ((openD 1).drop 4))).opens[0]? = some { op := 0, idx := 0, code := 1, last := true, data := openD 1 } ∧
    assembled (openS (Config.sha384 ((openD 1).drop 4))).opens 0 = some (1, openD 1) ∧ (openD 1).length = 36 ∧
    (openS (Config.sha384 ((openD 1).drop 4))).sessions.length < 256 ∧ bAt (openD 1) 0 4 = 1 ∧ bAt (openD 0) 0 4 = 0 ∧
    ((openS (Config.sha384 ((openD 1).drop 4))).jobs.find 1).map (·.digest) = some (Config.sha384 ((openD 1).drop 4)) ∧
    Config.sha384 ((openD 1).drop 4) ≠ Config.sha384 ((openD 1).drop 4) ++ [0] ∧ (hs (some 1) 2 []).Requests 2 (sessOf (some 1) 2 [] false) 2 [] :=
  ⟨rfl, by simp [assembled, openS, upFrom], by decide +kernel, by decide, by decide +kernel, by decide +kernel, rfl, fun h => by simpa using congrArg List.length h, requests _ _ _ _ rfl⟩
theorem test_close : replied (exec (.close 2) (hs (some 1) 2 [])) = some [(2, 0, [])] ∧ after (exec (.close 2) (hs (some 1) 2 [])) (fun t => t.sessions) = some [] := by decide +kernel
def writeD : List Byte := hb 8 0x10040 ++ hb 4 0xDDCCBBAA
theorem witness_HostMemory : (sessOf (some 1) 3 writeD false).job = some 1 ∧ bAt writeD 0 8 < 2 ^ 57 ∧ bAt writeD 0 8 % 65536 + 4 ≤ 65536 ∧ (hs (some 1) 3 writeD).Requests 2 (sessOf (some 1) 3 writeD false) 3 writeD ∧
    writeD.length = 8 + 4 ∧ (hs (some 1) 3 writeD).translate 1 0x10040 .write = .pa 0x40 ∧ Memory.wf (hs (some 1) 3 writeD).mem = true ∧ ((hs (some 1) 3 writeD).job 1).walk 0x900000 3 = none ∧
    (hs (some 1) 4 (hb 8 0x10040 ++ hb 4 4)).Requests 2 (sessOf (some 1) 4 (hb 8 0x10040 ++ hb 4 4) false) 4 (hb 8 0x10040 ++ hb 4 4) ∧
    (hs (some 1) 4 (hb 8 0x10040 ++ hb 4 4)).translate 1 0x10040 .read = .pa 0x40 :=
  ⟨rfl, by decide +kernel, by decide +kernel, requests _ _ _ _ rfl, by decide +kernel, by decide +kernel, by decide, by decide +kernel, requests _ _ _ _ rfl, by decide +kernel⟩
theorem test_hostMemory : after (exec (.write 2) (hs (some 1) 3 writeD)) (fun t => Mem.readNat t.mem 4 0x40) = some 0xDDCCBBAA ∧ replied (exec (.write 2) (hs (some 1) 3 writeD)) = some [(3, 0, hb 8 4)] ∧
    replied (exec (.write 2) (hs (some 1) 3 (hb 8 0x900000 ++ hb 4 1))) = some [(3, 4, hb 8 0)] ∧
    replied (exec (.read 2) { hs (some 1) 4 (hb 8 0x10040 ++ hb 4 4) with mem := [(0x40, 0xAA), (0x43, 0xDD)] }) = some [(4, 0, hb 4 0xDD0000AA)] := by decide +kernel

def queue0 (tail taken : Nat) : Queue :=
  { job := 1, base := 0x12000, logN := 4, notify := false, tail := tail, taken := taken, owners := List.replicate (tail - taken) 2, removed := [], phase := none,
    slot := none, waitSince := 0, aged := 0, blockedSince := none, leaving := none }
def queueS (code : Nat) (d : List Byte) (tail taken : Nat) : State := { hs (some 1) code d with queues := [(0, queue0 tail taken)] }
def qregD : List Byte := hb 8 0x12000 ++ hb 1 4 ++ hb 1 1
def appendD (n : Nat) : List Byte := hb 2 0 ++ hb 2 n ++ hb (64 * n) 0x1234
theorem ready_of (s : State) (code : Nat) (d : List Byte) (h : s.sessions = [(2, sessOf (some 1) code d false)]) : s.Requests 2 (sessOf (some 1) code d false) code d :=
  requests s _ code d h
theorem witness_HostQueues : (hs (some 1) 5 qregD).Requests 2 (sessOf (some 1) 5 qregD false) 5 qregD ∧ qregD.length = 10 ∧
    (bAt qregD 0 8 = 0x12000 ∧ bAt qregD 8 1 = 4 ∧ bAt qregD 9 1 ≤ 1) ∧ (hs (some 1) 5 qregD).queues.lowestFree 4096 0 = some 0 ∧
    (∀ p, p < 2 → 1 ≤ p → 65536 * p < 2 ^ 57 ∧ (((hs (some 1) 5 qregD).job 1).walk (65536 * p) 3).isSome = true) ∧
    (queueS 6 (hb 2 0) 3 3).Requests 2 (sessOf (some 1) 6 (hb 2 0) false) 6 (hb 2 0) ∧ (queueS 6 (hb 2 0) 3 3).queues.find 0 = some (queue0 3 3) ∧ (queueS 6 (hb 2 0) 3 3).queueWorks 0 = [] ∧
    (queue0 3 2).taken ≠ (queue0 3 2).tail ∧ (queueS 7 (appendD 2) 3 3).Requests 2 (sessOf (some 1) 7 (appendD 2) false) 7 (appendD 2) ∧ bAt (appendD 2) 2 2 = 2 ∧
    (appendD 2).length = 4 + 64 * 2 ∧ 2 ^ (queue0 20 5).logN - ((queue0 20 5).tail - (queue0 20 5).taken) < 2 :=
  ⟨requests _ _ _ _ rfl, by decide +kernel, by decide +kernel, by decide +kernel, by decide +kernel, requests _ _ _ _ rfl, by decide +kernel, by decide +kernel, by decide, requests _ _ _ _ rfl,
    by and_intros <;> decide +kernel⟩
def ringOf (e : Except Nat (List Nat)) : List Nat := match e with
  | .ok l => l
  | _ => []
theorem witness_HostQueues_ring : ringOf ((queueS 7 (appendD 2) 3 3).ringSlots (queue0 3 3) (upFrom 2 3)) = [0x20C0, 0x2100] ∧ [0x20C0, 0x2100].Pairwise (fun a b => a + 64 ≤ b ∨ b + 64 ≤ a) ∧
    Memory.wf (queueS 7 (appendD 2) 3 3).mem = true := by decide +kernel
theorem test_queues : replied (exec (.qreg 2) (hs (some 1) 5 qregD)) = some [(5, 0, hb 2 0)] ∧ after (exec (.qreg 2) (hs (some 1) 5 qregD)) (fun t => t.queues.map (fun e => (e.1, e.2.base))) =
      some [(0, 0x12000)] := by decide +kernel
theorem test_qdel : replied (exec (.qdel 2) (queueS 6 (hb 2 0) 3 3)) = some [(6, 0, [])] ∧ replied (exec (.qdel 2) (queueS 6 (hb 2 0) 4 3)) = some [(6, 8, [])] := by decide +kernel
theorem test_append : replied (exec (.append 2) (queueS 7 (appendD 2) 3 3)) = some [(7, 0, hb 4 14)] ∧ replied (exec (.append 2) (queueS 7 (appendD 2) 20 5)) = some [(7, 2, hb 4 1)] ∧
    after (exec (.append 2) (queueS 7 (appendD 2) 3 3)) (fun t => (Mem.readNat t.mem 2 0x20C0, t.queues.map (·.2.tail))) = some (0x1234, [5]) := by decide +kernel
/-- CANCEL at level 3 by tag 0x55; the ring's entry 3 is a LAUNCH with that tag. -/
def cancelD : List Byte := hb 1 3 ++ hb 1 0 ++ hb 2 0 ++ hb 4 0x55 ++ hb 2 0
def cancelS (tail : Nat) : State := { queueS 8 cancelD tail 3 with mem := Mem.writeBytes [] 0x20C0 (hb 8 (1 + 0x55 * 2 ^ 32)) }
def entryOf {α : Type} (e : Except α (List Byte)) : List Byte := match e with
  | .ok l => l
  | _ => []
theorem witness_HostCancels : (cancelS 4).Requests 2 (sessOf (some 1) 8 cancelD false) 8 cancelD ∧ cancelD.length = 10 ∧ (bAt cancelD 0 1 = 3 ∧ bAt cancelD 1 1 = 0 ∧ bAt cancelD 2 2 = 0) ∧
    (cancelS 4).queues.find 0 = some (queue0 4 3) ∧ (cancelS 4).queueWorks 0 = [] ∧ (queue0 3 3).tail = (queue0 3 3).taken ∧ (queue0 4 3).tail = (queue0 4 3).taken + 1 ∧ (queue0 4 3).owners = [2] ∧
    bAt (entryOf ((cancelS 4).entryBytes (queue0 4 3) 3)) 0 1 = 1 ∧ (bAt (entryOf ((cancelS 4).entryBytes (queue0 4 3) 3)) 0 8).testBit 9 = false ∧
    bAt (entryOf ((cancelS 4).entryBytes (queue0 4 3) 3)) 4 4 = bAt cancelD 4 4 :=
  ⟨requests _ _ _ _ rfl, by decide +kernel, by decide +kernel, by decide +kernel, by decide +kernel, rfl, rfl, rfl, by and_intros <;> decide +kernel⟩
theorem test_cancel : replied (exec (.cancel 2) (cancelS 4)) = some [(8, 0, [])] ∧ after (exec (.cancel 2) (cancelS 4)) (fun t => t.queues.map (·.2.taken)) = some [4] ∧
    replied (exec (.cancel 2) (cancelS 3)) = some [(8, 3, [])] := by decide +kernel
def wregD : List Byte := hb 1 3 ++ hb 8 0x20000
def winS (code : Nat) (d : List Byte) : State := { windowed with jobs := [(1, { job0 with windows := [(3, (2, 0x20000))] })], sessions := [(2, sessOf (some 1) code d false)], winOps := [{ winOp0 with session := 2, n := some 2 }] }
/-- The same once the window's segment has been answered. -/
def winIdle : State := { winS 10 (hb 1 3) with winOps := [] }
def wackD : List Byte := hb 4 2 ++ hb 2 0 ++ hb 2 0xBEEF
theorem witness_HostWindows : (hs (some 1) 9 wregD).Requests 2 (sessOf (some 1) 9 wregD false) 9 wregD ∧ (hs (some 1) 9 wregD).jobs.find 1 = some job0 ∧ bAt wregD 1 8 = 0x20000 ∧
    winIdle.Requests 2 (sessOf (some 1) 10 (hb 1 3) false) 10 (hb 1 3) ∧ winIdle.windowUsed 1 3 = false ∧ (winS 10 (hb 1 3)).windowUsed 1 3 = true ∧ (winS 11 wackD).Requests 2 (sessOf (some 1) 11 wackD false) 11 wackD ∧
    (winS 11 wackD).winOps.find? (fun w => w.session = 2 ∧ w.op = bAt wackD 0 4) = some { winOp0 with session := 2, n := some 2 } ∧ bAt wackD 4 2 = 0 ∧ wackD.length = 6 + 2 :=
  ⟨requests _ _ _ _ rfl, by decide +kernel, by decide +kernel, requests _ _ _ _ rfl, by decide +kernel, by decide +kernel, requests _ _ _ _ rfl, by decide +kernel⟩
theorem test_windows : replied (exec (.wreg 2) (hs (some 1) 9 wregD)) = some [(9, 0, [])] ∧ after (exec (.wreg 2) (hs (some 1) 9 wregD)) (fun t => t.jobs.map (·.2.windows)) = some [[(3, (2, 0x20000))]] ∧
    after (exec (.wdel 2) winIdle) (fun t => t.jobs.map (·.2.windows)) = some [[]] ∧
    after (exec (.wdel 2) (winS 10 (hb 1 3))) (fun t => t.hostOut.length) = some 0 := by decide +kernel
theorem test_wack : after (exec (.wack 2) (winS 11 wackD)) (fun t => t.here.copy.xfers.map (fun x => x.segs.map (·.answer))) = some [[some (.data [(0xEF, false), (0xBE, false)])]] := by decide +kernel
theorem witness_DeviceReports : (hs none 12 []).Requests 2 (sessOf none 12 [] false) 12 [] ∧ (hs none 13 (hb 32 9)).Requests 2 (sessOf none 13 (hb 32 9) false) 13 (hb 32 9) ∧ (hb 32 9).length = 32 ∧
    (hs none 14 (hb 1 2)).Requests 2 (sessOf none 14 (hb 1 2) false) 14 (hb 1 2) ∧ bAt (hb 1 2) 0 1 ≤ 3 :=
  ⟨requests _ _ _ _ rfl, requests _ _ _ _ rfl, by decide +kernel, requests _ _ _ _ rfl, by decide +kernel⟩
theorem test_reports : after (exec (.desc 2) { hs none 12 [] with excluded := [25] }) (fun t => t.hostOut.map (fun m => match m.body with | .desc _ n e _ _ _ _ _ => (n, e) | _ => (0, []))) = some [(767, [(1, 1)])] ∧
    after (exec (.attest 2) (hs none 13 (hb 32 9))) (fun t => t.hostOut.map (fun m => match m.body with | .report _ _ _ n _ => n | _ => [])) = some [hb 32 9] ∧
    (replied (exec (.pmread 2) { hs none 14 (hb 1 2) with dieMon := [(64 + 23, 7)] })).map (fun l => l.map (fun x => bAt x.2.2 (8 * 23) 8)) = some [7] := by decide +kernel
/-- Job 5 with 8 entries in its poison log. -/
def jobnewD : List Byte := hb 8 5 ++ hb 1 2 ++ hb 1 0 ++ hb 1 0 ++ hb 1 1 ++ hb 1 8 ++ hb 1 8 ++ hb 114 0
def jobdelS (busy : Bool) : State := { base with sessions := [(2, sessOf none 17 (hb 4 1) busy)] }
def jobsetD : List Byte := hb 4 1 ++ hb 1 2 ++ hb 1 0 ++ hb 2 2 ++ hb 2 7 ++ hb 2 9
theorem witness_HostJobs : (hs none 16 jobnewD).Requests 2 (sessOf none 16 jobnewD false) 16 jobnewD ∧ jobnewD.length = 128 ∧ bAt jobnewD 4 4 = 0 ∧ bAt jobnewD 0xE 10 = 0 ∧ jobNewOk jobnewD = true ∧
    (hs none 16 jobnewD).jobs.find 5 = none ∧ ((hs none 16 jobnewD).jobs.map (fun e => e.2.quota)).sum + bAt jobnewD 0xC 1 ≤ 192 ∧ (sessOf none 17 (hb 4 1) true).ready = some (17, hb 4 1) ∧
    (jobdelS true).works = [] ∧ (jobdelS true).queues = [] ∧ ({ job0 with devSet := [0] }).devSet = [(jobdelS true).device] ∧ (jobdelS true).leases = [] ∧
    (hs none 21 jobsetD).Requests 2 (sessOf none 21 jobsetD false) 21 jobsetD ∧ jobsetD.length = 8 + 2 * 2 ∧ bAt jobsetD 6 2 = 2 ∧ bAt jobsetD 4 1 ≤ 15 :=
  ⟨requests _ _ _ _ rfl, by decide +kernel, by decide +kernel, by decide +kernel, by decide +kernel, by decide +kernel, by decide +kernel, by decide +kernel, rfl, rfl, rfl, rfl, requests _ _ _ _ rfl,
    by and_intros <;> decide +kernel⟩
theorem test_jobs : replied (exec (.jobnew 2) (hs none 16 jobnewD)) = some [(16, 0, [])] ∧ after (exec (.jobnew 2) (hs none 16 jobnewD)) (fun t => ((t.job 5).priority, (t.job 5).quota, (t.job 5).poisonN)) = some (2, 8, 8) ∧
    replied (exec (.jobdel 2) (jobdelS true)) = some [(17, 0, [])] ∧ after (exec (.jobdel 2) (jobdelS true)) (fun t => t.jobs.length) = some 0 ∧
    after (exec (.jobset 2) (hs none 21 jobsetD)) (fun t => ((t.job 1).sets.find 2, (t.job 1).devSet)) = some (some [7, 9], [0, 7, 9]) := by decide +kernel
def mapD (code level va : Nat) (pa : Nat) : List Byte := hb 4 1 ++ hb 1 level ++ hb 1 (if code = 18 then 3 else 0) ++ hb 2 0 ++ hb 4 1 ++ hb 8 va ++ (if code = 18 then hb 8 pa else [])
def job1 : Job := { job0 with allotSize := 0x100000 }
def ptS (code level va pa : Nat) : State := { hs none code (mapD code level va pa) with jobs := [(1, job1)], nextId := 9 }
def invS : State := { ptS 18 0 0x20000 0x10000 with sessions := [(2, sessOf none 18 (mapD 18 0 0x20000 0x10000) true)], invs := [(9, { job := 1, page := 2, n := 1, session := 2, op := 4, code := 18, old := job0.pt })] }
/-- A transfer has begun a chunk on the page. -/
def invBusy : State := { invS with cells := (copying { xfer0 linReq with plan := [{ run := { pos := 0, src := .zeros, dst := 0x20000, n := 64 }, src := none, dst := .mem 0 }] } []).cells }
theorem witness_PageTables_units : (invBusy.invs.map (fun e => invBusy.unitsOn e.2)) = [true] ∧ (invS.invs.map (fun e => invS.unitsOn e.2)) = [false] := by decide +kernel
theorem test_unitsOn : after (exec (.invalidationComplete 9) invBusy) (fun t => t.invs.length) = some 1 := by decide +kernel
theorem witness_PageTables : (ptS 18 0 0x20000 0x10000).Requests 2 (sessOf none 18 (mapD 18 0 0x20000 0x10000) false) 18 (mapD 18 0 0x20000 0x10000) ∧ (mapD 18 0 0x20000 0x10000).length = 28 ∧
    job1.clash 0 0x20000 = false ∧ 0x10000 + 2 ^ ptShift 0 ≤ job1.allotBase + job1.allotSize ∧ (ptS 19 0 0x10000 0).Requests 2 (sessOf none 19 (mapD 19 0 0x10000 0) false) 19 (mapD 19 0 0x10000 0) ∧
    (mapD 19 0 0x10000 0).length = 20 ∧ job1.leafLevel 0x10000 = some 0 ∧ job1.clash 0 0x10000 = false ∧ invS.invs.find 9 = some { job := 1, page := 2, n := 1, session := 2, op := 4, code := 18, old := job0.pt } ∧
    invS.sessions.find 2 = some (sessOf none 18 (mapD 18 0 0x20000 0x10000) true) ∧ (sessOf none 18 (mapD 18 0 0x20000 0x10000) true).past.ready = none ∧
    (ptS 20 0 0x10000 0).Requests 2 (sessOf none 20 (mapD 20 0 0x10000 0) false) 20 (mapD 20 0 0x10000 0) ∧ (ptS 20 1 0x10000 0).Requests 2 (sessOf none 20 (mapD 20 1 0x10000 0) false) 20 (mapD 20 1 0x10000 0) :=
  ⟨requests _ _ _ _ rfl, by decide +kernel, by decide +kernel, by decide +kernel, requests _ _ _ _ rfl, by decide +kernel, by decide +kernel, by decide +kernel, by decide +kernel, by decide +kernel,
    by decide +kernel, requests _ _ _ _ rfl, requests _ _ _ _ rfl⟩
theorem test_pageTables : after (exec (.jobmap 2) (ptS 18 0 0x20000 0x10000)) (fun t => ((t.job 1).translate 0x20008 .write, t.invs.map (·.2.page), t.sessions.map (·.2.busy))) = some (.pa 0x10008, [2], [true]) ∧
    after (exec (.jobunmap 2) (ptS 19 0 0x10000 0)) (fun t => (t.job 1).translate 0x10008 .read) = some (.fault cXLATE) ∧ replied (exec (.invalidationComplete 9) invS) = some [(18, 0, [])] ∧
    after (exec (.jobpin 2) (ptS 20 0 0x10000 0)) (fun t => (t.job 1).pins.map (fun p => (p.page, p.n))) = some [(1, 1)] := by decide +kernel
/-- A segment of 33 bytes: version 1, code, flag last, session, operation, index 0, one byte of payload. -/
def dgram (code session op : Nat) : List Byte := hb 1 1 ++ hb 1 code ++ hb 1 2 ++ hb 1 0 ++ hb 4 session ++ hb 4 op ++ hb 2 0 ++ hb 2 1 ++ hb 16 0 ++ hb 1 0xAB
def segS : State := { hs (some 1) 3 [] with up := true, sessions := [(2, { sessOf (some 1) 3 [] false with segs := [] })] }
def hdrOf (d : List Byte) : Option (Nat × Bool × Nat × Nat) := (parseSegment d).map (fun g => (g.code, g.isReply, g.session, g.op))
/-- A reply of two segments, sent at 0 and at `n` ns. -/
def ackM : HostMsg := { session := 2, op := 5, body := .reply 3 0 [], segs := [0, 1] }
def unackedS (n now : Nat) : State := { segS with unacked := [(ackM, [(0, 0), (1, n)])], now := now }
def src0 : List Byte := [1, 2, 3, 4, 5, 6]
def srcX : List Byte := [1, 2, 3, 4, 5, 7]
def filtered : State := { segS with sources := some [src0] }
theorem witness_Segments : hdrOf (dgram 4 2 4) = some (4, false, 2, 4) ∧ hdrOf (dgram 1 0 9) = some (1, false, 0, 9) ∧ segS.up = true ∧ segS.bootFailed = none ∧ segS.opens = [] ∧
    (segS.sessions.find 2).map (·.next) = some 4 ∧ (4 : Nat) ≤ 4 ∧ (3 : Nat) < 4 ∧ segS.sessions.find 3 = none ∧ segS.sourceOk src0 = true ∧ filtered.sourceOk src0 = true ∧ filtered.sourceOk srcX = false ∧ src0.length = 6 ∧ srcX.length = 6 ∧
    (unackedS 0 0).unacked[0]? = some (ackM, [(0, 0), (1, 0)]) := by decide +kernel
theorem test_segments : after (exec (.brugusSegmentReceive (src0 ++ dgram 4 2 4)) filtered) (fun t => (t.sessions.map (fun e => e.2.segs.map (·.data)), t.hostOut.map (·.body))) = some ([[[0xAB]]], [.ack [(4, 0)]]) ∧
    after (exec (.brugusSegmentReceive (srcX ++ dgram 4 2 4)) filtered) (fun t => t.hostOut.length) = some 0 ∧
    after (exec (.brugusSegmentReceive (src0 ++ dgram 1 0 9)) segS) (fun t => t.opens.map (fun o => (o.op, o.data))) = some [(9, [0xAB])] ∧ replied (exec (.brugusSegmentReceive (src0 ++ dgram 4 3 4)) segS) = some [(4, 3, [])] ∧
    after (exec (.brugusSegmentReceive (src0 ++ dgram 4 2 3)) segS) (fun t => t.hostOut) = some [] := by decide +kernel
/-- 350,000 CCLK are 500 µs: only the segment of that age is sent again (03 R57). -/
theorem test_acks : after (exec (.brugusAck 2 5 0) (unackedS 0 0)) (fun t => t.unacked.map (·.2)) = some [[(1, 0)]] ∧
    after (exec (.brugusRetransmit 0) (unackedS 1 350000)) (fun t => (t.hostOut.map (·.segs), t.unacked.map (·.2))) = some ([[0]], [[(0, 500000), (1, 1)]]) ∧
    after (exec (.brugusRetransmit 0) (unackedS 0 349999)) (fun t => t.hostOut.length) = some 0 := by decide +kernel

/-- 11 R234: an access under an invalidation that covers its page goes by the tables before the change or after it. -/
def remapS : State := { invS with jobs := [(1, job1.mapPage 0 0x20000 0x1000D)] }
theorem test_translate_either : remapS.translate 1 0x20008 .read =
    if Config.pick remapS.fresh 9 2 % 2 = 0 then .fault cXLATE else .pa 0x10008 := rfl
theorem test_translate_other : remapS.translate 1 0x10008 .read = .pa 8 := by decide +kernel

/-! ## The Launch Scheduler (02, 03, 18, 19) -/

/-- CRC-32C of "123456789". -/
theorem test_crc : crc32c [0x31, 0x32, 0x33, 0x34, 0x35, 0x36, 0x37, 0x38, 0x39] = 0xE3069283 := by decide +kernel

def plainWork (kind : Nat) (b : List Byte) : Work := { Work.zero with job := 1, entry := some (0, 3), session := 2, tag := 0x55, kind := kind, bytes := b }
/-- An idle device with job 1, queue 0 in slot 0 and work 5. -/
def sched (w : Work) (mem : List Host.Cell) : State :=
  { State.reset with jobs := [(1, job1)], queues := [(0, { queue0 4 4 with slot := some (0, 0) })], works := [(5, w)], mem := mem, nextId := 9, up := true }
theorem sched_plain (w : Work) (m : List Host.Cell) (j : w.job = 1) (n : w.node = none) (e : w.entry = some (0, 3)) (f : w.notify = false) (p : w.phase = none)
    (b : (sched w m).mayBegin w = true) : (sched w m).PlainEntry 5 w 0 { queue0 4 4 with slot := some (0, 0) } :=
  ⟨rfl, by simp [sched, AMap.wf, AMap.wfFrom], rfl, n, by rw [e]; rfl, rfl, f, p, by rw [j]; rfl, nofun, b⟩
def slotQ (slot : Option (Nat × Nat)) (since : Nat) (blocked : Option Nat) : Queue := { queue0 4 3 with slot := slot, waitSince := since, blockedSince := blocked }
/-- The ring's entry 3 is a FENCE-free SEM_SIGNAL entry; time is 20 ms. -/
def queuesS (l : AMap Queue) : State := { State.reset with jobs := [(1, job1)], queues := l, mem := Mem.writeBytes [] 0x20C0 (hb 8 6), now := 14000000 }
theorem witness_HardwareSlots : AMap.wf (queuesS [(0, slotQ none 0 none)]).queues = true ∧ (queuesS [(0, slotQ none 0 none)]).queues.find 0 = some (slotQ none 0 none) ∧
    (queuesS [(0, slotQ none 0 none)]).runnable 0 (slotQ none 0 none) = true ∧ (queuesS [(0, slotQ none 0 none)]).queuePrio (slotQ none 0 none) < 3 ∧
    0 + 10000000 * (0 + 1) ≤ (queuesS []).ns ∧ (queuesS []).ns = 20000000 ∧ (queuesS [(0, { slotQ (some (0, 0)) 0 (some 0) with tail := 3 })]).runnable 0 { slotQ (some (0, 0)) 0 (some 0) with tail := 3 } = false ∧
    (queuesS [(0, slotQ (some (0, 0)) 0 none), (1, slotQ none 0 none)]).headWaits 0 = false ∧ (queuesS [(0, slotQ (some (0, 0)) 0 none), (1, slotQ none 0 none)]).runnable 1 (slotQ none 0 none) = true := by decide +kernel
/-- The queue in slot 0 has no entry; it has a head that has been taken and not started. -/
def headless : State := queuesS [(0, { slotQ (some (0, 0)) 0 none with tail := 3 }), (1, slotQ none 0 none)]
def headed : State := { queuesS [(0, slotQ (some (0, 0)) 0 none), (1, slotQ none 0 none)] with works := [(5, { Work.zero with job := 1, entry := some (0, 2), kind := 6 })] }
theorem witness_HardwareSlots_rotate : headless.headWaits 0 = false ∧ (∀ e ∈ headless.queues, e.2.leaving = none) ∧ (headless.queues.find 1 = some (slotQ none 0 none) ∧ headless.runnable 1 (slotQ none 0 none) = true) ∧
    ((headed.queueWorks 0).find? (fun e => !e.2.started)).map (fun e => e.2.entry) = some (some (0, 2)) := by decide +kernel
theorem test_hardwareSlots : after (exec (.queueMap 0) (queuesS [(0, slotQ none 0 none)])) (fun t => t.queues.map (·.2.slot)) = some [some (0, 20000000)] ∧
    after (exec (.priorityAge 0) (queuesS [(0, slotQ none 0 none)])) (fun t => t.queues.map (·.2.aged)) = some [1] ∧
    after (exec (.queueUnmapBlocked 0) (queuesS [(0, { slotQ (some (0, 0)) 0 (some 0) with tail := 3 })])) (fun t => t.queues.map (·.2.slot)) = some [none] ∧
    after (exec .queueRotate (queuesS [(0, slotQ (some (0, 0)) 0 none), (1, slotQ none 0 none)])) (fun t => t.queues.map (·.2.leaving)) = some [some 3, none] ∧
    after (exec .queueRotate headless) (fun t => t.queues.map (·.2.slot)) = some [none, none] := by decide +kernel
def launchWork : Work := plainWork 1 (hb 8 (1 + 0x55 * 2 ^ 32) ++ hb 8 0x14000 ++ hb 8 0x77 ++ hb 8 255 ++ hb 32 0)
theorem witness_HardwareSlots_drain : ({ sched launchWork [] with now := 7000000 } : State).works.find 5 = some launchWork ∧ (sched launchWork []).drainFor = none ∧ launchWork.launch = none ∧
    ({ sched launchWork [] with now := 7000000 } : State).candidate launchWork = true ∧ launchWork.waitSince + 10000000 ≤ ({ sched launchWork [] with now := 7000000 } : State).ns := by decide +kernel
theorem test_drainStart : after (exec (.drainStart 5) { sched launchWork [] with now := 7000000 }) (fun t => t.drainFor) = some (some 5) ∧
    after (exec (.drainStart 5) { sched launchWork [] with now := 6999999 }) (fun t => t.drainFor) = some none := by decide +kernel
/-- An entry of 64 bytes in the ring at index 3: `h` its header, then the rest. -/
def ringS (e : List Byte) (works : AMap Work) : State :=
  { sched launchWork [] with works := works, queues := [(0, { queue0 4 3 with slot := some (0, 0) })], mem := Mem.writeBytes [] 0x20C0 e }
def semEntry (h kind : Nat) : List Byte := hb 8 (kind + h * 2 ^ 8 + 0x77 * 2 ^ 32) ++ hb 8 0x13000 ++ hb 8 5 ++ hb 40 0
def phaseEndE : List Byte := hb 8 4 ++ hb 4 6 ++ hb 52 0
theorem witness_EntriesTaken : entryOf ((ringS (semEntry 0 6) []).entryBytes { queue0 4 3 with slot := some (0, 0) } 3) = semEntry 0 6 ∧ entryBad (semEntry 0 6) job1 0 = false ∧
    (ringS (semEntry 0 6) []).headWaits 0 = false ∧ (ringS (semEntry 0 6) []).cancelling 0 3 = false ∧ (bAt (semEntry 1 6) 0 8).testBit 8 = true ∧ (bAt (semEntry 0 6) 0 8).testBit 8 = false ∧
    ((ringS (semEntry 1 6) [(5, launchWork)]).queueWorks 0).length = 1 ∧ bAt (semEntry 0 6) 0 8 % 256 = 6 ∧ entryBad phaseEndE job1 0 = false ∧ bAt phaseEndE 8 4 = 6 := by decide +kernel
theorem test_entryTake : after (exec (.entryTake 0) (ringS (semEntry 2 6) [])) (fun t => t.works.map (fun e => (e.2.tag, e.2.kind))) = some [(0x77, 6)] ∧
    after (exec (.entryTake 0) (ringS (semEntry 2 6) [])) (fun t => (t.works.map (·.2.notify), t.queues.map (·.2.taken))) = some ([true], [4]) ∧
    after (exec (.entryTake 0) (ringS (semEntry 1 6) [(5, launchWork)])) (fun t => t.queues.map (·.2.taken)) = some [3] := by decide +kernel
def phase0 : Phase := { job := 1, id := 6, set := [0], graphs := 0, told := false, done := [], cancel := false }
def phaseS (works : AMap Work) : State := { sched (plainWork 4 phaseEndE) [] with phases := [phase0], sessions := [(2, session0)], works := works, queues := [(0, { queue0 4 4 with slot := some (0, 0), phase := some (6, [0]) })] }
theorem witness_PhasesEnd : (phaseS [(5, plainWork 4 phaseEndE)]).PlainEntry 5 (plainWork 4 phaseEndE) 0 { queue0 4 4 with slot := some (0, 0), phase := some (6, [0]) } ∧
    (phaseS [(5, plainWork 4 phaseEndE)]).phase? 1 (bAt (plainWork 4 phaseEndE).bytes 8 4) = some phase0 ∧ (phaseS [(5, plainWork 4 phaseEndE)]).jobs.find 1 = some job1 ∧
    (∀ e ∈ (phaseS [(5, plainWork 4 phaseEndE)]).works, e.2.phase ≠ some 6) ∧ (∀ d ∈ phase0.set, d = (phaseS []).device) ∧ AMap.wf (phaseS []).sessions = true ∧
    (∃ e ∈ (phaseS [(4, { launchWork with phase := some 6 }), (5, plainWork 4 phaseEndE)]).works, e.2.job = 1 ∧ e.2.phase = some 6) :=
  ⟨⟨rfl, rfl, rfl, rfl, rfl, rfl, rfl, rfl, rfl, nofun, by decide +kernel⟩, by decide +kernel, by decide +kernel, by decide +kernel, by decide +kernel, by decide +kernel, ⟨_, List.mem_cons_self, rfl, rfl⟩⟩
theorem test_phaseComplete : after (exec (.phaseComplete 5) (phaseS [(5, plainWork 4 phaseEndE)])) (fun t => (t.phases.length, (t.job 1).phases, t.works.length)) = some (0, 1, 0) ∧
    after (exec (.phaseComplete 5) (phaseS [(5, plainWork 4 phaseEndE)])) (fun t => t.hostOut.map (·.body)) = some [.event 1 1 (hb 4 6 ++ hb 8 1)] ∧
    after (exec (.phaseComplete 5) (phaseS [(4, { launchWork with phase := some 6 }), (5, plainWork 4 phaseEndE)])) (fun t => t.phases.length) = some 1 := by decide +kernel
def semWork (kind v : Nat) : Work := plainWork kind (hb 8 0 ++ hb 8 0x13000 ++ hb 8 v ++ hb 40 (if kind = 6 then 1 else 0))
theorem witness_Semaphores : (sched (semWork 5 7) (Mem.writeBytes [] 0x3000 (hb 8 7))).PlainEntry 5 (semWork 5 7) 0 { queue0 4 4 with slot := some (0, 0) } ∧
    (sched (semWork 6 7) []).PlainEntry 5 (semWork 6 7) 0 { queue0 4 4 with slot := some (0, 0) } ∧ bAt (semWork 5 7).bytes 8 8 % 8 = 0 ∧ (sched (semWork 5 7) []).translate 1 0x13000 .read = .pa 0x3000 ∧
    (sched (semWork 6 7) []).translate 1 0x13000 .write = .pa 0x3000 ∧ bAt (semWork 5 7).bytes 0x10 8 ≤ Mem.readNat (Mem.writeBytes [] 0x3000 (hb 8 7)) 8 0x3000 ∧ Mem.readNat (Mem.writeBytes [] 0x3000 (hb 8 6)) 8 0x3000 < 7 ∧
    (∀ e ∈ (sched (semWork 6 7) []).queueWorks 0, e.1 = 5) :=
  ⟨sched_plain _ _ rfl rfl rfl rfl rfl (by decide +kernel), sched_plain _ _ rfl rfl rfl rfl rfl (by decide +kernel), by and_intros <;> decide +kernel⟩
theorem test_semaphores : after (exec (.semRecheck 5) (sched (semWork 5 7) (Mem.writeBytes [] 0x3000 (hb 8 7)))) (fun t => t.works.length) = some 0 ∧
    after (exec (.semRecheck 5) (sched (semWork 5 7) (Mem.writeBytes [] 0x3000 (hb 8 6)))) (fun t => t.works.length) = some 1 ∧
    after (exec (.semSignal 5) (sched (semWork 6 7) (Mem.writeBytes [] 0x3000 (hb 8 6)))) (fun t => (Mem.readNat t.mem 8 0x3000, t.works.length)) = some (13, 0) := by decide +kernel
def notifyS : State := { sched { semWork 5 7 with notify := true } (Mem.writeBytes [] 0x3000 (hb 8 7)) with sessions := [(2, session0)] }
theorem witness_CompletionRecords : notifyS.works.find 5 = some { semWork 5 7 with notify := true } ∧ notifyS.queues.find 0 = some { queue0 4 4 with slot := some (0, 0) } ∧
    notifyS.translate 1 (bAt (semWork 5 7).bytes 8 8) .read = .pa 0x3000 ∧ bAt (semWork 5 7).bytes 0x10 8 ≤ Mem.readNat notifyS.mem 8 0x3000 ∧ notifyS.sessions.find 2 = some session0 ∧
    (notifyS.job 1).cancel = false := by decide +kernel
theorem test_completionRecord : after (exec (.semRecheck 5) notifyS) (fun t => t.hostOut.map (fun m => match m.body with | .completion r => [r.length, bAt r 0 4, bAt r 4 4, bAt r 9 1, bAt r 0x10 8] | _ => [])) =
    some [[128, 0x55, 0, 5, 3]] := by decide +kernel
def copyWork (c : Option CopyProg) (n : Nat) : Work := { plainWork 7 (hb 8 0 ++ hb 8 0x13000 ++ hb 8 0x13100 ++ hb 8 n ++ hb 32 0) with copy := c }
def copyS (w : Work) : State := sched w (Mem.writeBytes [] 0x3000 (hb 4 0xDDCCBBAA))
def buf4 : List (Byte × Bool) := [(0xAA, false), (0xBB, false), (0xCC, false), (0xDD, false)]
def prog (n w : Nat) : CopyProg := { buf := buf4.take n, written := w, segs := [], ending := none }
theorem witness_EntryCopies : (copyS (copyWork (some (prog 0 0)) 4)).PlainEntry 5 (copyWork (some (prog 0 0)) 4) 0 { queue0 4 4 with slot := some (0, 0) } ∧ (prog 0 0).buf.length < bAt (copyWork none 4).bytes 0x18 8 ∧
    (prog 4 0).written < 4 ∧ 4 ≤ (prog 4 4).written ∧ bAt (copyWork none 0).bytes 0x18 8 = 0 ∧ Memory.wf (copyS (copyWork none 4)).mem = true ∧ (CPlace.mem 0x3000).external = false :=
  ⟨sched_plain _ _ rfl rfl rfl rfl rfl (by decide +kernel), by decide +kernel, by decide +kernel, by decide +kernel, by decide +kernel, by decide +kernel, rfl⟩
theorem witness_EntryCopies_places : (copyS (copyWork none 4)).entryPlace 1 0x13000 .read = .ok (.mem 0x3000) ∧ (copyS (copyWork none 4)).entryPlace 1 0x13100 .write = .ok (.mem 0x3100) := ⟨rfl, rfl⟩
theorem test_entryCopy : after (exec (.entryCopy 5) (copyS (copyWork (some (prog 0 0)) 4))) (fun t => t.works.map (fun e => e.2.copy.map (·.buf))) = some [some buf4] ∧
    after (exec (.entryCopy 5) (copyS (copyWork (some (prog 4 0)) 4))) (fun t => (Mem.readNat t.mem 4 0x3100, t.works.map (fun e => e.2.copy.map (·.written)))) = some (0xDDCCBBAA, [some 4]) ∧
    after (exec (.entryCopy 5) (copyS (copyWork (some (prog 4 4)) 4))) (fun t => t.works.length) = some 0 ∧ after (exec (.entryCopy 5) (copyS (copyWork none 0))) (fun t => t.works.length) = some 0 := by decide +kernel
/-- A graph of one LAUNCH node at 0x15000: node array at +64, no parameters. -/
def graphHead : List Byte :=
  let h := hb 4 0x4739534B ++ hb 2 1 ++ hb 2 0 ++ hb 2 1 ++ hb 2 0 ++ hb 4 0 ++ hb 4 64 ++ hb 4 0 ++ hb 8 0x13000 ++ hb 8 0x13000 ++ hb 20 0
  h ++ hb 4 (crc32c h)
def graphNode : List Byte := hb 16 0 ++ hb 8 0x14000 ++ hb 8 0x77
def graphWork : Work := plainWork 2 (hb 8 2 ++ hb 8 0x15000 ++ hb 48 0)
def graphS (w : Work) : State := sched w (Mem.writeBytes [] 0x5000 (graphHead ++ graphNode))
def gnode0 : GNode := { kind := 0, param := false, body := 0x14000, arg := 0x77, succs := [], preds := 0 }
def replay0 : Replay := { va := 0x15000, nodes := [gnode0], copy := 0, inst := 0x13000, concurrent := false, startedNodes := [], doneNodes := [] }
def replayOf {α : Type} (e : Except α (State × Replay)) : Option Replay := match e with
  | .ok x => some x.2
  | _ => none
theorem witness_GraphReplays : (graphS graphWork).PlainEntry 5 graphWork 0 { queue0 4 4 with slot := some (0, 0) } ∧ entryOf ((graphS graphWork).gcopy 1 0x15000 64) = graphHead ∧ graphHeaderBad graphHead = false ∧
    (graphS graphWork).replaysOf 1 0x15000 = [] ∧ replayOf ((graphS graphWork).buildReplay 5 graphWork [] graphHead) = some replay0 ∧ replay0.nodes[0]? = some gnode0 ∧
    edgesInto replay0.nodes (fun j => replay0.doneNodes.contains j) 0 = gnode0.preds :=
  ⟨sched_plain _ _ rfl rfl rfl rfl rfl (by decide +kernel), by and_intros <;> decide +kernel⟩
theorem test_graph : after (exec (.graphReplayStart 5) (graphS graphWork)) (fun t => t.works.map (fun e => e.2.replay)) = some [some replay0] ∧
    after (exec (.graphNodeStart 5 0) (graphS { graphWork with started := true, replay := some replay0 })) (fun t => t.works.map (fun e => (e.2.kind, e.2.node))) = some [(2, none), (1, some (5, 0))] := by decide +kernel
/-- A kernel of one cell with 2 initial tasks, entry at 0x16000. -/
def kernelHead : List Byte :=
  let h := hb 4 0x4839534B ++ hb 2 1 ++ hb 2 0 ++ hb 8 0x16000 ++ hb 8 0 ++ hb 8 0 ++ hb 8 0 ++ hb 1 1 ++ hb 1 1 ++ hb 1 0 ++ hb 1 0 ++ hb 2 0 ++ hb 1 2 ++ hb 1 0 ++ hb 12 0
  h ++ hb 4 (crc32c h)
def admitS (w : Work) : State := sched w (Mem.writeBytes [] 0x4000 kernelHead)
def launchOk {α : Type} (e : Except α Launch) : Option (Nat × Nat × Nat × List Nat) := match e with
  | .ok l => some (l.w, l.h, l.reserve, l.spread)
  | _ => none
theorem witness_Admission : (admitS launchWork).PlainEntry 5 launchWork 0 { queue0 4 4 with slot := some (0, 0) } ∧ launchWork.retryAt = 0 ∧ launchWork.hold = none ∧ (admitS launchWork).candidate launchWork = true ∧
    (admitS launchWork).isNext 5 launchWork = true ∧ launchOk ((admitS launchWork).headLaunch launchWork) = some (1, 1, 0, []) ∧ (5 : Nat) < (admitS launchWork).nextId ∧
    (∀ x ∈ rectCells 0 0 1 1, (admitS launchWork).cellFree (some 5) x = true) ∧ (∀ r c : Nat, 0 < r ∨ (0 = r ∧ 0 ≤ c)) ∧
    (∀ l ∈ [launch0], (admitS launchWork).unitFenced l 0 0 = none ∧ (admitS launchWork).unitsFree l 0 0 = true ∧ (admitS launchWork).roomFor l = true) :=
  ⟨sched_plain _ _ rfl rfl rfl rfl rfl (by decide +kernel), rfl, rfl, by decide +kernel, by decide +kernel, by decide +kernel, by decide, by decide +kernel, fun r c => by omega, by decide +kernel⟩
theorem test_admit : after (exec (.launchAdmit 5) (admitS launchWork)) (fun t => ((t.cell 0).launch, (t.cell 0).deque.map (fun e => (e.task.pc, e.task.a0, e.task.a1)), t.launches.map (·.1))) =
    some (some 9, [(0x16000, 0x77, 0x100), (0x16000, 0x77, 0)], [9]) := by decide +kernel
/-- A launch of one cell whose task has been saved, under a pre-empt request. -/
def preempted : State :=
  { State.reset with
    cells := [(0, { cell0 with fibres := [(17, { fib0 with status := .saved })], spad := cell0.spad.write 0x100 4 0xABCD false })]
    launches := [(0, { launch0 with w := 1, h := 1, roles := [0], preempt := true })]
    jobs := [(1, job1)] }
theorem witness_Saves : preempted.launches.find 0 = some { launch0 with w := 1, h := 1, roles := [0], preempt := true } ∧ AMap.wf preempted.cells = true ∧ preempted.savable 0 = true ∧ preempted.routers = [] ∧
    (preempted.cell 0).launch = some 0 ∧ (preempted.cell 0).l1 = [] ∧ ((preempted.cell 0).v.eng.flights = [] ∧ (preempted.cell 0).v.eng.tok = none ∧ (preempted.cell 0).m.eng.flights = [] ∧ (preempted.cell 0).m.eng.tok = none) ∧
    preempted.sweep 0 = preempted := ⟨by decide +kernel, by decide +kernel, by decide +kernel, rfl, by decide +kernel, by decide +kernel, by decide +kernel, rfl⟩
theorem test_launchSave : after (exec (.launchSave 0) preempted) (fun t => ((t.launch 0).preempt, (t.cell 0).launch)) = some (false, none) ∧
    after (exec (.launchSave 0) preempted) (fun t => (t.launch 0).saved.map (fun x => x.cells.map (fun e => e.2.spad.read 0x100 4))) = some (some [0xABCD]) := by decide +kernel
def finished : State :=
  { sched { launchWork with started := true, launch := some 0 } [] with
    cells := [(0, { Cell.idle with launch := some 0 })]
    launches := [(0, { launch0 with work := some 5, w := 1, h := 1, roles := [0], retired := [0] })] }
def quietS : State := { finished with cells := [(0, { Cell.idle with launch := some 0, l1 := [{ va := 0x400, pa := 0, data := 0xAB00, valid := BitVec.allOnes 64, dirty := 2, poison := false }] })],
                                      launches := [(0, { launch0 with w := 1, h := 1, roles := [0] })] }
theorem witness_Completion : (quietS.cell 0).launch = some 0 ∧ quietS.launches.find 0 = some { launch0 with w := 1, h := 1, roles := [0] } ∧ quietS.mayRetire 0 = true ∧ (quietS.cell 0).idx launch0 ∉ launch0.retired ∧
    finished.launches.find 0 = some { launch0 with work := some 5, w := 1, h := 1, roles := [0], retired := [0] } ∧ finished.mayRetire 0 = true ∧ finished.l1Clean 0 = true ∧ AMap.wf finished.launches = true ∧ AMap.wf finished.cells = true := by
  decide +kernel
theorem witness_Completion_entry : finished.PlainEntry 5 { launchWork with started := true, launch := some 0 } 0 { queue0 4 4 with slot := some (0, 0) } :=
  ⟨rfl, rfl, rfl, rfl, rfl, rfl, rfl, rfl, rfl, nofun, by decide +kernel⟩
theorem test_completion : after (exec (.cellRetire 0) quietS) (fun t => ((t.launch 0).retired, Mem.read t.mem 1)) = some ([0], 0xAB) ∧
    after (exec (.launchComplete 0) finished) (fun t => (t.launches.length, t.works.length, (t.cell 0).launch)) = some (0, 0, none) := by decide +kernel
/-- The same launch cancelled: it wrote the byte at 0x40, and launch 7 wrote the one at 0x41. -/
def aborted : State := { finished with launches := [(0, { launch0 with work := some 5, w := 1, h := 1, roles := [0], retired := [0], cancel := true, ended := some .cancelled })],
                                       authors := [(0x40, 0), (0x41, 7)], mem := Mem.writeBytes [] 0x40 [5, 6] }
theorem witness_Completion_cancelled : aborted.launches.find 0 = some { launch0 with work := some 5, w := 1, h := 1, roles := [0], retired := [0], cancel := true, ended := some .cancelled } ∧
    aborted.mayRetire 0 = true ∧ (aborted.cell 0).l1 = [] ∧ aborted.routers = [] ∧ AMap.wf aborted.launches = true ∧ AMap.wf aborted.authors = true ∧ Memory.wf aborted.mem = true ∧
    aborted.authors.find 0x40 = some 0 ∧ aborted.authors.find 0x41 ≠ some 0 := by decide +kernel
theorem witness_Completion_cancelledEntry : aborted.PlainEntry 5 { launchWork with started := true, launch := some 0 } 0 { queue0 4 4 with slot := some (0, 0) } :=
  ⟨rfl, rfl, rfl, rfl, rfl, rfl, rfl, rfl, rfl, nofun, by decide +kernel⟩
/-- 03 R56: a graph replay's node passes what it wrote on to the replay; data of others stays. -/
theorem test_cancelledData : after (exec (.launchComplete 0) aborted) (fun t => (t.launches.length, t.authors)) = some (0, [(0x41, 7)]) ∧
    (aborted.settle 0 false (some 9)).authors = [(0x40, 9), (0x41, 7)] ∧ Mem.readNat (aborted.settle 0 false none).mem 2 0x40 = 0x605 := by decide +kernel

/-! ## Spread launches, the whole machine (02, 03, 04, 05) -/

def key0 : Nat × Nat := (1, 30)
def spreadHead : LaunchCopy := { hdr := kernelHead, roles := [], chans := [] }
def spLaunch (st : LaunchStage) : Launch := { spreadHead.launch job1 1 0x14000 0x77 with spread := [0, 1], key := some key0, stage := st }
def peerS (b : MsgBody) (l : AMap Launch) (jobs : AMap Job) : State := { State.reset with jobs := jobs, launches := l, inbox := [{ src := 1, body := b, since := 0 }], nextId := 9, device := 0 }
def reserveB : MsgBody := .spReserve key0 1 2 [0, 1] 0x14000 kernelHead [] [] 0x77 false
def setJob : Job := { job1 with sets := [(2, [0, 1])], devSet := [0, 1] }
/-- A device that drains for work 5; one all of whose cells are excluded. -/
def busyPeer (now : Nat) : State := { peerS reserveB [] [(1, setJob)] with works := [(5, { Work.zero with job := 1, kind := 1 })], drainFor := some 5, now := now }
def fullPeer (now : Nat) : State := { peerS reserveB [] [(1, setJob)] with excluded := upFrom 768 0, now := now }
theorem witness_SpreadLaunches_reserve : (peerS reserveB [] [(1, setJob)]).inbox[0]? = some ⟨1, reserveB, 0⟩ ∧ (peerS reserveB [] [(1, setJob)]).reserveNext 0 0 = true ∧ (busyPeer 0).reserveNext 0 0 = false ∧
    (fullPeer 70000).reserveFits reserveB = none ∧ 0 + 100000 ≤ (fullPeer 70000).ns ∧ (fullPeer 69999).ns < 0 + 100000 ∧ (peerS reserveB [] [(1, setJob)]).jobs.find 1 = some setJob ∧ setJob.set? 2 ≠ none ∧
    (peerS reserveB [] [(1, setJob)]).placeFor none { spreadHead.launch setJob 1 0x14000 0x77 with spread := [0, 1], key := some key0, stage := .held } false = .fits 0 0 ∧
    (peerS reserveB [] []).jobs.find 1 = none := by decide +kernel
def heldLaunch : Launch := { spLaunch .held with work := none, key := some (0, 9) }
def three : Launch := { heldLaunch with spread := [0, 1, 2] }
theorem witness_SpreadLaunches_answers : (peerS (.spHeld (0, 9)) [(9, heldLaunch)] [(1, job1)]).launches.find? (fun e => e.2.key = some (0, 9)) = some (9, heldLaunch) ∧
    AMap.wf (peerS (.spHeld (0, 9)) [(9, heldLaunch)] []).launches = true ∧ (peerS (.spHeld (0, 9)) [(9, heldLaunch)] []).inbox[0]? = some ⟨1, .spHeld (0, 9), 0⟩ ∧ heldLaunch.stage = .held ∧ heldLaunch.work = none ∧
    (∀ d ∈ heldLaunch.spread, d = 0 ∨ d = 1 ∨ d ∈ heldLaunch.heldBy) ∧ heldLaunch.spread.filter (fun d => d != 0) = [1] ∧ (∃ d ∈ three.spread, d ≠ 0 ∧ d ≠ 1 ∧ d ∉ three.heldBy) ∧
    (peerS (.spCommit (0, 9) 500) [(9, heldLaunch)] []).inbox[0]? = some ⟨1, .spCommit (0, 9) 500, 0⟩ ∧ (spLaunch (.committed 500)).saved = none ∧ (State.reset).ns < 500 ∧ 500 ≤ ({ State.reset with now := 350 } : State).ns := by
  decide +kernel
theorem test_spreadReserve : after (exec (.spreadReserve 0) (peerS reserveB [] [(1, setJob)])) (fun t => (t.fabricOut.map (·.body), t.launches.map (fun e => e.2.stage), (t.cell 0).launch)) = some ([.spHeld key0], [.held], some 9) ∧
    after (exec (.spreadReserve 0) (peerS reserveB [] [])) (fun t => t.fabricOut.map (·.body)) = some [.spUndefined key0] ∧
    after (exec (.spreadReserve 0) (busyPeer 0)) (fun t => t.inbox.length) = some 1 ∧ after (exec (.spreadNoroomTimeout 0) (fullPeer 69999)) (fun t => t.fabricOut.length) = some 0 ∧
    after (exec (.spreadNoroomTimeout 0) (fullPeer 70000)) (fun t => t.fabricOut.map (·.body)) = some [.spNoroom key0] := by decide +kernel
theorem test_spreadAnswers : after (exec (.spreadAnswer 0) (peerS (.spHeld (0, 9)) [(9, three)] [(1, job1)])) (fun t => t.launches.map (fun e => (e.2.heldBy, e.2.stage))) = some [([1], .held)] ∧
    after (exec (.spreadAnswer 0) (peerS (.spHeld (0, 9)) [(9, heldLaunch)] [(1, job1)])) (fun t => t.launches.map (fun e => e.2.heldBy)) = some [[1]] ∧
    after (exec (.spreadCommit 0) (peerS (.spCommit (0, 9) 500) [(9, heldLaunch)] [(1, job1)])) (fun t => t.launches.map (fun e => e.2.stage)) = some [.committed 500] ∧
    after (exec (.spreadStart 9) { peerS reserveB [(9, spLaunch (.committed 500))] [(1, job1)] with now := 350 }) (fun t => t.launches.map (fun e => e.2.stage)) = some [.running] ∧
    after (exec (.spreadStart 9) { peerS reserveB [(9, spLaunch (.committed 500))] [(1, job1)] with now := 349 }) (fun t => t.launches.map (fun e => e.2.stage)) = some [.committed 500] := by decide +kernel
/-- A LAUNCH of the SPREAD kernel over the set 2 that met NOROOM and may try again at 100 ns. -/
def spreadKernel : List Byte :=
  let h := hb 4 0x4839534B ++ hb 2 1 ++ hb 2 0x20 ++ hb 8 0x16000 ++ hb 8 0 ++ hb 8 0 ++ hb 8 0 ++ hb 1 1 ++ hb 1 1 ++ hb 1 0 ++ hb 1 0 ++ hb 2 0 ++ hb 1 2 ++ hb 1 0 ++ hb 12 0
  h ++ hb 4 (crc32c h)
def retryWork : Work := { plainWork 1 (hb 8 1 ++ hb 8 0x14000 ++ hb 8 0x77 ++ hb 8 2 ++ hb 32 0) with retryAt := 100, devs := [0, 1] }
def retryS (now : Nat) : State := { sched retryWork (Mem.writeBytes [] 0x4000 spreadKernel) with jobs := [(1, setJob)], now := now }
theorem witness_SpreadLaunches_retry : (retryS 70).PlainEntry 5 retryWork 0 { queue0 4 4 with slot := some (0, 0) } ∧ retryWork.retryAt ≠ 0 ∧ (retryS 70).candidate retryWork = true ∧ (retryS 70).isNext 5 retryWork = true ∧
    launchOk ((retryS 70).headLaunch { retryWork with retryAt := 0 }) = some (1, 1, 0, [0, 1]) ∧ ([0, 1].filter (fun d => d != (retryS 70).device)) = [1] ∧ retryWork.retryAt ≤ (retryS 70).ns ∧ (retryS 69).ns < retryWork.retryAt :=
  ⟨⟨rfl, rfl, rfl, rfl, rfl, rfl, rfl, rfl, rfl, nofun, by decide +kernel⟩, by decide +kernel⟩
theorem test_spreadRetry : after (exec (.spreadRetry 5) (retryS 70)) (fun t => (t.fabricOut.map (·.body), t.launches.map (fun e => e.2.stage))) = some ([.spReserve (0, 9) 1 2 [0, 1] 0x14000 spreadKernel [] [] 0x77 false], [.held]) ∧
    after (exec (.spreadRetry 5) (retryS 69)) (fun t => t.launches.length) = some 0 := by decide +kernel

/-- The encoder, on words of every family; decodeWord of the word gives the instruction back. -/
theorem test_roundTrip : ∀ x ∈ ([(.s, .add 3 1 2), (.s, .liC16 1 0x7F), (.s, .kinc 5 (.imm 1)), (.v, .vmovC16 3 1), (.m, .mzeroC16 0), (.v, .saddi 512 0 0), (.s, .fenceRel .device)] : List (Stream × Instr)),
    (encode x.2).map (fun p => decodeWord x.1 p.1 p.2) = some (some x.2) := by decide +kernel
theorem witness_EncodingsRoundTrip : (Instr.add 3 1 2).isOf .s = true ∧ (Instr.add 3 1 2).wf .s = true ∧ decodeWord .s 32 0x000BBE00 = some (.fenceRel .device) ∧ (0x000BBE00 : Nat) < 2 ^ 32 := by decide +kernel

/-- Memory holds ADD g3, g1, g2 at 0x10000 (device memory 0), or a V word; the turn of a unit is next. -/
def codeS (s : State) (w : Nat) (t : Turn) : State := { s with jobs := [(1, { Job.zero.mapPage 0 0x10000 0x1D with devSet := [0, 1] })], mem := Mem.writeBytes s.mem 0 (natBytes 4 w), agenda := [[t]] }
noncomputable def addWord : Nat := ((encode (.add 3 1 2)).map Prod.snd).getD 0
def saddiWord : Nat := 0x2000F200
def bytesOf {α : Type} (e : Except α (List Byte)) : Option (List Byte) := match e with
  | .ok b => some b
  | _ => none
noncomputable def addS : State := codeS (b2 1 5 2 7) addWord (.seq 0)
theorem witness_SequencerStep : addS.agenda = [.seq 0] :: [] ∧ ({ addS with agenda := [] } : State).pickSlot 0 = some 17 ∧
    (let u := ({ addS with agenda := [] } : State).begin 0 17; u.fibre.body.refusals = [] ∧ u.fibre.body.ending = false ∧ u.overBudget u.fibre.body = false ∧
      bytesOf (u.fetchWord u.myLaunch.job u.fibre.body.pc) = some (natBytes 4 addWord) ∧ u.fibre.body.blk = some blk0 ∧ 4 ≤ (blk0.fin - u.fibre.body.pc).toNat) ∧
    decodeBytes .s (natBytes 4 addWord) = .instr (.add 3 1 2) 32 ∧ isBlkWord (natBytes 4 addWord) = false := by decide +kernel
theorem test_sequencerStep : after (step addS) (fun t => ((t.cell 0).fibre 17).body.g[(3 : GReg)]) = some 12 := by decide +kernel
def vS : State := codeS (ve 0 1 2 0) saddiWord (.issueV 0)
theorem witness_StreamStep : vS.agenda = [.issueV 0] :: [] ∧ (let u := ({ vS with agenda := [], cur := { cell := 0, slot := 0, stream := .v } } : State).retireDue 0 .v 64
    u.eng.run = some { pc := 0x10000, blk := some blk0, branch := none } ∧ u.engineRuns 0 .v = true ∧ u.eng.wait = none ∧
      bytesOf (u.fetchWord u.myLaunch.job 0x10000) = some (natBytes 4 saddiWord)) ∧ decodeBytes .v (natBytes 4 saddiWord) = .instr (.saddi 512 0 0) 32 ∧ isTok (.saddi 512 0 0) = false := by decide +kernel
theorem test_streamStep : after (step vS) (fun t => (t.cell 0).v.eng.g[(0 : SReg)]) = some 513 := by decide +kernel
theorem witness_EventStep : ({ base with agenda := [[.event .powerStepUp]] } : State).agenda = [.event .powerStepUp] :: [] ∧ (Instr.powerStepUp).layout = none ∧ (Instr.add 3 1 2).layout ≠ none := by decide +kernel
theorem test_eventStep : after (step { base with agenda := [[.event .powerStepUp]], half := true, now := 35000000 }) (fun t => t.half) = some false ∧ step { base with agenda := [[.event (.add 3 1 2)]] } = .fault .badTurn := ⟨by decide +kernel, rfl⟩
theorem witness_StepKeepsMemory : addS.MemWf ∧ (after (step addS) (fun _ => true)) = some true := ⟨by unfold State.MemWf; decide +kernel, by decide +kernel⟩

/-- 05 R73: a halfword that the instruction cache holds keeps its value when memory changes, until the sector is dropped. -/
def cachedCode : State := { (base.fillCode 0 0x10000) with mem := Mem.writeBytes base.mem 0 [1, 2] }
theorem test_codeCache : bytesOf (cachedCode.fetchHalf 1 0x10000) = bytesOf (base.fetchHalf 1 0x10000) ∧
    bytesOf ((cachedCode.dropCode 0 0).fetchHalf 1 0x10000) = some [1, 2] := by decide +kernel

theorem witness_StepKeepsTables : addS.TablesWf :=
  ⟨by decide +kernel, by decide +kernel, by decide +kernel, by decide +kernel, by decide +kernel, by decide +kernel,
   by unfold Cell.TablesWf; decide +kernel, by
    intro e he v hv
    have h : ∀ e ∈ addS.launches, e.2.saved = none := by decide +kernel
    rw [h e he] at hv
    cases hv⟩
theorem witness_SchedulerStepsGoOn : (sched (semWork 5 7) (Mem.writeBytes [] 0x3000 (hb 8 7))).PlainEntry 5 (semWork 5 7) 0 { queue0 4 4 with slot := some (0, 0) } ∧
    (copyS (copyWork (some (prog 4 4)) 4)).PlainEntry 5 (copyWork (some (prog 4 4)) 4) 0 { queue0 4 4 with slot := some (0, 0) } ∧ bAt (copyWork none 4).bytes 0x18 8 ≤ (prog 4 4).written ∧
    (graphS { graphWork with replay := some replay0 }).PlainEntry 5 { graphWork with replay := some replay0 } 0 { queue0 4 4 with slot := some (0, 0) } ∧
    edgesInto replay0.nodes (fun j => replay0.doneNodes.contains j) 0 = gnode0.preds ∧ quietS.mayRetire 0 = true ∧ (spLaunch (.committed 500)).stage = .committed 500 :=
  ⟨witness_Semaphores.1, sched_plain _ _ rfl rfl rfl rfl rfl (by decide +kernel), by decide +kernel, sched_plain _ _ rfl rfl rfl rfl rfl (by decide +kernel), by decide +kernel, by decide +kernel, rfl⟩
theorem witness_TimeGoesOn : ∀ e ∈ base.cells, e.2.acts = [] := by decide +kernel
theorem witness_CountersTested : (after (step vS) (fun _ => true)) = some true := by decide +kernel

end Sys2Proof.Tests
end

section
/-!
PROOFS. The machine that a launch meets: the state after reset (O55); the torus, its nodes and its holds, and messages as
they are reserved, delivered, dropped and taken by their units (O39).
-/

namespace Sys2Proof.Machine

open Sys2Proof

/-! ## The state after reset -/

/-- Before bring-up every cell reads as idle. -/
theorem State.cell_reset (c : Nat) : State.reset.cell c = .idle := rfl

theorem State.memWf_reset : State.reset.MemWf := rfl

/-- Every table is empty, so that each is in order. -/
theorem State.tablesWf_reset : State.reset.TablesWf where
  cells := rfl
  works := rfl
  queues := rfl
  launches := rfl
  sessions := rfl
  authors := rfl
  each := fun _ h => absurd h List.not_mem_nil
  saved := fun _ h => absurd h List.not_mem_nil

/-- A counter of an idle cell is 0. -/
theorem Cell.k_idle (k : KReg) : Cell.idle.k[k] = 0 := by simp [Cell.idle]

/-- Settles O55: memory, tables and queues are empty lists, and every cell reads as `Cell.idle`. -/
theorem resetValues : Obligations.ResetValues := by
  unfold Obligations.ResetValues
  refine ⟨fun _ => rfl, rfl, State.memWf_reset, State.tablesWf_reset, fun c => ?_, rfl, rfl, rfl, rfl, rfl, rfl, rfl, rfl, rfl⟩
  rw [State.cell_reset]
  exact ⟨rfl, rfl, rfl, rfl, rfl, rfl, fun _ => rfl, Cell.k_idle, rfl, rfl⟩

/-! ## The torus: distances (01 R16, R17) -/

/-- The distance on a ring is the shorter way round. -/
theorem ringDist_eq {size a b : Nat} (ha : a < size) (hb : b < size) :
    ringDist size a b = if b ≤ a then min (a - b) (size - (a - b)) else min (b - a) (size - (b - a)) := by
  unfold ringDist
  split
  · next h =>
    have hd : (a + size - b) % size = a - b := by
      rw [show a + size - b = (a - b) + size by omega, Nat.add_mod_right, Nat.mod_eq_of_lt (by omega)]
    simp only [hd]
  · next h =>
    have hd : (a + size - b) % size = size - (b - a) := by
      rw [Nat.mod_eq_of_lt (by omega)]; omega
    simp only [hd]; omega

/-- The place after one on a ring. -/
theorem ringSucc_eq {size a : Nat} (ha : a < size) : (a + 1) % size = if a + 1 = size then 0 else a + 1 := by
  split
  · next h => rw [h, Nat.mod_self]
  · exact Nat.mod_eq_of_lt (by omega)

/-- The place before one on a ring. -/
theorem ringPred_eq {size a : Nat} (ha : a < size) : (a + (size - 1)) % size = if a = 0 then size - 1 else a - 1 := by
  split
  · next h => rw [h, Nat.zero_add, Nat.mod_eq_of_lt (by omega)]
  · rw [show a + (size - 1) = (a - 1) + size by omega, Nat.add_mod_right, Nat.mod_eq_of_lt (by omega)]

/-- A step forward on a ring gains at most 1. -/
theorem ringDist_le_succ {size a b : Nat} (ha : a < size) (hb : b < size) :
    ringDist size a b ≤ ringDist size ((a + 1) % size) b + 1 := by
  rw [ringDist_eq ha hb, ringDist_eq (Nat.mod_lt _ (by omega)) hb, ringSucc_eq ha]
  split <;> split <;> split <;> omega

/-- A step back on a ring gains at most 1. -/
theorem ringDist_le_pred {size a b : Nat} (ha : a < size) (hb : b < size) :
    ringDist size a b ≤ ringDist size ((a + (size - 1)) % size) b + 1 := by
  rw [ringDist_eq ha hb, ringDist_eq (Nat.mod_lt _ (by omega)) hb, ringPred_eq ha]
  split <;> split <;> split <;> omega

/-- Away from the place sought, one of the two steps on a ring comes nearer. -/
theorem ringDist_step_lt {size a b : Nat} (ha : a < size) (hb : b < size) (hne : a ≠ b) :
    ringDist size ((a + 1) % size) b < ringDist size a b ∨
      ringDist size ((a + (size - 1)) % size) b < ringDist size a b := by
  rw [ringDist_eq ha hb, ringDist_eq (Nat.mod_lt _ (by omega)) hb, ringDist_eq (Nat.mod_lt _ (by omega)) hb,
    ringSucc_eq ha, ringPred_eq ha]
  split <;> split <;> split <;> split <;> split <;> omega

/-- The hops of a node given by its column and row. -/
theorem hops_of_coords {x y : Nat} (dst : Nat) (hx : x < Config.cols) :
    hops (x + Config.cols * y) dst =
      ringDist Config.cols x (dst % Config.cols) + ringDist Config.rows y (dst / Config.cols) := by
  have hm : (x + Config.cols * y) % Config.cols = x := by rw [Nat.add_mul_mod_self_left, Nat.mod_eq_of_lt hx]
  have hd : (x + Config.cols * y) / Config.cols = y := by
    rw [Nat.add_mul_div_left _ _ (by omega), Nat.div_eq_of_lt hx, Nat.zero_add]
  rw [hops, hm, hd]

section
variable {n dst : Nat} (hn : n < 768) (hdst : dst < 768)

/-- The column and the row of a node. -/
theorem coords_lt (h : n < 768) : n % Config.cols < Config.cols ∧ n / Config.cols < Config.rows := by
  simp only [Config.cols, Config.rows]; omega

include hn hdst

/-- No port brings a flit nearer by more than one hop. -/
theorem hops_le_neighbour {p : Nat} (hp : p < 4) : hops n dst ≤ hops (neighbour n p) dst + 1 := by
  obtain ⟨hx, hy⟩ := coords_lt hn
  obtain ⟨hdx, hdy⟩ := coords_lt hdst
  have east := ringDist_le_succ hx hdx
  have west := ringDist_le_pred hx hdx
  have south := ringDist_le_succ hy hdy
  have north := ringDist_le_pred hy hdy
  have hcols : 0 < Config.cols := by decide
  rw [hops]
  match p, hp with
  | 0, _ => rw [neighbour, hops_of_coords dst (Nat.mod_lt _ hcols)]; omega
  | 1, _ => rw [neighbour, hops_of_coords dst (Nat.mod_lt _ hcols)]; omega
  | 2, _ => rw [neighbour, hops_of_coords dst hx]; omega
  | 3, _ => rw [neighbour, hops_of_coords dst hx] <;> omega

/-- A productive port brings a flit nearer by one hop. -/
theorem hops_of_productive {p : Nat} (hp : p < 4) (h : productive n dst p = true) :
    hops (neighbour n p) dst + 1 = hops n dst := by
  have hlt : hops (neighbour n p) dst < hops n dst := of_decide_eq_true h
  have := hops_le_neighbour hn hdst hp
  omega

/-- Away from its destination a flit has a productive port. -/
theorem exists_productive (hne : n ≠ dst) : ∃ p, p < 4 ∧ productive n dst p = true := by
  obtain ⟨hx, hy⟩ := coords_lt hn
  obtain ⟨hdx, hdy⟩ := coords_lt hdst
  have hcols : 0 < Config.cols := by decide
  have hcoord : n % Config.cols ≠ dst % Config.cols ∨ n / Config.cols ≠ dst / Config.cols := by
    simp only [Config.cols]; omega
  simp only [productive, decide_eq_true_eq]
  rcases hcoord with hxne | hyne
  · rcases ringDist_step_lt hx hdx hxne with h | h
    · exact ⟨0, by decide, by rw [neighbour, hops_of_coords dst (Nat.mod_lt _ hcols), hops]; omega⟩
    · exact ⟨1, by decide, by rw [neighbour, hops_of_coords dst (Nat.mod_lt _ hcols), hops]; omega⟩
  · rcases ringDist_step_lt hy hdy hyne with h | h
    · exact ⟨2, by decide, by rw [neighbour, hops_of_coords dst hx, hops]; omega⟩
    · exact ⟨3, by decide, by rw [neighbour, hops_of_coords dst hx, hops] <;> omega⟩

end

/-! ## The torus: one node in one NCLK (01 R17) -/

theorem mem_ports {p : Nat} : p ∈ upFrom 4 0 ↔ p < 4 := by
  simp only [upFrom, List.mem_cons, List.not_mem_nil, or_false]; omega

/-- The links of different output ports end at different input ports. -/
theorem facing_inj {p q : Nat} (hp : p < 4) (hq : q < 4) (h : facing p = facing q) : p = q := by
  have all : ∀ p < 4, ∀ q < 4, facing p = facing q → p = q := by decide
  exact all p hp q hq h

/-- A port is picked from the list. -/
theorem pickPort_mem (draw : Nat × Nat) {l : List Nat} (h : l ≠ []) : ∃ p ∈ l, pickPort draw l = some p := by
  match l, h with
  | [p], _ => exact ⟨p, List.mem_singleton_self p, rfl⟩
  | p :: q :: r, _ =>
    refine ⟨_, ?_, rfl⟩
    rcases hi : (q :: r)[Config.pick draw.1 16 draw.2 % ((q :: r).length + 1)]? with _ | x
    · exact List.mem_cons_self
    · exact List.mem_cons_of_mem _ (List.mem_of_getElem? hi)

theorem NodeOut.mem_free {o : NodeOut} {p : Nat} : p ∈ o.free ↔ p < 4 ∧ p ∉ o.used := by
  simp [NodeOut.free, mem_ports]

/-- Fewer than four ports in use leave one free. -/
theorem NodeOut.free_ne_nil {o : NodeOut} (h : o.used.length < 4) : o.free ≠ [] := by
  intro hnil
  have hsub : upFrom 4 0 ⊆ o.used := fun p hp => Decidable.byContradiction fun hu => by
    have hfree : p ∈ o.free := NodeOut.mem_free.2 ⟨mem_ports.1 hp, hu⟩
    rw [hnil] at hfree
    exact List.not_mem_nil hfree
  have hlen := List.Nodup.length_le_of_subset (by decide) hsub
  have h4 : (upFrom 4 0).length = 4 := rfl
  omega

/-- With a free port left a flit takes one of the free ports, a productive one where there is such. -/
theorem NodeOut.port_eq {o : NodeOut} (n dst : Nat) (draw : Nat × Nat) (h : o.free ≠ []) :
    ∃ p ∈ o.free, o.port n dst draw = some p ∧
      ((∃ q ∈ o.free, productive n dst q = true) → productive n dst p = true) := by
  unfold NodeOut.port
  by_cases hg : o.free.filter (productive n dst) = []
  · obtain ⟨p, hp, hpick⟩ := pickPort_mem draw h
    refine ⟨p, hp, by simpa [hg] using hpick, fun ⟨q, hq, hprod⟩ => ?_⟩
    have hmem := List.mem_filter.2 ⟨hq, hprod⟩
    rw [hg] at hmem
    exact absurd hmem List.not_mem_nil
  · obtain ⟨p, hp, hpick⟩ := pickPort_mem draw hg
    obtain ⟨hfree, hprod⟩ := List.mem_filter.1 hp
    refine ⟨p, hfree, ?_, fun _ => hprod⟩
    simpa only [List.isEmpty_iff, if_neg hg] using hpick

/-- What a node has assigned after the flits of a list: at most two are ejected, all of them here, each other one has a port
of its own. -/
structure NodeOut.Fair (n t : Nat) (fs : List Flit) (o : NodeOut) : Prop where
  two : o.ejected.length ≤ 2
  home : ∀ f ∈ o.ejected, f ∈ fs ∧ f.dst = n
  count : o.ejected.length + o.moved.length = fs.length
  moved : ∀ g ∈ o.moved, ∃ f ∈ fs, ∃ p, p < 4 ∧ g = f.leave n p t
  inputs : o.moved.map (·.port) = (o.used.map facing).reverse
  nodup : o.used.Nodup
  ports : ∀ p ∈ o.used, p < 4

/-- A node that has assigned nothing yet. -/
def NodeOut.start : NodeOut := { used := [], moved := [], ejected := [], deflected := 0 }

/-- A flit at its destination is ejected while fewer than two are. -/
theorem NodeOut.assign_eject {n t : Nat} {draw : Nat × Nat} {o : NodeOut} {f : Flit}
    (h : f.dst = n ∧ o.ejected.length < 2) : NodeOut.assign n t draw o f = { o with ejected := o.ejected ++ [f] } := by
  rw [NodeOut.assign, if_pos h]

/-- A flit that is not ejected leaves by a free port, a productive one where there is such. -/
theorem NodeOut.assign_leave {n t : Nat} {draw : Nat × Nat} {o : NodeOut} {f : Flit}
    (h : ¬(f.dst = n ∧ o.ejected.length < 2)) (hfree : o.free ≠ []) :
    ∃ p ∈ o.free, ((∃ q ∈ o.free, productive n f.dst q = true) → productive n f.dst p = true) ∧
      NodeOut.assign n t draw o f =
        { o with
          used := p :: o.used
          moved := o.moved ++ [f.leave n p t]
          deflected := o.deflected + b2n (!productive n f.dst p) } := by
  obtain ⟨p, hp, hport, hprod⟩ := NodeOut.port_eq n f.dst (draw.1, draw.2 + f.port) hfree
  exact ⟨p, hp, hprod, by rw [NodeOut.assign, if_neg h, hport]⟩

namespace NodeOut.Fair
variable {n t : Nat} {fs : List Flit} {o : NodeOut} (h : NodeOut.Fair n t fs o)
include h

theorem used_length : o.used.length = o.moved.length := by
  simpa using (congrArg List.length h.inputs).symm

/-- Flits that have left have ports of their own. -/
theorem nodup_moved : (o.moved.map (·.port)).Nodup := by
  rw [h.inputs, List.Nodup, List.pairwise_reverse, List.pairwise_map]
  exact List.Pairwise.imp_of_mem
    (fun hp hq hne heq => hne (facing_inj (h.ports _ hp) (h.ports _ hq) heq.symm)) h.nodup

/-- Assigning one more flit, of at most four, keeps the assignment fair. -/
theorem assign (draw : Nat × Nat) (f : Flit) (hlen : fs.length < 4) :
    NodeOut.Fair n t (fs ++ [f]) (NodeOut.assign n t draw o f) := by
  have home : ∀ g ∈ o.ejected, g ∈ fs ++ [f] ∧ g.dst = n := fun g hg =>
    ⟨List.mem_append_left _ (h.home g hg).1, (h.home g hg).2⟩
  have moved : ∀ g ∈ o.moved, ∃ f' ∈ fs ++ [f], ∃ p, p < 4 ∧ g = f'.leave n p t := fun g hg => by
    obtain ⟨f', hf', hp⟩ := h.moved g hg
    exact ⟨f', List.mem_append_left _ hf', hp⟩
  have hself : f ∈ fs ++ [f] := List.mem_append_right _ (List.mem_singleton_self f)
  have count := h.count
  by_cases he : f.dst = n ∧ o.ejected.length < 2
  · rw [NodeOut.assign_eject he]
    exact
      { two := by simp only [List.length_append, List.length_singleton]; omega
        home := fun g hg => by
          rcases List.mem_append.1 hg with hg | hg
          · exact home g hg
          · rw [List.mem_singleton.1 hg]; exact ⟨hself, he.1⟩
        count := by simp only [List.length_append, List.length_singleton]; omega
        moved := moved
        inputs := h.inputs
        nodup := h.nodup
        ports := h.ports }
  · have hused := h.used_length
    obtain ⟨p, hp, -, heq⟩ := NodeOut.assign_leave (t := t) (draw := draw) he (NodeOut.free_ne_nil (o := o) (by omega))
    obtain ⟨hp4, hpu⟩ := NodeOut.mem_free.1 hp
    rw [heq]
    exact
      { two := h.two
        home := home
        count := by simp only [List.length_append, List.length_singleton]; omega
        moved := fun g hg => by
          rcases List.mem_append.1 hg with hg | hg
          · exact moved g hg
          · exact ⟨f, hself, p, hp4, List.mem_singleton.1 hg⟩
        inputs := by simp [h.inputs, Flit.leave]
        nodup := List.nodup_cons.2 ⟨hpu, h.nodup⟩
        ports := List.forall_mem_cons.2 ⟨hp4, h.ports⟩ }

end NodeOut.Fair

/-- A node that has assigned nothing yet is fair to no flits. -/
theorem NodeOut.fair_start (n t : Nat) : NodeOut.Fair n t [] NodeOut.start where
  two := Nat.zero_le 2
  home := fun _ h => absurd h List.not_mem_nil
  count := rfl
  moved := fun _ h => absurd h List.not_mem_nil
  inputs := rfl
  nodup := List.nodup_nil
  ports := fun _ h => absurd h List.not_mem_nil

/-- Flits that follow those assigned, all of them at most four, are assigned fairly too. -/
theorem NodeOut.Fair.foldl {n t : Nat} (draw : Nat × Nat) (fs : List Flit) {gs : List Flit} {o : NodeOut}
    (h : NodeOut.Fair n t gs o) (hlen : gs.length + fs.length ≤ 4) :
    NodeOut.Fair n t (gs ++ fs) (fs.foldl (NodeOut.assign n t draw) o) := by
  induction fs generalizing gs o with
  | nil => rwa [List.append_nil]
  | cons f fs ih =>
    rw [List.length_cons] at hlen
    have hnext := ih (h.assign draw f (by omega)) (by rw [List.length_append, List.length_singleton]; omega)
    rwa [List.append_assoc, List.singleton_append] at hnext

/-- The flits of a node with no more of them than inputs are assigned fairly. -/
theorem NodeOut.fair_foldl (n t : Nat) (draw : Nat × Nat) (fs : List Flit) (hlen : fs.length ≤ 4) :
    NodeOut.Fair n t fs (fs.foldl (NodeOut.assign n t draw) NodeOut.start) :=
  (NodeOut.fair_start n t).foldl draw fs (by rw [List.length_nil]; omega)

/-- Assigning more flits leaves those assigned as they are. -/
theorem NodeOut.foldl_assign_mono (n t : Nat) (draw : Nat × Nat) (fs : List Flit) (o : NodeOut) :
    o.ejected ⊆ (fs.foldl (NodeOut.assign n t draw) o).ejected ∧
      o.moved ⊆ (fs.foldl (NodeOut.assign n t draw) o).moved := by
  induction fs generalizing o with
  | nil => exact ⟨List.Subset.refl _, List.Subset.refl _⟩
  | cons f fs ih =>
    obtain ⟨he, hm⟩ := ih (NodeOut.assign n t draw o f)
    have hstep : o.ejected ⊆ (NodeOut.assign n t draw o f).ejected ∧ o.moved ⊆ (NodeOut.assign n t draw o f).moved := by
      unfold NodeOut.assign
      split
      · exact ⟨List.subset_append_left _ _, List.Subset.refl _⟩
      · split
        · exact ⟨List.Subset.refl _, List.subset_append_left _ _⟩
        · exact ⟨List.Subset.refl _, List.Subset.refl _⟩
    exact ⟨List.Subset.trans hstep.1 he, List.Subset.trans hstep.2 hm⟩

/-- The flit that a node takes first is ejected at its destination. -/
theorem NodeOut.first_ejected (n t : Nat) (draw : Nat × Nat) (f : Flit) (fs : List Flit) (h : f.dst = n) :
    f ∈ ((f :: fs).foldl (NodeOut.assign n t draw) NodeOut.start).ejected := by
  refine (NodeOut.foldl_assign_mono n t draw fs _).1 ?_
  rw [NodeOut.assign_eject ⟨h, by decide⟩]
  exact List.mem_singleton_self f

/-- The flit that a node takes first leaves, away from its destination, by a port that brings it one hop nearer. -/
theorem NodeOut.first_nearer (n t : Nat) (draw : Nat × Nat) (f : Flit) (fs : List Flit) (hn : n < 768)
    (hdst : f.dst < 768) (hne : f.dst ≠ n) :
    ∃ p, p < 4 ∧ hops (neighbour n p) f.dst + 1 = hops n f.dst ∧
      f.leave n p t ∈ ((f :: fs).foldl (NodeOut.assign n t draw) NodeOut.start).moved := by
  have hall : ∀ q, q < 4 → q ∈ NodeOut.start.free := fun q hq => NodeOut.mem_free.2 ⟨hq, List.not_mem_nil⟩
  obtain ⟨q, hq, hprod⟩ := exists_productive hn hdst hne.symm
  obtain ⟨p, hp, hbest, heq⟩ := NodeOut.assign_leave (n := n) (t := t) (draw := draw) (o := NodeOut.start) (f := f)
    (fun h => hne h.1) (List.ne_nil_of_mem (hall q hq))
  have hp4 : p < 4 := (NodeOut.mem_free.1 hp).1
  refine ⟨p, hp4, hops_of_productive hn hdst hp4 (hbest ⟨q, hall q hq, hprod⟩), ?_⟩
  refine (NodeOut.foldl_assign_mono n t draw fs _).2 ?_
  rw [heq]
  exact List.mem_singleton_self _

/-- The nodes of the torus do in one NCLK what 01 R17 says. -/
theorem torusNodes : Sys2Proof.Says.TorusNodes := by
  intro n t draw fs hn hlen hdst
  have fair := NodeOut.fair_foldl n t draw fs hlen
  refine ⟨fair.two, fair.home, fair.count, fair.moved, fair.nodup_moved, ?_⟩
  rintro f rest rfl
  exact ⟨NodeOut.first_ejected n t draw f rest,
    NodeOut.first_nearer n t draw f rest hn (hdst f List.mem_cons_self)⟩

/-! ## Holds (01 R17) -/

/-- Some neighbour of the node asserts a hold. -/
theorem Torus.held_iff {x : Torus} {n : Nat} :
    x.held n = true ↔ ∃ p, p < 4 ∧ neighbour n p ∈ x.holds := by
  simp [Torus.held, mem_ports]

/-- More holds keep a node under a hold. -/
theorem Torus.held_mono {x y : Torus} {n : Nat} (h : ∀ k ∈ x.holds, k ∈ y.holds) (hx : x.held n = true) :
    y.held n = true := by
  obtain ⟨p, hp, hk⟩ := Torus.held_iff.1 hx
  exact Torus.held_iff.2 ⟨p, hp, h _ hk⟩

/-- The nodes that assert a hold once one more that waits has been looked at. -/
theorem Torus.mem_assertHold {now k : Nat} {x : Torus} {w : Nat × Nat} :
    k ∈ (Torus.assertHold now x w).holds ↔ (k = w.1 ∧ w.2 + 256 ≤ now ∧ x.held w.1 = false) ∨ k ∈ x.holds := by
  unfold Torus.assertHold
  split
  · next h => simp [mem_setAdd, h]
  · next h => simp [h]

/-- What holds a torus shows once the waiting injections of a list have been looked at, each in its turn. -/
theorem Torus.foldl_assertHold (now : Nat) (l : List (Nat × Nat)) (x : Torus) :
    let y := l.foldl (Torus.assertHold now) x
    y = { x with holds := y.holds } ∧ (∀ k ∈ x.holds, k ∈ y.holds) ∧
      (∀ k ∈ y.holds, k ∈ x.holds ∨ ((∃ t, (k, t) ∈ l ∧ t + 256 ≤ now) ∧ x.held k = false)) ∧
      ∀ k t, (k, t) ∈ l → t + 256 ≤ now → k ∈ y.holds ∨ y.held k = true := by
  induction l generalizing x with
  | nil => exact ⟨rfl, fun _ h => h, fun _ h => .inl h, fun _ _ h => absurd h List.not_mem_nil⟩
  | cons w l ih =>
    obtain ⟨heq, hkept, hwhy, hall⟩ := ih (Torus.assertHold now x w)
    have hgrow : ∀ k ∈ x.holds, k ∈ (Torus.assertHold now x w).holds := fun k hk => Torus.mem_assertHold.2 (.inr hk)
    have hrest : Torus.assertHold now x w = { x with holds := (Torus.assertHold now x w).holds } := by
      unfold Torus.assertHold; split <;> rfl
    refine ⟨?_, fun k hk => hkept k (hgrow k hk), fun k hk => ?_, fun k t hk ht => ?_⟩
    · rw [List.foldl_cons]; exact heq.trans (by rw [hrest])
    · rcases hwhy k hk with hk | ⟨⟨t, hmem, ht⟩, hfree⟩
      · rcases Torus.mem_assertHold.1 hk with ⟨rfl, ht, hfree⟩ | hk
        · exact .inr ⟨⟨w.2, List.mem_cons_self, ht⟩, hfree⟩
        · exact .inl hk
      · refine .inr ⟨⟨t, List.mem_cons_of_mem _ hmem, ht⟩, ?_⟩
        exact Bool.eq_false_iff.2 fun hx => Bool.eq_false_iff.1 hfree (Torus.held_mono hgrow hx)
    · rcases List.mem_cons.1 hk with rfl | hk
      · by_cases hx : x.held k = true
        · exact .inr (Torus.held_mono (fun j hj => hkept j (hgrow j hj)) hx)
        · exact .inl (hkept k (Torus.mem_assertHold.2 (.inl ⟨rfl, ht, by simpa using hx⟩)))
      · exact hall k t hk ht

/-! ## Messages in the network -/

/-- A message stands in the network between others, with a number of its own. -/
structure State.InNet (s : State) (m : Msg) (before after : List Msg) : Prop where
  net : s.net = before ++ m :: after
  fresh_before : ∀ x ∈ before, x.id ≠ m.id
  fresh_after : ∀ x ∈ after, x.id ≠ m.id

namespace State.InNet
variable {s : State} {m : Msg} {before after : List Msg} (h : s.InNet m before after)
include h

theorem find : s.net.find? (fun x => x.id = m.id) = some m := by
  rw [h.net, List.find?_append, List.find?_eq_none.2 (by simpa using h.fresh_before)]
  simp

theorem earlier : s.net.takeWhile (fun x => x.id != m.id) = before := by
  rw [h.net, List.takeWhile_append_of_pos (by simpa using h.fresh_before)]
  simp

theorem dropMsg_eq : s.dropMsg m.id = { s with net := before ++ after } := by
  have hb : before.filter (fun x => x.id != m.id) = before := List.filter_eq_self.2 (by simpa using h.fresh_before)
  have ha : after.filter (fun x => x.id != m.id) = after := List.filter_eq_self.2 (by simpa using h.fresh_after)
  simp [State.dropMsg, h.net, hb, ha]

theorem setMsg_eq (f : Msg → Msg) : s.setMsg m.id f = { s with net := before ++ f m :: after } := by
  have keep : ∀ l : List Msg, (∀ x ∈ l, x.id ≠ m.id) → l.map (fun x => if x.id = m.id then f x else x) = l :=
    fun l hl => List.map_congr_left (fun x hx => if_neg (hl x hx)) |>.trans (List.map_id l)
  simp [State.setMsg, h.net, keep before h.fresh_before, keep after h.fresh_after]

/-- A message is deliverable when what comes before it has landed. -/
theorem deliverable_some (hb : ∀ x ∈ before, x.before m = true → x.stage = .landed) :
    s.deliverable m.id = some m := by
  rw [State.deliverable, h.find]
  simp only [h.earlier]
  rw [if_neg]
  simpa [Msg.landed] using hb

/-- A message is not deliverable while one that comes before it has not landed. -/
theorem deliverable_none (hb : ∃ x ∈ before, x.before m = true ∧ x.stage ≠ .landed) :
    s.deliverable m.id = none := by
  rw [State.deliverable, h.find]
  simp only [h.earlier]
  rw [if_pos]
  simpa [Msg.landed] using hb

end State.InNet

section
variable {s : State} {m : Msg} {before after : List Msg}

/-! ### Reservation, delivery and drops (01 R19-R22) -/

theorem exec_reassemblyReserve (i : Nat) (s : State) : exec (.reassemblyReserve i) s = execReassemblyReserve i s := rfl
theorem exec_messageDeliver (i : Nat) (s : State) : exec (.messageDeliver i) s = execMessageDeliver i s := rfl
theorem exec_reassemblyDrop (i : Nat) (s : State) : exec (.reassemblyDrop i) s = execReassemblyDrop i s := rfl
theorem exec_injectionHold (s : State) : exec .injectionHold s = execInjectionHold s := rfl

/-- The network with a message put back as it is. -/
theorem State.InNet.put_self (h : s.InNet m before after) : { s with net := before ++ m :: after } = s := by
  rw [← h.net]

theorem State.InNet.reserve (h : s.InNet m before after) (hm : m.stage = .asked) :
    exec (.reassemblyReserve m.id) s =
      .next { s with net := before ++ { m with stage := .granting, since := 2 * s.now } :: after } := by
  rw [exec_reassemblyReserve, execReassemblyReserve, h.setMsg_eq, if_pos hm]

theorem State.InNet.reserve_idle (h : s.InNet m before after) (hm : m.stage ≠ .asked) :
    exec (.reassemblyReserve m.id) s = .next s := by
  rw [exec_reassemblyReserve, execReassemblyReserve, h.setMsg_eq, if_neg hm, h.put_self]

theorem State.InNet.deliver (h : s.InNet m before after) (hm : m.arrived = true)
    (hb : ∀ x ∈ before, x.before m = true → x.stage = .landed) (hbody : ∀ n, m.body ≠ .dropReport n) :
    exec (.messageDeliver m.id) s = .next { s with net := before ++ { m with stage := .landed } :: after } := by
  rw [exec_messageDeliver, execMessageDeliver, h.deliverable_some hb]
  simp only [hm, Bool.not_true, Bool.false_eq_true, if_false, h.setMsg_eq]

theorem State.InNet.deliver_report (h : s.InNet m before after) (hm : m.arrived = true)
    (hb : ∀ x ∈ before, x.before m = true → x.stage = .landed) {n : Node} (hbody : m.body = .dropReport n) :
    exec (.messageDeliver m.id) s =
      .next { s with net := before ++ after, dropReports := s.dropReports ++ [n] } := by
  rw [exec_messageDeliver, execMessageDeliver, h.deliverable_some hb]
  simp [hm, h.dropMsg_eq, hbody]

theorem State.InNet.deliver_idle (h : s.InNet m before after)
    (hm : m.arrived = false ∨ ∃ x ∈ before, x.before m = true ∧ x.stage ≠ .landed) :
    exec (.messageDeliver m.id) s = .next s := by
  rw [exec_messageDeliver, execMessageDeliver]
  by_cases hb : ∃ x ∈ before, x.before m = true ∧ x.stage ≠ .landed
  · rw [h.deliverable_none hb]
  · rw [h.deliverable_some (by simpa using hb)]
    simp [hm.resolve_right hb]

/-- Which messages have space reserved for a part that has not arrived whole. -/
theorem Msg.partial?_iff {m : Msg} :
    m.partial? = true ↔ m.stage = .granting ∨ m.stage = .granted ∨ m.stage = .opened ∧ m.partFlits ≠ 1 := by
  simp [Msg.partial?, or_assoc]

theorem State.InNet.drop (h : s.InNet m before after) (hp : m.partial? = true) (hf : s.senderFenced m.src = true)
    (ht : m.since + 65536 ≤ 2 * s.now) :
    exec (.reassemblyDrop m.id) s =
      .next ((({ s with
          net := before ++ after
          torus := { s.torus with flits := s.torus.flits.filter (fun f => f.msg != m.id) } } : State).countDie
        m.dst.die 11 1).send m.dst .xdie .control (.dropReport m.src)) := by
  have hdrop := h.dropMsg_eq
  rw [exec_reassemblyDrop, execReassemblyDrop, h.find]
  simp only [hp, hf, ht, and_self, if_true]
  simp only [State.dropMsg, State.mk.injEq] at hdrop ⊢
  simp [hdrop]

theorem State.InNet.drop_idle (h : s.InNet m before after)
    (hn : ¬m.partial? = true ∨ s.senderFenced m.src = false ∨ 2 * s.now < m.since + 65536) :
    exec (.reassemblyDrop m.id) s = .next s := by
  rw [exec_reassemblyDrop, execReassemblyDrop, h.find]
  refine if_neg fun ⟨hp, hf, ht⟩ => ?_
  rcases hn with hn | hn | hn
  · exact hn hp
  · simp [hn] at hf
  · omega

end

/-- The network reserves, delivers, holds and drops as 01 R16-R22 say. -/
theorem networkSteps : Sys2Proof.Says.NetworkSteps := by
  refine ⟨fun s m before after hnet hids => ?_, fun s => ?_⟩
  · have h : s.InNet m before after :=
      ⟨hnet, fun x hx => hids x (List.mem_append_left _ hx), fun x hx => hids x (List.mem_append_right _ hx)⟩
    refine ⟨h.reserve, h.reserve_idle,
      fun hm hb => ⟨h.deliver hm hb, fun n => h.deliver_report hm hb⟩, h.deliver_idle, ?_⟩
    simp only [← Msg.partial?_iff]
    exact ⟨fun hp hf ht => ⟨_, h.drop hp hf ht, rfl, rfl, rfl, rfl, rfl, rfl, rfl⟩, h.drop_idle⟩
  · obtain ⟨heq, hkept, hwhy, hall⟩ := Torus.foldl_assertHold (2 * s.now) s.torus.waits s.torus
    refine ⟨_, rfl, congrArg (fun x => { s with torus := x }) heq, ?_⟩
    simp only [List.contains_iff_mem, ← Torus.held_iff, Bool.not_eq_true]
    exact ⟨hwhy, hkept, fun n ⟨t, hmem, ht⟩ => hall n t hmem ht⟩

/-! ## Messages that have landed, at their units -/

/-- A message that has landed is in the network. -/
theorem State.Lands.inNet {s : State} {m : Msg} {before after : List Msg} (h : s.Lands m before after) :
    s.InNet m before after := by
  obtain ⟨hnet, -, hb, ha⟩ := h
  exact ⟨hnet, fun x hx => (hb x hx).1, ha⟩

/-- A message that has landed as the next of its order may be taken. -/
theorem State.Lands.landed_eq {s : State} {m : Msg} {before after : List Msg} (h : s.Lands m before after) :
    s.landed m.id = some m := by
  have ⟨_, hst, hb, _⟩ := h
  have hfirst : ∀ x ∈ before, x.before m = false := fun x hx => (hb x hx).2
  rw [State.landed, h.inNet.deliverable_some fun x hx hbm => absurd hbm (by simp [hfirst x hx])]
  simp only [h.inNet.earlier]
  rw [if_pos]
  have hnone : (before.any fun x => x.before m && !x.body.mayWait) = false := by
    simpa using fun x hx hbm => absurd hbm (by simp [hfirst x hx])
  simp [Msg.landed, hst, hnone]

/-- An answer to a fibre of this device is a message of class RESPONSE to its cell. -/
theorem State.respond_here {s : State} {w : Asker} (h : w.dev = s.device) (src : Node) (b : MsgBody) :
    s.respond src w b = s.send src (.cell w.cell) .response b := if_pos h

/-- A cell that takes a message and changes: the message is gone from the network, and that cell alone differs. -/
theorem State.InNet.takes {s : State} {m : Msg} {before after : List Msg} (h : s.InNet m before after) (c : Nat)
    (f : Cell → Cell) :
    let t := (s.dropMsg m.id).updCell c f
    t = { s with net := before ++ after, cells := t.cells } ∧ (∀ d, d ≠ c → t.cell d = s.cell d) ∧
      t.cell c = f (s.cell c) := by
  rw [h.dropMsg_eq]
  exact ⟨rfl, fun d hd => State.cell_updCell_ne _ f hd, State.cell_updCell_same _ c f⟩

/-- As `takes`, with an answer to a fibre of this device. -/
theorem State.InNet.answers {s : State} {m : Msg} {before after : List Msg} (h : s.InNet m before after) (c : Nat)
    (f : Cell → Cell) {w : Asker} (hw : w.dev = s.device) (b : MsgBody) :
    let t := ((s.dropMsg m.id).updCell c f).respond (.cell c) w b
    t = { s with
          net := before ++ after ++ [s.sent (.cell c) (.cell w.cell) .response b], nextId := s.nextId + 1,
          cells := t.cells } ∧
      (∀ d, d ≠ c → t.cell d = s.cell d) ∧ t.cell c = f (s.cell c) := by
  intro t
  have ht : t = ((s.dropMsg m.id).updCell c f).send (.cell c) (.cell w.cell) .response b :=
    State.respond_here (s := (s.dropMsg m.id).updCell c f) hw _ _
  obtain ⟨-, hne, hsame⟩ := h.takes c f
  rw [ht]
  refine ⟨?_, hne, hsame⟩
  rw [h.dropMsg_eq]
  rfl

/-- The fibre found in a slot. -/
theorem Cell.fibre_of_find {c : Cell} {n : Nat} {f : Fibre} (h : c.fibres.find n = some f) : c.fibre n = f := by
  rw [Cell.fibre, h, Option.getD_some]

section
variable {s : State} {m : Msg} {before after : List Msg} (h : s.Lands m before after)

/-! ### SPAWN (04 R69) -/

theorem exec_spawnRecordArrive (i : Nat) (s : State) : exec (.spawnRecordArrive i) s = execSpawnRecordArrive i s := rfl
theorem exec_spawnAnswerArrive (i : Nat) (s : State) : exec (.spawnAnswerArrive i) s = execSpawnAnswerArrive i s := rfl

include h

theorem State.Lands.spawnRecord_pushed {w : Asker} {x : TaskRec} {c : Nat} (hb : m.body = .spawn w x)
    (hd : m.dst = .cell c) (hpop : s.canPop c = false) (hroom : (s.cell c).deque.length < 64) :
    exec (.spawnRecordArrive m.id) s =
      .next (((s.dropMsg m.id).updCell c (fun y => y.pushTask x s.now)).respond (.cell c) w (.spawnAns w true)) := by
  rw [exec_spawnRecordArrive, execSpawnRecordArrive, h.landed_eq]
  simp [hb, hd, hpop, hroom]

theorem State.Lands.spawnRecord_refused {w : Asker} {x : TaskRec} {c : Nat} (hb : m.body = .spawn w x)
    (hd : m.dst = .cell c) (hpop : s.canPop c = false) (hfull : 64 ≤ (s.cell c).deque.length) :
    exec (.spawnRecordArrive m.id) s =
      .next (((s.dropMsg m.id).updCell c (fun y => y.count 18 1)).respond (.cell c) w (.spawnAns w false)) := by
  rw [exec_spawnRecordArrive, execSpawnRecordArrive, h.landed_eq]
  simp [hb, hd, hpop, Nat.not_lt.2 hfull, State.count]

variable {w : Asker} {f : Fibre} (hf : (s.cell w.cell).fibres.find w.slot = some f) (hid : f.body.fid = w.fid)
include hf hid

theorem State.Lands.spawnAnswer_goesOn {a : Word} {y : TaskRec} {len since : Nat} (hb : m.body = .spawnAns w true)
    (hst : f.status = .parked (.spawn w.id a y len) since) :
    exec (.spawnAnswerArrive m.id) s =
      .next ((s.dropMsg m.id).updCell w.cell (fun c => c.setFibre w.slot (f.wake len))) := by
  rw [exec_spawnAnswerArrive, execSpawnAnswerArrive, h.landed_eq]
  simp [hb, Cell.fibre_of_find hf, hst, Fibre.has, hid]

theorem State.Lands.spawnAnswer_inline {a : Word} {y : TaskRec} {len since : Nat} (hb : m.body = .spawnAns w false)
    (hst : f.status = .parked (.spawn w.id a y len) since) :
    exec (.spawnAnswerArrive m.id) s =
      .next ((s.dropMsg m.id).updCell w.cell
        (fun c => (c.count 19 1).setFibre w.slot (f.enterInline y (s.now + 3)))) := by
  rw [exec_spawnAnswerArrive, execSpawnAnswerArrive, h.landed_eq]
  simp [hb, Cell.fibre_of_find hf, hst, Fibre.has, hid, State.count]

end

/-- SPAWN's messages do at their cells what 04 R69 says. -/
theorem spawnMessages : Sys2Proof.Says.SpawnMessages := by
  intro s m before after w x c h
  refine ⟨fun hb hd hw hpop => ⟨fun hroom => ?_, fun hfull => ?_⟩, fun f a y len since ok hb hf hst hid => ?_⟩
  · exact ⟨_, h.spawnRecord_pushed hb hd hpop hroom, h.inNet.answers c _ hw _⟩
  · exact ⟨_, h.spawnRecord_refused hb hd hpop hfull, h.inNet.answers c _ hw _⟩
  · cases ok with
    | true =>
      obtain ⟨ht, hne, hsame⟩ := h.inNet.takes w.cell (fun c => c.setFibre w.slot (f.wake len))
      exact ⟨_, h.spawnAnswer_goesOn hf hid hb hst, ht, hne, fun _ => hsame, nofun⟩
    | false =>
      obtain ⟨ht, hne, hsame⟩ := h.inNet.takes w.cell
        (fun c => (c.count 19 1).setFibre w.slot (f.enterInline y (s.now + 3)))
      exact ⟨_, h.spawnAnswer_inline hf hid hb hst, ht, hne, nofun, fun _ => hsame⟩

/-! ### Active messages (12 R247-R251) -/

/-- Invalidating L1s keeps the fibres of every cell. -/
theorem State.fibres_invalidateL1 (s : State) (cells : List Nat) (want : Nat → Bool) (d : Nat) :
    ((s.invalidateL1 cells want).cell d).fibres = (s.cell d).fibres := by
  unfold State.invalidateL1
  induction cells generalizing s with
  | nil => rfl
  | cons c cells ih =>
    rw [List.foldl_cons, ih]
    by_cases hd : d = c
    · subst hd; rw [State.cell_updCell_same]
    · rw [State.cell_updCell_ne _ _ hd]

/-- An acquire keeps the fibres of every cell. -/
theorem State.fibres_acqL1 (s : State) (c : Nat) (sc : Scope) (d : Nat) :
    ((s.acqL1 c sc).cell d).fibres = (s.cell d).fibres := by
  unfold State.acqL1
  split
  · exact s.fibres_invalidateL1 _ _ d
  · rfl

/-- Invalidating L1s neither reads nor changes the network. -/
theorem State.invalidateL1_setNet (s : State) (n : List Msg) (cells : List Nat) (want : Nat → Bool) :
    ({ s with net := n } : State).invalidateL1 cells want = { s.invalidateL1 cells want with net := n } := by
  unfold State.invalidateL1
  induction cells generalizing s with
  | nil => rfl
  | cons c cells ih => rw [List.foldl_cons, List.foldl_cons, ← ih]; rfl

/-- An acquire neither reads nor changes the network. -/
theorem State.acqL1_setNet (s : State) (n : List Msg) (c : Nat) (sc : Scope) :
    ({ s with net := n } : State).acqL1 c sc = { s.acqL1 c sc with net := n } := by
  have hscope : ({ s with net := n } : State).l1Scope c sc = s.l1Scope c sc := rfl
  have hcells : ({ s with net := n } : State).l1Cells c = s.l1Cells c := rfl
  unfold State.acqL1
  rw [hscope, hcells]
  split
  · exact s.invalidateL1_setNet n _ _
  · rfl

/-- A fibre that waits for a value gets it in rd after the acquire, and goes on. -/
theorem State.wakeWith_value {s : State} {w : Asker} {f : Fibre}
    (hf : (s.cell w.cell).fibres.find w.slot = some f) (rd : GReg) (v : Word) (sc : Scope) (len : Nat) :
    let u := s.acqL1 w.cell sc
    s.wakeWith w (some rd) v (some sc) len = u.updCell w.cell (fun _ => (u.cell w.cell).setFibre w.slot
      { f with body := { f.body with g := f.body.g.set rd v }.past len, status := .ready, parkSeq := none }) := by
  intro u
  have hu : (u.cell w.cell).fibre w.slot = f := Cell.fibre_of_find (by rw [s.fibres_acqL1]; exact hf)
  simp only [State.wakeWith, State.updCell]
  rw [show (s.acqL1 w.cell sc).cell w.cell = u.cell w.cell from rfl, hu]

section
variable {s : State} {m : Msg} {before after : List Msg} (h : s.Lands m before after)

theorem exec_amReserveArrive (i : Nat) (s : State) : exec (.amReserveArrive i) s = execAmReserveArrive i s := rfl
theorem exec_amGrantArrive (i : Nat) (s : State) : exec (.amGrantArrive i) s = execAmGrantArrive i s := rfl
theorem exec_amMessageArrive (i : Nat) (s : State) : exec (.amMessageArrive i) s = execAmMessageArrive i s := rfl
theorem exec_amReplyArrive (i : Nat) (s : State) : exec (.amReplyArrive i) s = execAmReplyArrive i s := rfl

include h

theorem State.Lands.amReserve_refused {a : AmMsg} {c : Nat} (hb : m.body = .amReserve a) (hd : m.dst = .cell c)
    (hx : s.excluded.contains c = true) (hbuf : a.buffered = false) :
    exec (.amReserveArrive m.id) s = .next ((s.dropMsg m.id).respond (.cell c) a.who (.amRefused a.who)) := by
  rw [exec_amReserveArrive, execAmReserveArrive, h.landed_eq]
  simp only [hb, hd, hx, hbuf, if_true, Bool.false_eq_true, if_false]

theorem State.Lands.amReserve_served {a : AmMsg} {c : Nat} (hb : m.body = .amReserve a) (hd : m.dst = .cell c)
    (hx : s.excluded.contains c = false) :
    exec (.amReserveArrive m.id) s = .next ((s.dropMsg m.id).amGrantOr c a) := by
  rw [exec_amReserveArrive, execAmReserveArrive, h.landed_eq]
  simp only [hb, hd, hx, Bool.false_eq_true, if_false]

theorem State.Lands.amGrant_delivers {a : AmMsg} {e : Nat} (hb : m.body = .amGrant a e) :
    exec (.amGrantArrive m.id) s = .next ((s.dropMsg m.id).amDeliver a e) := by
  rw [exec_amGrantArrive, execAmGrantArrive, h.landed_eq]
  simp only [hb]

theorem State.Lands.amMessage_taken {a : AmMsg} {c e : Nat} (hb : m.body = .am a e) (hd : m.dst = .cell c)
    (hbuf : a.buffered = false) :
    exec (.amMessageArrive m.id) s =
      .next (((s.dropMsg m.id).updCell c (fun y => y.putMessage a e)).respond (.cell c) a.who (.amTaken a.who)) := by
  rw [exec_amMessageArrive, execAmMessageArrive, h.landed_eq]
  simp only [hb, hd, hbuf, Bool.false_eq_true, if_false]

variable {w : Asker} {f : Fibre} (hf : (s.cell w.cell).fibres.find w.slot = some f) (hid : f.body.fid = w.fid)
include hf hid

theorem State.Lands.amTaken_goesOn {x : Word} {len since : Nat} (hb : m.body = .amTaken w)
    (hst : f.status = .parked (.amAccept w.id x len) since) :
    exec (.amReplyArrive m.id) s =
      .next ((s.dropMsg m.id).updCell w.cell (fun c => c.setFibre w.slot (f.wake len))) := by
  have hfibre : ((s.dropMsg m.id).cell w.cell).fibre w.slot = f := Cell.fibre_of_find hf
  rw [exec_amReplyArrive, execAmReplyArrive, h.landed_eq]
  simp [hb, State.amAccepted, hfibre, hst, Fibre.has, hid]

theorem State.Lands.amReply_wakes {x : Word} {rd : GReg} {sc : Scope} {dg taken : Bool} {len since : Nat} {v : Word}
    (hb : m.body = .amReply w v) (hst : f.status = .parked (.amReply w.id x rd sc dg taken len) since) :
    exec (.amReplyArrive m.id) s = .next ((s.dropMsg m.id).wakeWith w (some rd) v (some sc) len) := by
  rw [exec_amReplyArrive, execAmReplyArrive, h.landed_eq]
  simp [hb, Cell.fibre_of_find hf, hst, Fibre.has, hid]

end

/-- Active messages do at their ends what 12 R247-R251 and 18 R375 say. -/
theorem messageArrivals : Sys2Proof.Says.MessageArrivals := by
  intro s m before after a c e h w
  have hin := h.inNet
  refine ⟨fun hb hd hx hbuf hw => ?_, fun hb hd hx => ⟨fun i hi hw => ?_, fun hnone => ?_⟩, fun hb hto => ?_,
    fun x hb hd hbuf hw hx => ?_, fun f x len since hb hf hid hst => ?_,
    fun f x rd sc dg taken len since v hb hf hid hst => ?_⟩
  · rw [h.amReserve_refused hb hd hx hbuf, State.respond_here (s := s.dropMsg m.id) hw, hin.dropMsg_eq]
    rfl
  · refine ⟨_, (h.amReserve_served hb hd hx).trans ?_, hin.answers c (fun y =>
      { y with am := y.am.put i (AmEntry.granted y.nextOrder a), nextOrder := y.nextOrder + 1 }) hw (.amGrant a i)⟩
    have hi' : ((s.dropMsg m.id).cell c).freeAm = some i := hi
    rw [State.amGrantOr, hi']
  · refine ⟨_, (h.amReserve_served hb hd hx).trans ?_,
      hin.takes c (fun y => { y with amWaiting := y.amWaiting ++ [a] })⟩
    have hnone' : ((s.dropMsg m.id).cell c).freeAm = none := hnone
    rw [State.amGrantOr, hnone']
  · rw [h.amGrant_delivers hb, State.amDeliver, hin.dropMsg_eq, if_pos hto]
    rfl
  · obtain ⟨ht, hne, hsame⟩ := hin.answers c (fun y => y.putMessage a e) hw (.amTaken w)
    refine ⟨_, h.amMessage_taken hb hd hbuf, ht, hne, hsame.trans ?_⟩
    simp only [Cell.putMessage, hx]
    rfl
  · exact ⟨_, h.amTaken_goesOn hf hid hb hst, hin.takes w.cell _⟩
  · have hf' : ((s.dropMsg m.id).cell w.cell).fibres.find w.slot = some f := hf
    refine ⟨_, (h.amReply_wakes hf hid hb hst).trans (congrArg _ (State.wakeWith_value hf' rd v sc len)), ?_⟩
    simp only [hin.dropMsg_eq, State.acqL1_setNet]
    exact ⟨rfl, fun d hd => State.cell_updCell_ne _ _ hd, State.cell_updCell_same _ _ _⟩

/-- Settles O39 from its four parts: the network, the nodes of the torus, SPAWN's messages, active messages. -/
theorem messages : Obligations.Messages := by
  unfold Obligations.Messages
  exact ⟨networkSteps, torusNodes, spawnMessages, messageArrivals⟩

end Sys2Proof.Machine
end

section
/-!
PROOFS. Placing work on cells: the steps of a thief and the answers of a victim (O37, O38); tasks, handlers, routines and
trap handlers as they start (O36).
-/

namespace Sys2Proof.Machine

open Sys2Proof

/-! ## Steals (04 R70, R71) -/

theorem exec_stealSend (c : Nat) (s : State) : exec (.stealSend c) s = execStealSend c s := rfl
theorem exec_stealServe (c : Nat) (s : State) : exec (.stealServe c) s = execStealServe c s := rfl
theorem exec_stealAnswerArrive (c : Nat) (s : State) : exec (.stealAnswerArrive c) s = execStealAnswerArrive c s := rfl
theorem exec_stealBackoffExpire (c : Nat) (s : State) : exec (.stealBackoffExpire c) s = execStealBackoffExpire c s := rfl

/-- A change of one cell changes no other. -/
theorem State.onlyCell_updCell (s : State) (c : Nat) (f : Cell → Cell) : s.OnlyCell (s.updCell c f) c :=
  ⟨rfl, fun _ h => s.cell_updCell_ne f h⟩

/-- A step whose meaning is a change of one cell. -/
theorem State.next_updCell {s : State} {i : Instr} {c : Nat} {f : Cell → Cell} {y : Cell}
    (h : exec i s = .next (s.updCell c f)) (hy : f (s.cell c) = y) :
    ∃ t, exec i s = .next t ∧ s.OnlyCell t c ∧ t.cell c = y :=
  ⟨_, h, s.onlyCell_updCell c f, (s.cell_updCell_same c f).trans hy⟩

/-- A cell is idle when its deque is empty and none of its tasks is READY or ISSUED. -/
theorem Cell.isIdle_iff {x : Cell} : x.isIdle = true ↔
    x.deque = [] ∧ ∀ e ∈ x.fibres, e.1 < 17 ∨ (e.2.status ≠ .ready ∧ ∀ n, e.2.status ≠ .issued n) := by
  have hst : ∀ f : Fibre, (match f.status with | .ready => false | .issued _ => false | _ => true) = true ↔
      f.status ≠ .ready ∧ ∀ n, f.status ≠ .issued n := by
    intro f; cases f.status <;> simp
  simp only [Cell.isIdle, Cell.tasksIdle, Bool.and_eq_true, List.isEmpty_iff, List.all_eq_true, Bool.or_eq_true,
    decide_eq_true_eq]
  exact and_congr_right fun _ => forall₂_congr fun e _ => or_congr_right (hst e.2)

/-- The lowest free number is looked for among `fuel` numbers, and there is none when all of these are keys. -/
theorem AMap.lowestFree_eq_none {α : Type} {m : AMap α} {fuel lo : Nat} :
    m.lowestFree fuel lo = none ↔ ∀ n, lo ≤ n → n < lo + fuel → m.find n ≠ none := by
  induction fuel generalizing lo with
  | zero => simp only [AMap.lowestFree, true_iff]; omega
  | succ fuel ih =>
    rw [AMap.lowestFree]
    split
    · next h =>
      rw [ih]
      refine forall_congr' fun n => ⟨fun hn hlo hlt => ?_, fun hn hlo hlt => hn (by omega) (by omega)⟩
      by_cases hne : n = lo
      · subst hne; exact Option.isSome_iff_ne_none.1 h
      · exact hn (by omega) (by omega)
    · next h =>
      simp only [reduceCtorEq, false_iff]
      exact fun hall => hall lo (Nat.le_refl _) (by omega) (Option.not_isSome_iff_eq_none.1 h)

/-- No task slot of a cell is FREE. -/
theorem Cell.freeTask_eq_none {x : Cell} : x.freeTask = none ↔ ∀ n, 17 ≤ n → n < 256 → x.fibres.find n ≠ none :=
  AMap.lowestFree_eq_none

section
variable {s : State} {c : Nat}

theorem State.stealSend_asks (hact : s.active c = true) (hidle : (s.cell c).isIdle = true) (hsteal : s.noSteal c = false)
    (hphase : (s.cell c).steal.phase = .idle) {j : Nat}
    (hnext : nextVictim (s.cell c).steal.last (s.victims c) = some j) :
    exec (.stealSend c) s =
      .next (s.setSteal c { (s.cell c).steal with last := some j, phase := .asked ((s.launchOf c).physIdx j) }) := by
  rw [exec_stealSend, execStealSend]
  simp only [hact, hidle, hsteal, hphase, hnext]
  rfl

theorem State.stealAnswerArrive_record {x : TaskRec} (hphase : (s.cell c).steal.phase = .answered (some x))
    (hroom : (s.cell c).deque.length < 64) :
    exec (.stealAnswerArrive c) s =
      .next (s.updCell c (fun y => { y.pushTask x s.now with steal := { (s.cell c).steal with empties := 0, phase := .idle } })) := by
  rw [exec_stealAnswerArrive, execStealAnswerArrive]
  simp only [hphase, if_pos hroom, State.setSteal, State.updCell_updCell]

theorem State.stealAnswerArrive_empty (hphase : (s.cell c).steal.phase = .answered none) :
    exec (.stealAnswerArrive c) s = .next (s.setSteal c
      (if (s.victims c).length ≤ (s.cell c).steal.empties + 1
        then { (s.cell c).steal with empties := 0, phase := .backoff s.now }
        else { (s.cell c).steal with empties := (s.cell c).steal.empties + 1, phase := .idle })) := by
  rw [exec_stealAnswerArrive, execStealAnswerArrive]
  simp only [hphase]
  split <;> rfl

theorem State.stealBackoffExpire_due {n : Nat} (hphase : (s.cell c).steal.phase = .backoff n) (hdue : n + 1024 ≤ s.now) :
    exec (.stealBackoffExpire c) s = .next (s.setSteal c { (s.cell c).steal with phase := .idle }) := by
  rw [exec_stealBackoffExpire, execStealBackoffExpire]
  simp only [hphase, if_pos hdue]

end

/-- Settles O37: each step of a thief is one change of its own cell. -/
theorem stealing : Obligations.Stealing := by
  unfold Obligations.Stealing
  intro s c x
  refine ⟨fun j hact hidle hsteal hphase hnext => ?_, fun hphase hroom => ?_, fun hphase => ?_, fun n hphase hdue => ?_⟩
  · exact State.next_updCell (State.stealSend_asks hact (Cell.isIdle_iff.2 hidle) hsteal hphase hnext) rfl
  · exact State.next_updCell (State.stealAnswerArrive_record hphase hroom) rfl
  · exact State.next_updCell (State.stealAnswerArrive_empty hphase) rfl
  · exact State.next_updCell (State.stealBackoffExpire_due hphase hdue) rfl

section
variable {s : State} {c v : Nat} (hphase : (s.cell c).steal.phase = .asked v)
include hphase

/-- A victim answers after its own pop and the records that have arrived for it. -/
theorem State.stealServe_waits (h : s.canPop v = true ∨ s.spawnWaits v = true) :
    exec (.stealServe c) s = .next s := by
  rw [exec_stealServe, execStealServe, hphase]
  exact if_pos (by simpa using h)

/-- What the victim's answer changes: its deque and its count of answers, and the thief's phase. -/
theorem State.stealServe_gives (hne : v ≠ c) (hpop : s.canPop v = false) (hspawn : s.spawnWaits v = false)
    {a : Option TaskRec} {q : List DequeEntry} {src : Nat} (hans : (s.cell v).stealAnswer = (a, q))
    (hsrc : src = if a.isSome then 16 else 17) :
    ∃ t, exec (.stealServe c) s = .next t ∧ t = { s with cells := t.cells } ∧
      (∀ d, d ≠ c → d ≠ v → t.cell d = s.cell d) ∧
      t.cell c = { s.cell c with steal := { (s.cell c).steal with phase := .answered a } } ∧
      t.cell v = { (s.cell v).count src 1 with deque := q } := by
  refine ⟨_, by rw [exec_stealServe, execStealServe, hphase]; simp only [hpop, hspawn, hans]; rfl, rfl,
    fun d hc hv => ?_, ?_, ?_⟩
  · rw [State.setSteal, State.cell_updCell_ne _ _ hc, State.count, State.cell_updCell_ne _ _ hv, State.cell_updCell_ne _ _ hv]
  · rw [State.setSteal, State.cell_updCell_same, State.count, State.cell_updCell_ne _ _ hne.symm,
      State.cell_updCell_ne _ _ hne.symm]
  · rw [State.setSteal, State.cell_updCell_ne _ _ hne, State.count, State.cell_updCell_same, State.cell_updCell_same, hsrc]
    rfl

end

/-- Settles O38, by the length of the victim's deque. -/
theorem stealAnswers : Obligations.StealAnswers := by
  unfold Obligations.StealAnswers
  intro s c v hphase hne
  refine ⟨State.stealServe_waits hphase, fun hpop hspawn => ⟨fun hq => ?_, fun e hq => ⟨fun hbusy => ?_, fun hfree => ?_⟩,
    fun e f r hq => ?_⟩⟩
  · exact State.stealServe_gives hphase hne hpop hspawn (by rw [Cell.stealAnswer, hq]) rfl
  · have hnone := Cell.freeTask_eq_none.2 hbusy
    exact State.stealServe_gives hphase hne hpop hspawn (by simp only [Cell.stealAnswer, hq, hnone]; rfl) rfl
  · have hsome : (s.cell v).freeTask.isNone = false := by
      rw [Option.isNone_eq_false_iff, Option.isSome_iff_ne_none]
      exact fun h => hfree (Cell.freeTask_eq_none.1 h)
    exact State.stealServe_gives hphase hne hpop hspawn (by simp only [Cell.stealAnswer, hq, hsome]; rfl) rfl
  · exact State.stealServe_gives hphase hne hpop hspawn (by rw [Cell.stealAnswer, hq]) rfl

/-! ## Fibres that start (04 R62, R67; 12 R249) -/

/-- `t` has a new number and one changed cell. -/
def State.ChangedCell (s t : State) (c : Nat) (F : Cell → Cell) : Prop :=
  t = { s with cells := t.cells, nextId := s.nextId + 1 } ∧ (∀ d, d ≠ c → t.cell d = s.cell d) ∧ t.cell c = F (s.cell c)

/-- A change of a cell and a new number. -/
theorem State.changedCell_newId (s : State) (c : Nat) (F : Cell → Cell) : s.ChangedCell (s.updCell c F).newId c F :=
  ⟨rfl, fun _ h => s.cell_updCell_ne F h, s.cell_updCell_same c F⟩

/-- The sectors of an L1 that an invalidation leaves: the dirty bytes of those it reaches. -/
def sectorsLeft (want : Nat → Bool) (l : List L1Sector) : List L1Sector :=
  (l.map (fun x => if want x.va then { x with valid := x.dirty } else x)).filter (fun x => !(want x.va && x.dirty = 0))

theorem State.invalidateL1_cons (s : State) (c : Nat) (cells : List Nat) (want : Nat → Bool) :
    s.invalidateL1 (c :: cells) want =
      (s.updCell c fun y => { y with l1 := sectorsLeft want y.l1 }).invalidateL1 cells want := rfl

/-- A change of a cell that neither reads nor writes its L1, and keeps its launch. -/
structure Cell.BesideL1 (F : Cell → Cell) : Prop where
  comm : ∀ x l, F { x with l1 := l } = { F x with l1 := l }
  l1 : ∀ x, (F x).l1 = x.l1
  launch : ∀ x, (F x).launch = x.launch

/-- Such a change commutes with a change of the L1. -/
theorem Cell.BesideL1.comm_l1 {F : Cell → Cell} (hF : Cell.BesideL1 F) (f : List L1Sector → List L1Sector) (x : Cell) :
    { F x with l1 := f (F x).l1 } = F { x with l1 := f x.l1 } := by
  rw [hF.l1]
  exact (hF.comm x _).symm

theorem Cell.BesideL1.setFibre {f : Cell → Cell} (hf : Cell.BesideL1 f) (slot : Nat) (x : Fibre) :
    Cell.BesideL1 fun z => f (z.setFibre slot x) where
  comm := fun z l => hf.comm (z.setFibre slot x) l
  l1 := fun z => hf.l1 (z.setFibre slot x)
  launch := fun z => hf.launch (z.setFibre slot x)

/-- A change of some cell that commutes with a change of one keeps what the two states differ in. -/
theorem State.ChangedCell.updCell {s t : State} {c : Nat} {F : Cell → Cell} (h : s.ChangedCell t c F) (d : Nat)
    {g : Cell → Cell} (hg : ∀ x, g (F x) = F (g x)) : (s.updCell d g).ChangedCell (t.updCell d g) c F := by
  obtain ⟨heq, hne, hsame⟩ := h
  refine ⟨?_, fun e he => ?_, ?_⟩
  · generalize t.cells = cs at heq
    rw [heq]
    rfl
  · by_cases hed : e = d
    · subst hed; rw [State.cell_updCell_same, State.cell_updCell_same, hne e he]
    · rw [State.cell_updCell_ne _ _ hed, State.cell_updCell_ne _ _ hed, hne e he]
  · by_cases hcd : c = d
    · subst hcd; rw [State.cell_updCell_same, State.cell_updCell_same, hsame, hg]
    · rw [State.cell_updCell_ne _ _ hcd, State.cell_updCell_ne _ _ hcd, hsame]

section
variable {s t : State} {c : Nat} {F : Cell → Cell} (h : s.ChangedCell t c F) (hF : Cell.BesideL1 F)
include h hF

/-- Invalidating L1s keeps what two states differ in beside the L1. -/
theorem State.ChangedCell.invalidateL1 (cells : List Nat) (want : Nat → Bool) :
    (s.invalidateL1 cells want).ChangedCell (t.invalidateL1 cells want) c F := by
  induction cells generalizing s t with
  | nil => exact h
  | cons d cells ih =>
    rw [State.invalidateL1_cons, State.invalidateL1_cons]
    exact ih (h.updCell d (hF.comm_l1 (sectorsLeft want)))

theorem State.ChangedCell.launchOf : t.launchOf c = s.launchOf c := by
  obtain ⟨heq, -, hsame⟩ := h
  have hlaunches : t.launches = s.launches := by rw [heq]
  simp only [State.launchOf, State.launch, hsame, hF.launch, hlaunches]

/-- An acquire keeps what two states differ in beside the L1. -/
theorem State.ChangedCell.acqL1 (sc : Scope) : (s.acqL1 c sc).ChangedCell (t.acqL1 c sc) c F := by
  have hcells : t.l1Cells c = s.l1Cells c := by simp only [State.l1Cells, h.launchOf hF]
  have hscope : t.l1Scope c sc = s.l1Scope c sc := by simp only [State.l1Scope, hcells]
  unfold State.acqL1
  rw [hscope, hcells]
  split
  · exact h.invalidateL1 hF _ _
  · exact h

end

theorem State.nextId_invalidateL1 (s : State) (cells : List Nat) (want : Nat → Bool) :
    (s.invalidateL1 cells want).nextId = s.nextId := by
  induction cells generalizing s with
  | nil => rfl
  | cons c cells ih => rw [State.invalidateL1_cons, ih]; rfl

/-- An acquire takes no number. -/
theorem State.nextId_acqL1 (s : State) (c : Nat) (sc : Scope) : (s.acqL1 c sc).nextId = s.nextId := by
  unfold State.acqL1
  split
  · exact s.nextId_invalidateL1 _ _
  · rfl

/-- A fibre has started once its cell has changed by it and the cell has acquired. -/
theorem State.started_acqL1 {s t : State} {c slot : Nat} {b : FBody} {f : Cell → Cell} (hf : Cell.BesideL1 f)
    (h : s.ChangedCell t c fun z => f (z.setFibre slot { Fibre.zero with body := { b with fid := s.nextId } }))
    (sc : Scope) : s.Started (t.acqL1 c sc) c slot b sc f := by
  have hacq := h.acqL1 (hf.setFibre slot _) sc
  rw [State.ChangedCell, s.nextId_acqL1] at hacq
  exact hacq

/-! ### Tasks -/

/-- The body of a task at its start (04 Table 4.1). -/
def TaskRec.body (x : TaskRec) (y : Cell) (now privSize : Nat) (priv : Option Nat) : FBody :=
  { FBody.zero with g := x.regs privSize, pc := x.pc, startNo := y.started, since := some now, priv := priv }

/-- A task that starts leaves the deque and is counted. -/
def Cell.taskTaken (rest : List DequeEntry) (z : Cell) : Cell := { z with deque := rest, started := z.started + 1 }

theorem Cell.besideL1_taskTaken (rest : List DequeEntry) : Cell.BesideL1 (Cell.taskTaken rest) :=
  ⟨fun _ _ => rfl, fun _ => rfl, fun _ => rfl⟩

theorem State.startTask_eq (s : State) (c slot : Nat) (x : TaskRec) (rest : List DequeEntry) (p : Option Nat) :
    s.startTask c slot x rest p =
      ((s.updCell c fun z => Cell.taskTaken rest (z.setFibre slot { Fibre.zero with
        body := { x.body (s.cell c) s.now (s.launchOf c).privSize p with fid := s.nextId } })).newId).acqL1 c .device := rfl

theorem State.started_startTask (s : State) (c slot : Nat) (x : TaskRec) (rest : List DequeEntry) (p : Option Nat) :
    s.Started (s.startTask c slot x rest p) c slot (x.body (s.cell c) s.now (s.launchOf c).privSize p) .device
      (Cell.taskTaken rest) := by
  rw [s.startTask_eq]
  exact State.started_acqL1 (Cell.besideL1_taskTaken rest) (s.changedCell_newId c _) .device

theorem exec_taskPop (c : Nat) (s : State) : exec (.taskPop c) s = execTaskPop c s := rfl
theorem exec_coldEndPromote (c : Nat) (s : State) : exec (.coldEndPromote c) s = execColdEndPromote c s := rfl

theorem Cell.coldDue_cons {y : Cell} {e : DequeEntry} {r : List DequeEntry} (hq : y.deque = e :: r) (now : Nat) :
    y.coldDue now = decide (e.entered + 1048576 ≤ now) := by
  rw [Cell.coldDue, hq, coldAge]

/-- A pop takes the cold end when it is due, and the hot end otherwise (04 R62). -/
theorem Cell.popRec_eq {y : Cell} {e : DequeEntry} {r rest : List DequeEntry} {x : TaskRec} {now : Nat}
    (hq : y.deque = e :: r) (hcold : e.entered + 1048576 ≤ now → x = e.task ∧ rest = r)
    (hhot : ¬e.entered + 1048576 ≤ now → ∃ h, y.deque = rest ++ [h] ∧ x = h.task) :
    y.popRec now = some (x, rest) := by
  unfold Cell.popRec
  rw [y.coldDue_cons hq]
  by_cases hdue : e.entered + 1048576 ≤ now
  · obtain ⟨rfl, rfl⟩ := hcold hdue
    simp [hq, hdue]
  · obtain ⟨h, hend, rfl⟩ := hhot hdue
    have hlast : y.deque.getLast? = some h := by rw [hend, List.getLast?_concat]
    have hinit : y.deque.dropLast = rest := by rw [hend, List.dropLast_concat]
    simp only [hlast, hinit, hdue, decide_false, Bool.false_eq_true, if_false]
    rw [hq]

theorem leastOf_mem {l : List Nat} {b : Nat} (h : leastOf l = some b) : b ∈ l := by
  induction l generalizing b with
  | nil => cases h
  | cons n l ih =>
    rw [leastOf] at h
    split at h
    · next m hm =>
      rcases Nat.le_total n m with hle | hle
      · rw [Nat.min_eq_left hle] at h
        exact (Option.some.inj h) ▸ List.mem_cons_self
      · rw [Nat.min_eq_right hle] at h
        exact List.mem_cons_of_mem _ ((Option.some.inj h) ▸ ih hm)
    · exact (Option.some.inj h) ▸ List.mem_cons_self

/-- The regions in use of a job. -/
theorem State.mem_regionsOf {s : State} {job u n : Nat} :
    (u, n) ∈ s.regionsOf job ↔ ∃ k z, (k, z) ∈ s.launches ∧ z.job = job ∧ u ∈ z.regions ∧ z.privSize = n := by
  simp only [State.regionsOf, State.jobLaunches, List.mem_flatMap, List.mem_map, List.mem_filter, decide_eq_true_eq,
    Prod.mk.injEq, Prod.exists]
  constructor
  · rintro ⟨z, ⟨k, _, ⟨hmem, hjob⟩, rfl⟩, _, hu, rfl, rfl⟩
    exact ⟨k, _, hmem, hjob, hu, rfl⟩
  · rintro ⟨k, z, hmem, hjob, hu, rfl⟩
    exact ⟨z, ⟨k, z, ⟨hmem, hjob⟩, rfl⟩, u, hu, rfl, rfl⟩

/-- A new region lies in the job's pool and meets no other region in use (11 R222). -/
theorem State.newRegion_fits {s : State} {l b : Nat} (h : s.newRegion l = some b) :
    let y := s.launch l
    let j := s.job y.job
    j.poolBase ≤ b ∧ b + y.privSize ≤ j.poolBase + j.poolSize ∧
      ∀ k z, (k, z) ∈ s.launches → z.job = y.job → ∀ u ∈ z.regions, b + y.privSize ≤ u ∨ u + z.privSize ≤ b := by
  intro y j
  have hplace : s.regionPlace y.job y.privSize = some b := by
    simp only [State.newRegion] at h
    split at h
    · exact h
    · cases h
  have hfits := (List.mem_filter.1 (leastOf_mem hplace)).2
  simp only [Bool.and_eq_true, decide_eq_true_eq, List.all_eq_true] at hfits
  obtain ⟨⟨hlow, hhigh⟩, hused⟩ := hfits
  exact ⟨hlow, hhigh, fun k z hmem hjob u hu => hused (u, z.privSize) (State.mem_regionsOf.2 ⟨k, z, hmem, hjob, hu, rfl⟩)⟩

/-- TASK_POP and COLD_END_PROMOTE start tasks as 04 R60-R62 say. -/
theorem taskStarts : Sys2Proof.Says.TaskStarts := by
  intro s c slot l x rest e r q y due hact hlaunch hslot hq hcold hhot body takes
  have hof : s.launchOf c = s.launch l := by rw [State.launchOf, hlaunch]
  have hrec : (s.cell c).popRec s.now = some (x, rest) := Cell.popRec_eq hq hcold hhot
  have hfree : (s.cell c).freeTask = some slot := hslot
  have hpop : exec (.taskPop c) s = .next (s.popTask c) := by rw [exec_taskPop, execTaskPop, if_pos hact]
  have hpromote (h : due) : exec (.coldEndPromote c) s = .next (s.popTask c) := by
    have hd : (s.cell c).coldDue s.now = true := by rw [Cell.coldDue_cons hq]; exact decide_eq_true h
    rw [exec_coldEndPromote, execColdEndPromote, if_pos (by rw [hact, hd]; rfl)]
  refine ⟨fun hnone => ⟨_, hpop, ?_, hpromote⟩, fun b hsome hb => ⟨State.newRegion_fits hb, _, hpop, hpromote, ?_⟩⟩
  · have hstart := s.started_startTask c slot x rest none
    rw [hof, show (s.launch l).privSize = 0 from hnone] at hstart
    simp only [State.popTask, hfree, hrec, hlaunch]
    rw [if_pos hnone]
    exact hstart
  · let s1 := s.updLaunch l (fun y => { y with regions := y.regions ++ [b] })
    have hof1 : (s1.launchOf c).privSize = (s.launch l).privSize := by
      have hl : (s1.cell c).launch = some l := hlaunch
      rw [State.launchOf, hl]
      simp [s1, State.launch, State.updLaunch]
    have hstart := s1.started_startTask c slot x rest (some b)
    rw [hof1] at hstart
    simp only [State.popTask, hfree, hrec, hlaunch, hb]
    rw [if_neg hsome]
    exact hstart

/-! ### Handlers, routines and trap handlers -/

theorem exec_handlerStart (c : Nat) (s : State) : exec (.handlerStart c) s = execHandlerStart c s := rfl
theorem exec_delegRoutineStart (c : Nat) (s : State) : exec (.delegRoutineStart c) s = execDelegRoutineStart c s := rfl
theorem exec_trapHandlerStart (c : Nat) (s : State) : exec (.trapHandlerStart c) s = .next (s.startUnitHandler c) := rfl

/-- An engine's words have not all completed. -/
theorem Engine.drained_eq_false {e : Engine} : e.drained = false ↔ ∃ f ∈ e.flights, f.isDone = false := by
  simp [Engine.drained]

/-- A trap waits exactly when it cannot be taken (22 R393; log 83). -/
theorem Cell.trapWaits_iff {x : Cell} {src : TrapSrc} : x.TrapWaits src ↔ x.trapReady src = false := by
  unfold Cell.TrapWaits Cell.trapReady
  cases src <;> simp [Engine.drained_eq_false]

/-- A trap that waits is not due. -/
theorem State.trapDue_of_waits {s : State} {c : Nat} {e : TrapSrc × TrapRec} (h : (s.cell c).TrapWaits e.1) :
    s.trapDue c e = false := by
  rw [State.trapDue, Cell.trapWaits_iff.1 h, Bool.false_and]

/-- A change of a cell that keeps its launch keeps the launch that holds it. -/
theorem State.launchOf_updCell (s : State) (c : Nat) (f : Cell → Cell) (hf : (f (s.cell c)).launch = (s.cell c).launch) :
    (s.updCell c f).launchOf c = s.launchOf c := by
  rw [State.launchOf, State.cell_updCell_same, hf]
  rfl

/-- The body of a handler or routine at its start (12 R249). -/
def Cell.handlerBody (x : Cell) (k : FKind) (g : Vector Word 8) (pc : Word) : FBody :=
  { FBody.zero with kind := k, g := g, pc := pc, order := x.nextOrder }

/-- A fibre starts in a cell that has taken its message or completion by `F`, and the cell then stands as after `f`. -/
theorem State.started_startFibre (s : State) (c slot : Nat) (k : FKind) (g : Vector Word 8) (pc : Word) (sc : Scope)
    {F f : Cell → Cell} (hf : Cell.BesideL1 f) (horder : (F (s.cell c)).nextOrder = (s.cell c).nextOrder)
    (hfF : ∀ z x, f (z.setFibre slot x) = { (F z).setFibre slot x with nextOrder := (F z).nextOrder + 1 }) :
    s.Started ((s.updCell c F).startFibre c slot k g pc sc) c slot ((s.cell c).handlerBody k g pc) sc f := by
  refine State.started_acqL1 hf ?_ sc
  rw [State.updCell_updCell, State.cell_updCell_same, horder]
  simp only [hfF]
  exact s.changedCell_newId c _

/-- What a message whose handler starts changes in its cell. -/
def Cell.messageTaken (i : Nat) (e : AmEntry) (z : Cell) : Cell :=
  { z with am := z.am.put i { e with running := true, front := 0 }, nextOrder := z.nextOrder + 1 }

/-- What a completion whose handler starts changes in its cell. -/
def Cell.completionTaken (q : CompReq) (z : Cell) : Cell :=
  { z with copy := { z.copy with comps := z.copy.comps.erase q }, nextOrder := z.nextOrder + 1 }

theorem State.started_message (s : State) (c slot i : Nat) (e : AmEntry) (k : FKind) :
    s.Started ((s.updCell c (fun x => x.runEntry i e)).startFibre c slot k e.regs e.pc e.scope) c slot
      ((s.cell c).handlerBody k e.regs e.pc) e.scope (Cell.messageTaken i e) :=
  s.started_startFibre c slot k _ _ _ ⟨fun _ _ => rfl, fun _ => rfl, fun _ => rfl⟩ rfl fun _ _ => rfl

theorem State.started_completion (s : State) (c slot : Nat) (q : CompReq) :
    s.Started ((s.updCell c (fun x => { x with copy := { x.copy with comps := x.copy.comps.erase q } })).startFibre c slot
      (.completion q) q.regs q.pc q.scope) c slot ((s.cell c).handlerBody (.completion q) q.regs q.pc) q.scope
      (Cell.completionTaken q) :=
  s.started_startFibre c slot _ _ _ _ ⟨fun _ _ => rfl, fun _ => rfl, fun _ => rfl⟩ rfl fun _ _ => rfl

/-- What a trap whose handler starts changes in its cell. -/
def Cell.trapTaken (slot : Nat) (f : Fibre) (rest : List (TrapSrc × TrapRec)) (z : Cell) : Cell :=
  { z.setFibre slot f with traps := rest, nextOrder := z.nextOrder + 1 }

section
variable {s : State} {c slot : Nat}

/-- Counting starts keeps the order that the next handler gets. -/
theorem State.nextOrder_count (s : State) (c src n : Nat) : ((s.count c src n).cell c).nextOrder = (s.cell c).nextOrder := by
  rw [State.count, State.cell_updCell_same]
  rfl

/-- Where every trap waits none is due. -/
theorem State.any_trapDue (hwait : ∀ e ∈ (s.cell c).traps, (s.cell c).TrapWaits e.1) :
    (s.cell c).traps.any (s.trapDue c) = false :=
  List.any_eq_false.2 fun e he => by simp [State.trapDue_of_waits (hwait e he)]

theorem State.handlerStart_message (hact : s.active c = true) (hwait : ∀ e ∈ (s.cell c).traps, (s.cell c).TrapWaits e.1)
    (hslot : (s.cell c).freeHandler = some slot) {i : Nat} {e : AmEntry} (hnext : (s.cell c).nextHandler = some (.msg i e)) :
    ∃ t, exec (.handlerStart c) s = .next t ∧ (s.count c 14 1).Started t c slot
      ((s.cell c).handlerBody (.handler i) e.regs e.pc) e.scope (Cell.messageTaken i e) := by
  have hstart := (s.count c 14 1).started_message c slot i e (.handler i)
  rw [Cell.handlerBody, s.nextOrder_count] at hstart
  refine ⟨_, ?_, hstart⟩
  rw [exec_handlerStart, execHandlerStart]
  simp only [hact, State.any_trapDue hwait, hslot, hnext]
  rfl

theorem State.handlerStart_completion (hact : s.active c = true)
    (hwait : ∀ e ∈ (s.cell c).traps, (s.cell c).TrapWaits e.1)
    (hslot : (s.cell c).freeHandler = some slot) {q : CompReq} (hnext : (s.cell c).nextHandler = some (.completion q)) :
    ∃ t, exec (.handlerStart c) s = .next t ∧ (s.count c 14 1).Started t c slot
      ((s.cell c).handlerBody (.completion q) q.regs q.pc) q.scope (Cell.completionTaken q) := by
  have hstart := (s.count c 14 1).started_completion c slot q
  rw [Cell.handlerBody, s.nextOrder_count] at hstart
  refine ⟨_, ?_, hstart⟩
  rw [exec_handlerStart, execHandlerStart]
  simp only [hact, State.any_trapDue hwait, hslot, hnext]
  rfl

theorem State.delegRoutineStart_message (hact : s.active c = true) (hfree : (s.cell c).fibres.find 16 = none) {i : Nat}
    {e : AmEntry} (hnext : (s.cell c).nextDeleg = some (.msg i e)) :
    ∃ t, exec (.delegRoutineStart c) s = .next t ∧ s.Started t c 16
      ((s.cell c).handlerBody (.server i) e.regs e.pc) e.scope (Cell.messageTaken i e) := by
  refine ⟨_, ?_, s.started_message c 16 i e (.server i)⟩
  rw [exec_delegRoutineStart, execDelegRoutineStart]
  simp only [hact, hfree, hnext]
  rfl

/-! ### Unit traps (18 R354, R359; 22 R393) -/

variable {src : TrapSrc} {r : TrapRec} {before after : List (TrapSrc × TrapRec)}
  (htraps : (s.cell c).traps = before ++ (src, r) :: after) (hbefore : ∀ e ∈ before, (s.cell c).TrapWaits e.1)
  (hdue : s.trapDue c (src, r) = true)
include htraps hbefore hdue

/-- The first trap that is due is found behind those that wait. -/
theorem State.find_trapDue : (s.cell c).traps.find? (s.trapDue c) = some (src, r) := by
  rw [htraps, List.find?_append, List.find?_eq_none.2 fun e he => by simp [State.trapDue_of_waits (hbefore e he)],
    List.find?_cons_of_pos hdue]
  rfl

/-- Taking it leaves the others in their order. -/
theorem State.eraseP_trapDue : (s.cell c).traps.eraseP (s.trapDue c) = before ++ after := by
  rw [htraps, List.eraseP_append_right _ fun e he => by simp [State.trapDue_of_waits (hbefore e he)],
    List.eraseP_cons_of_pos hdue]

/-- The cell without the trap that is taken. -/
theorem State.updCell_eraseP : (s.updCell c fun x => { x with traps := x.traps.eraseP (s.trapDue c) }) =
    s.updCell c fun x => { x with traps := before ++ after } := by
  simp only [State.updCell, State.eraseP_trapDue htraps hbefore hdue]

/-- A trap whose class is not handled fails the launch. -/
theorem State.startUnitHandler_fails (hact : s.trapHandled c r = false) :
    s.startUnitHandler c =
      (s.updCell c fun x => { x with traps := before ++ after }).failLaunch c (s.trapRecord c r.regs 255 false false) := by
  rw [State.startUnitHandler, State.find_trapDue htraps hbefore hdue]
  simp only [hact, State.updCell_eraseP htraps hbefore hdue]
  rfl

/-- A trap whose class is handled starts its handler. -/
theorem State.startUnitHandler_starts (hact : s.trapHandled c r = true) (hslot : (s.cell c).freeHandler = some slot) :
    s.startUnitHandler c = (s.updCell c (Cell.trapTaken slot
      (trapHandler s.nextId (s.launchOf c).handlerPc.toNat r.regs src none (s.cell c).nextOrder) (before ++ after))).newId := by
  rw [State.startUnitHandler, State.find_trapDue htraps hbefore hdue]
  simp only [hact, hslot, State.updCell_eraseP htraps hbefore hdue]
  rw [if_pos trivial, State.startTrapHandler, State.updCell_updCell, s.launchOf_updCell c _ rfl]
  rfl

end

/-- HANDLER_START, DELEG_ROUTINE_START and TRAP_HANDLER_START start fibres as 12 R249, R252 and 18 R359 say. -/
theorem handlerStarts : Sys2Proof.Says.HandlerStarts := by
  intro s c slot i e q x body regs runs
  refine ⟨fun hact hwait hslot => ⟨fun hnext => ?_, fun hnext => ?_⟩, fun hact hfree hnext => ?_,
    fun src r before after htraps hbefore hready => ?_⟩
  · exact State.handlerStart_message hact hwait hslot hnext
  · exact State.handlerStart_completion hact hwait hslot hnext
  · exact State.delegRoutineStart_message hact hfree hnext
  · have hready' : (s.cell c).trapReady src = true := by
      rw [Cell.trapWaits_iff] at hready
      simpa using hready
    refine ⟨fun hact => ?_, fun hact hslot => ?_⟩
    · have hno : s.trapHandled c r = false := decide_eq_false hact
      have hdue : s.trapDue c (src, r) = true := by simp [State.trapDue, hready', hno]
      rw [exec_trapHandlerStart, State.startUnitHandler_fails htraps hbefore hdue hno]
    · have hyes : s.trapHandled c r = true := decide_eq_true hact
      have hfree : (s.cell c).freeHandler = some slot := hslot
      have hdue : s.trapDue c (src, r) = true := by simp [State.trapDue, hready', hfree]
      have hstarts := State.startUnitHandler_starts htraps hbefore hdue hyes hfree
      let f := trapHandler s.nextId (s.launchOf c).handlerPc.toNat r.regs src none x.nextOrder
      obtain ⟨-, hne, hsame⟩ := s.changedCell_newId c (Cell.trapTaken slot f (before ++ after))
      exact ⟨_, f, (exec_trapHandlerStart c s).trans (congrArg _ hstarts), ⟨rfl, hne⟩, hsame, rfl, rfl, rfl,
        (BitVec.ofNat_toNat 64 _).trans (BitVec.setWidth_eq _), rfl, rfl, rfl, rfl, rfl, rfl, rfl, rfl, rfl⟩

/-- Settles O36 from its two parts. -/
theorem fibreStarts : Obligations.FibreStarts := by
  unfold Obligations.FibreStarts
  exact ⟨taskStarts, handlerStarts⟩

end Sys2Proof.Machine
end

section
/-!
PROOFS. One step of the machine: a word of each stream runs as its decoded instruction, a turn of a step without an encoding
runs that step, and the end of a step tests the counters and lets time go on (O58).
-/

namespace Sys2Proof.Machine

open Sys2Proof

/-! ## What the end of a step leaves alone -/

/-- A key that is not listed is not found. -/
theorem AMap.find_eq_none {α : Type} {m : AMap α} {n : Nat} (h : n ∉ m.map Prod.fst) : m.find n = none := by
  induction m with
  | nil => rfl
  | cons e r ih =>
    obtain ⟨k, a⟩ := e
    simp only [List.map_cons, List.mem_cons, not_or] at h
    rw [AMap.find, if_neg (Ne.symm h.1), ih h.2]

/-- What is found is listed. -/
theorem AMap.mem_of_find {α : Type} {m : AMap α} {n : Nat} {x : α} (h : m.find n = some x) : (n, x) ∈ m := by
  induction m with
  | nil => cases h
  | cons e r ih =>
    obtain ⟨k, a⟩ := e
    rw [AMap.find] at h
    split at h
    · next hk => cases h; subst hk; exact List.mem_cons_self
    · exact List.mem_cons_of_mem _ (ih h)

/-- What is found once every value has been changed. -/
theorem AMap.find_map {α : Type} (m : AMap α) (f : α → α) (n : Nat) :
    AMap.find (m.map fun e => (e.1, f e.2)) n = (m.find n).map f := by
  induction m with
  | nil => rfl
  | cons e r ih =>
    obtain ⟨k, a⟩ := e
    rw [List.map_cons, AMap.find, AMap.find, ih]
    split <;> rfl

/-- A state with the fields blanked that the end of a step may change. -/
def State.apart (s : State) : State :=
  { s with
    cells := []
    mem := []
    launches := []
    net := []
    torus := State.reset.torus
    nextId := 0
    fabricOut := []
    fabricKept := []
    fabricSeqOut := []
    dieMon := [] }

/-- Two states that agree apart agree in every field that is not blanked. -/
theorem State.eq_of_apart {α : Type} {s t : State} (f : State → α) (hf : ∀ u, f u.apart = f u) (h : t.apart = s.apart) :
    f t = f s := by
  rw [← hf t, h, hf s]

/-- `t` differs from `s` in blanked fields only, and not in memory or in what has reached a counter. -/
structure State.Quiet (s t : State) : Prop where
  apart : t.apart = s.apart
  mem : t.mem = s.mem
  acts : ∀ c, (t.cell c).acts = (s.cell c).acts

namespace State.Quiet

theorem refl (s : State) : s.Quiet s := ⟨rfl, rfl, fun _ => rfl⟩

theorem trans {s t u : State} (h : s.Quiet t) (k : t.Quiet u) : s.Quiet u :=
  ⟨k.apart.trans h.apart, k.mem.trans h.mem, fun c => (k.acts c).trans (h.acts c)⟩

theorem foldl {α : Type} {f : State → α → State} (hf : ∀ (s : State) (x : α), s.Quiet (f s x)) (l : List α) (s : State) :
    s.Quiet (l.foldl f s) :=
  List.foldlRecOn (motive := fun t => s.Quiet t) l f (refl s) fun t ht x _ => ht.trans (hf t x)

/-- A change of a cell that keeps what has reached its counters. -/
theorem updCell (s : State) (c : Nat) {f : Cell → Cell} (hf : ∀ x, (f x).acts = x.acts) : s.Quiet (s.updCell c f) where
  apart := rfl
  mem := rfl
  acts := fun d => by
    by_cases hd : d = c
    · subst hd; rw [State.cell_updCell_same, hf]
    · rw [State.cell_updCell_ne _ _ hd]

/-- A change of every cell that keeps what has reached its counters. -/
theorem mapCells (s : State) {f : Cell → Cell} (hf : ∀ x, (f x).acts = x.acts) :
    s.Quiet { s with cells := s.cells.map fun e => (e.1, f e.2) } where
  apart := rfl
  mem := rfl
  acts := fun d => by
    simp only [State.cell, AMap.find_map]
    cases s.cells.find d with
    | none => rfl
    | some x => exact hf x

theorem invalidateL1 (s : State) (cells : List Nat) (want : Nat → Bool) : s.Quiet (s.invalidateL1 cells want) := by
  refine foldl (fun s c => ?_) cells s
  exact updCell s c fun _ => rfl

theorem acqOwed (s : State) (c : Nat) : s.Quiet (s.acqOwed c) := by
  unfold State.acqOwed
  split
  · have hdue : s.Quiet (s.updCell c fun x => { x with acqDue := false }) := updCell s c fun _ => rfl
    exact hdue.trans (invalidateL1 _ _ _)
  · exact refl s

theorem holdBudgets (s : State) (c : Nat) : s.Quiet (s.holdBudgets c) := by
  unfold State.holdBudgets
  split
  · exact updCell s c fun _ => rfl
  · exact refl s

/-! ### The torus (01 R16-R19) -/

theorem countFlits (s : State) (n : Nat) (o : NodeOut) : s.Quiet (s.countFlits n o) := by
  have hdie (u : State) : u.Quiet (if o.ejected.isEmpty then u else u.countDie (dieOf n) 10 o.ejected.length) := by
    split
    · exact refl u
    · exact ⟨rfl, rfl, fun _ => rfl⟩
  simp only [State.countFlits]
  refine trans ?_ (hdie _)
  split
  · exact refl s
  · exact updCell s n fun _ => rfl

theorem inject (s : State) (n t : Nat) (draw : Nat × Nat) (o : NodeOut) : s.Quiet (s.inject n t draw o) := by
  simp only [State.inject]
  split
  · exact ⟨rfl, rfl, fun _ => rfl⟩
  · split <;> exact ⟨rfl, rfl, fun _ => rfl⟩

/-- Flits that leave the torus move the messages that they belong to. -/
theorem ejectAll (s : State) (l : List Flit) : s.Quiet (l.foldl (fun s f => s.setMsg f.msg fun m => m.ejected f.kind) s) := by
  refine foldl (fun s f => ?_) l s
  exact ⟨rfl, rfl, fun _ => rfl⟩

theorem nodeStep (t : Nat) (s : State) (n : Nat) : s.Quiet (s.nodeStep t n) := by
  simp only [State.nodeStep]
  refine trans (trans (trans ?_ (ejectAll _ _)) (countFlits _ n _)) (inject _ n t _ _)
  exact ⟨rfl, rfl, fun _ => rfl⟩

theorem torusRun (s : State) (n t : Nat) : s.Quiet (s.torusRun n t) := by
  induction n generalizing s t with
  | zero => exact refl s
  | succ n ih => exact (foldl (nodeStep t) _ s).trans (ih _ _)

theorem torusStep (s : State) (cclk : Nat) : s.Quiet (s.torusStep cclk) := by
  unfold State.torusStep
  split
  · exact refl s
  · exact torusRun s _ _

end State.Quiet

/-! ## What reaches the counters of one cell (05 R89, 16 R321) -/

/-- `t` differs from `s` in blanked fields only, and in what has reached a counter at one cell only. -/
structure State.QuietBut (s t : State) (c : Nat) : Prop where
  apart : t.apart = s.apart
  acts : ∀ d, d ≠ c → (t.cell d).acts = (s.cell d).acts

namespace State.QuietBut
variable {c : Nat}

theorem refl (s : State) : s.QuietBut s c := ⟨rfl, fun _ _ => rfl⟩

theorem trans {s t u : State} (h : s.QuietBut t c) (k : t.QuietBut u c) : s.QuietBut u c :=
  ⟨k.apart.trans h.apart, fun d hd => (k.acts d hd).trans (h.acts d hd)⟩

theorem foldl {α : Type} {f : State → α → State} (hf : ∀ (s : State) (x : α), s.QuietBut (f s x) c) (l : List α) (s : State) :
    s.QuietBut (l.foldl f s) c :=
  List.foldlRecOn (motive := fun t => s.QuietBut t c) l f (refl s) fun t ht x _ => ht.trans (hf t x)

theorem updCell (s : State) (f : Cell → Cell) : s.QuietBut (s.updCell c f) c :=
  ⟨rfl, fun _ hd => by rw [State.cell_updCell_ne _ _ hd]⟩

theorem killLaunch (s : State) (n : Nat) (e : Option LaunchEnd) : s.QuietBut (s.killLaunch n e) c := by
  have hsend : ∀ (key : Nat × Nat) (s : State) (d : Nat),
      s.QuietBut (s.sendFabric d .control (.spCancel key)) c := fun _ _ _ => ⟨rfl, fun _ _ => rfl⟩
  simp only [State.killLaunch]
  split
  · exact refl s
  · split
    · refine trans ?_ (foldl (hsend _) _ _)
      exact ⟨rfl, fun _ _ => rfl⟩
    · exact ⟨rfl, fun _ _ => rfl⟩

theorem failLaunch (s : State) (d : Nat) (r : List Byte) : s.QuietBut (s.failLaunch d r) c := by
  unfold State.failLaunch
  split
  · exact killLaunch s _ _
  · exact refl s

theorem startTrapHandler (s : State) (slot : Nat) (t : TrapRegs) (src : TrapSrc) (frame : Option FBody) :
    s.QuietBut (s.startTrapHandler c slot t src frame) c := by
  unfold State.startTrapHandler
  have hid (u : State) : u.QuietBut u.newId c := ⟨rfl, fun _ _ => rfl⟩
  exact trans (updCell s _) (hid _)

theorem startUnitHandler (s : State) : s.QuietBut (s.startUnitHandler c) c := by
  simp only [State.startUnitHandler]
  split
  · split
    · split
      · exact (updCell s _).trans (startTrapHandler _ _ _ _ _)
      · exact refl s
    · exact (updCell s _).trans (failLaunch _ c _)
  · exact refl s

theorem unitTrap (s : State) (src : TrapSrc) (t : TrapRec) : s.QuietBut (s.unitTrap c src t) c := by
  unfold State.unitTrap
  split
  · exact failLaunch s c _
  · exact (updCell s _).trans (startUnitHandler _)

theorem counterTraps (s : State) : s.QuietBut (s.counterTraps c) c := by
  refine foldl (fun s a => ?_) _ s
  split
  · split
    · exact (updCell s _).trans (unitTrap _ _ _)
    · exact refl s
  · exact refl s

theorem testAll (s : State) : s.QuietBut (s.testAll c) c := by
  unfold State.testAll
  split
  · exact refl s
  · have hquiet := Quiet.acqOwed ((s.counterTraps c).updCell c fun x => { x.serve with acts := [] }) c
    exact ((counterTraps s).trans (updCell _ _)).trans ⟨hquiet.apart, fun d _ => hquiet.acts d⟩

end State.QuietBut

/-- The tests of a cell's counters leave nothing that has reached them. -/
theorem State.acts_testAll (s : State) (c : Nat) : ((s.testAll c).cell c).acts = [] := by
  unfold State.testAll
  split
  · next h => exact h
  · rw [(Quiet.acqOwed _ c).acts c, State.cell_updCell_same]

/-- Where nothing has reached the counters of a cell there is nothing to test. -/
theorem State.testAll_of_acts {s : State} {c : Nat} (h : (s.cell c).acts = []) : s.testAll c = s := if_pos h

theorem State.testBelow_of_acts {s : State} {c : Nat} (h : (s.cell c).acts = []) (slot : Nat) : s.testBelow c slot = s :=
  if_pos h

/-- Once cells have been tested nothing waits at theirs, and at the others what waited before. -/
theorem State.acts_foldl_testAll (l : List Nat) (s : State) (d : Nat) :
    ((l.foldl State.testAll s).cell d).acts = if d ∈ l then [] else (s.cell d).acts := by
  induction l generalizing s with
  | nil => simp
  | cons c l ih =>
    rw [List.foldl_cons, ih]
    by_cases hdl : d ∈ l
    · rw [if_pos hdl, if_pos (List.mem_cons_of_mem _ hdl)]
    · rw [if_neg hdl]
      by_cases hdc : d = c
      · subst hdc; rw [if_pos List.mem_cons_self, s.acts_testAll]
      · rw [if_neg (by simp [hdc, hdl]), (QuietBut.testAll s).acts d hdc]

/-- The end of a CCLK leaves nothing that has reached a counter. -/
theorem State.acts_closeCclk (s : State) (c : Nat) : (s.closeCclk.cell c).acts = [] := by
  rw [State.closeCclk, s.acts_foldl_testAll]
  split
  · rfl
  · next h => rw [State.cell, AMap.find_eq_none h]; rfl

theorem State.apart_closeCclk (s : State) : s.closeCclk.apart = s.apart :=
  List.foldlRecOn (motive := fun t => t.apart = s.apart) _ _ rfl fun t ht _ _ => (QuietBut.testAll t).apart.trans ht

/-- Where nothing has reached a counter the end of a CCLK tests nothing. -/
theorem State.closeCclk_of_acts {s : State} (h : ∀ e ∈ s.cells, e.2.acts = []) : s.closeCclk = s := by
  have hnone (c : Nat) : (s.cell c).acts = [] := by
    rw [State.cell]
    cases hc : s.cells.find c with
    | none => rfl
    | some x => exact h (c, x) (AMap.mem_of_find hc)
  refine List.foldlRecOn (motive := fun t => t = s) _ _ rfl fun t ht c _ => ?_
  rw [ht]
  exact State.testAll_of_acts (hnone c)

/-! ## The end of a step (00 R2) -/

theorem Cell.acts_watch (x : Cell) : x.watch.acts = x.acts := by
  unfold Cell.watch
  split
  · split <;> rfl
  · rfl

theorem Cell.acts_count (x : Cell) (src n : Nat) : (x.count src n).acts = x.acts := rfl

theorem Cell.acts_countStep (x : Cell) (now dt : Nat) : (x.countStep now dt).acts = x.acts := by
  simp only [Cell.countStep, apply_ite Cell.acts, Cell.acts_count, ite_self]

/-- The end of a step is that of its CCLK, time, and what is quiet. -/
theorem State.tick_eq (s : State) :
    ∃ u n, s.closeCclk.Quiet u ∧ 1 ≤ n ∧ s.tick = { u with now := s.now + n, fresh := s.fresh + 1 } := by
  let s2 := (s.closeCclk.cells.map Prod.fst).foldl State.holdBudgets s.closeCclk
  let s3 : State := { s2 with cells := s2.cells.map (fun e => (e.1, e.2.watch.countStep s2.now s2.stepTime)) }
  have h2 : s.closeCclk.Quiet s2 := Quiet.foldl Quiet.holdBudgets _ _
  have h3 : s2.Quiet s3 := Quiet.mapCells s2 fun x => (x.watch.acts_countStep _ _).trans x.acts_watch
  have hapart : s2.apart = s.apart := h2.apart.trans s.apart_closeCclk
  have hnow : s2.now = s.now := State.eq_of_apart State.now (fun _ => rfl) hapart
  have hfresh : s2.fresh = s.fresh := State.eq_of_apart State.fresh (fun _ => rfl) hapart
  refine ⟨s3.torusStep s2.stepTime, s2.stepTime, h2.trans (h3.trans (Quiet.torusStep s3 _)), Nat.le_add_left 1 _, ?_⟩
  rw [← hnow, ← hfresh]
  rfl

/-- The end of a step does what 00 R2 and 05 R89 say. -/
theorem timeGoesOn : Sys2Proof.Says.TimeGoesOn := by
  intro s
  obtain ⟨u, n, hu, hn, htick⟩ := s.tick_eq
  have hapart : u.apart = s.apart := hu.apart.trans s.apart_closeCclk
  rw [htick]
  have keeps {α : Type} (f : State → α) (hf : ∀ u, f u.apart = f u) : f u = f s := State.eq_of_apart f hf hapart
  refine ⟨⟨n, hn, rfl⟩, rfl, keeps State.agenda fun _ => rfl, keeps State.jobs fun _ => rfl,
    keeps State.queues fun _ => rfl, keeps State.works fun _ => rfl, keeps State.sessions fun _ => rfl,
    keeps State.excluded fun _ => rfl, fun hacts => ?_⟩
  rw [State.closeCclk_of_acts hacts] at hu
  exact ⟨hu.mem, keeps State.hostOut fun _ => rfl⟩

/-- The end of a step leaves nothing that has reached a counter. -/
theorem State.acts_tick (s : State) (c : Nat) : (s.tick.cell c).acts = [] := by
  obtain ⟨u, n, hu, -, htick⟩ := s.tick_eq
  rw [htick]
  exact (hu.acts c).trans (s.acts_closeCclk c)

/-! ## The turns of one CCLK -/

/-- A step with an outcome of its turns. -/
noncomputable def endOfStep (o : Host.Outcome State Fault Refusal) : Host.Outcome State Fault Refusal :=
  match o with
  | .next t => .next t.tick
  | .fault r => .fault r
  | .refused r => .refused r

theorem step_eq (s : State) : step s = endOfStep s.move := rfl

/-- A step whose turns the agenda names. -/
theorem step_of_agenda {s : State} {l : List Turn} {rest : List (List Turn)} (h : s.agenda = l :: rest) :
    step s = endOfStep (({ s with agenda := rest } : State).cclk l) := by
  rw [step_eq, State.move, h]

/-- A step that goes on has tested what has reached the counters. -/
theorem countersTested : Sys2Proof.Says.CountersTested := by
  refine ⟨fun _ => rfl, fun s t h c => ?_⟩
  rw [step_eq] at h
  cases hm : s.move with
  | next u =>
    rw [hm] at h
    cases h
    exact u.acts_tick c
  | fault r => rw [hm] at h; cases h
  | refused r => rw [hm] at h; cases h

theorem State.furtherTurns_nil (s : State) (before : List Turn) : s.furtherTurns before [] = .next s := by
  cases before <;> rfl

theorem eraseDups_singleton (t : Turn) : [t].eraseDups = [t] := by
  rw [List.eraseDups_cons]
  rfl

section
variable {t : Turn} {c : Nat} (hlast : t.expiry = false)
include hlast

/-- A CCLK in which only the Sequencer of a cell takes its turn: it comes once, whether or not its word adds to a counter. -/
theorem State.cclk_sequencer (s : State) (ht : t.stream? = some (c, .s)) : s.cclk [t] = s.turn t := by
  cases hfirst : (s.nextWord c).any fun w => addsToCounter w.2 <;> cases hturn : s.turn t <;>
    simp [State.cclk, eraseDups_singleton, ht, hlast, hfirst, hturn, State.turns, State.furtherTurns]

/-- A CCLK in which only a V or M stream takes its turn: its due words complete first. -/
theorem State.cclk_stream (s : State) {st : Stream} (ht : t.stream? = some (c, st)) (hst : st ≠ .s) :
    s.cclk [t] = (s.streamDue c st).turn t := by
  cases st with
  | s => exact absurd rfl hst
  | v =>
    cases hturn : (s.streamDue c .v).turn t <;>
      simp [State.cclk, eraseDups_singleton, ht, hlast, hturn, State.turns, State.furtherTurns]
  | m =>
    cases hturn : (s.streamDue c .m).turn t <;>
      simp [State.cclk, eraseDups_singleton, ht, hlast, hturn, State.turns, State.furtherTurns]

end

/-- A CCLK in which only a step without an encoding takes its turn, be it the end of a wait or another. -/
theorem State.cclk_event (s : State) (i : Instr) : s.cclk [.event i] = s.turn (.event i) := by
  have hnone : Turn.stream? (.event i) = none := rfl
  cases hlast : Turn.expiry (.event i) <;> cases hturn : s.turn (.event i) <;>
    simp [State.cclk, hnone, hlast, hturn, State.turns, State.furtherTurns]

/-- The turn of a step without an encoding runs that step (log 3). -/
theorem eventStep : Sys2Proof.Says.EventStep := by
  intro s i rest hagenda
  rw [step_of_agenda hagenda, State.cclk_event, State.turn]
  refine ⟨fun hnone => ?_, fun hsome => ?_⟩
  · rw [if_neg (by simp [hnone])]
    rfl
  · rw [if_pos (Option.isSome_iff_ne_none.2 hsome)]
    rfl

/-! ## A word runs as its decoded instruction (05 R73-R78) -/

/-- A word at which its stream may stand runs: in its block, or a header at a multiple of 4 outside one (05 R77). -/
theorem blockCheck_word {st : Stream} {pc : Word} {blk : Option Block} {b : List Byte} {i : Instr} {n : Nat}
    (branch : Option Word) (hdec : decodeBytes st b = .instr i n)
    (hplace : (∃ k, blk = some k ∧ (b.length = 4 → 4 ≤ (k.fin - pc).toNat) ∧ isBlkWord b = false) ∨
      (blk = none ∧ isBlkWord b = true ∧ pc.toNat % 4 = 0)) :
    blockCheck st pc blk branch b = .word i := by
  have hat : decodeAt st pc b = .word i := by rw [decodeAt, hdec]
  rcases hplace with ⟨k, rfl, hlen, hblk⟩ | ⟨rfl, hblk, halign⟩
  · have hroom : ¬(b.length = 4 ∧ (k.fin - pc).toNat < 4) := fun ⟨h4, hlt⟩ => absurd (hlen h4) (by omega)
    simp only [blockCheck, if_neg hroom, hblk, Bool.false_eq_true, if_false, hat]
  · have hfld : fld pc 1 0 = 0 := by rw [fld, Nat.pow_zero, Nat.div_one]; exact halign
    simp only [blockCheck, hblk, hfld, decide_true, Bool.and_self, if_true, hat]

/-! ### The Sequencer -/

/-- Where nothing has reached the counters of a cell its Sequencer issues without tests before it (16 R321). -/
theorem State.seqTurn_of_acts {s : State} {c : Nat} (h : (s.cell c).acts = []) : s.seqTurn c = s.issueSeq c := by
  unfold State.seqTurn
  simp only [State.testAll_of_acts h, State.testBelow_of_acts h, ite_self]
  split <;> rfl

/-- A fibre with no refusal, end or budget due issues the word that it fetches. -/
theorem State.issueWord_word {u : State} {b : List Byte} {i : Instr} {n : Nat} (hrefusals : u.fibre.body.refusals = [])
    (hending : u.fibre.body.ending = false) (hbudget : u.overBudget u.fibre.body = false)
    (hfetch : u.fetchWord u.myLaunch.job u.fibre.body.pc = .ok b) (hdec : decodeBytes .s b = .instr i n)
    (hplace : (∃ k, u.fibre.body.blk = some k ∧ (b.length = 4 → 4 ≤ (k.fin - u.fibre.body.pc).toNat) ∧
        isBlkWord b = false) ∨ (u.fibre.body.blk = none ∧ isBlkWord b = true ∧ u.fibre.body.pc.toNat % 4 = 0)) :
    u.issueWord = exec i (u.count u.cur.cell 2 1) := by
  have hcode : u.codeWord .s u.myLaunch.job u.fibre.body.pc u.fibre.body.blk = .ok b := hfetch
  have hword : u.fetch .s u.myLaunch.job u.fibre.body.pc u.fibre.body.blk u.fibre.body.branch = .word i := by
    rw [State.fetch, hcode]
    exact blockCheck_word _ hdec hplace
  simp only [State.issueWord, hrefusals, hending, hbudget, hword, ne_eq, not_true_eq_false, Bool.false_eq_true, if_false]

/-- When the budget of a fibre that the Sequencer has chosen counts from (04 R64). -/
def FBody.budgetFrom (b : FBody) (now : Nat) : Option Nat :=
  if b.kind.budgeted && b.since.isNone then some now else b.since

/-- The fibre that the Sequencer has chosen. -/
theorem State.fibre_begin (s : State) (c slot : Nat) :
    let f := (s.cell c).fibre slot
    (s.begin c slot).fibre = { f with status := .ready, body := { f.body with since := f.body.budgetFrom s.now } } := by
  simp only [State.begin, State.fibre_updFibre]
  rw [State.fibre_updHere _ _ rfl]
  rfl

/-- A word of a fibre runs as its decoded instruction. -/
theorem sequencerStep : Sys2Proof.Says.SequencerStep := by
  intro s c slot rest i b n r u f hagenda hacts hpick hrefusals hending hbudget hfetch hdec hplace
  have hfibre : u.fibre = _ := r.fibre_begin c slot
  have hissue : r.issueSeq c = u.issueWord := by rw [State.issueSeq, hpick]
  have hword := State.issueWord_word hrefusals hending hbudget hfetch hdec hplace
  rw [show u.cur.cell = c from rfl] at hword
  refine ⟨?_, rfl, rfl, ?_, ?_, ?_, ?_⟩
  · rw [step_of_agenda hagenda, State.cclk_sequencer rfl _ rfl, State.turn, State.seqTurn_of_acts (s := r) hacts, hissue,
      hword]
    rfl
  · rw [show f = u.fibre.body from rfl, hfibre]; rfl
  · rw [show f = u.fibre.body from rfl, hfibre]; rfl
  · rw [show f = u.fibre.body from rfl, hfibre]; rfl
  · rw [hfibre]

/-! ### The V and M streams -/

/-- An engine that waits for nothing issues the word at its PC. -/
theorem State.issueStream_word {s : State} {c : Nat} {st : Stream} {p : StreamPos} {i : Instr} {b : List Byte} {n : Nat}
    (r : State) (hr : r = { s with cur := { cell := c, slot := 0, stream := st } }) (hrun : r.eng.run = some p)
    (hruns : r.engineRuns c st = true) (hwait : r.eng.wait = none)
    (hcode : r.codeWord st r.myLaunch.job p.pc p.blk = .ok b) (hdec : decodeBytes st b = .instr i n)
    (hplace : (∃ k, p.blk = some k ∧ (b.length = 4 → 4 ≤ (k.fin - p.pc).toNat) ∧ isBlkWord b = false) ∨
      (p.blk = none ∧ isBlkWord b = true ∧ p.pc.toNat % 4 = 0))
    (htok : isTok i = true → r.tokFault st r.myLaunch.job p.pc p.blk = none) :
    s.issueStream c st = exec i (if st = .v then (r.capture st r.myLaunch.job p).count c 3 1
      else r.capture st r.myLaunch.job p) := by
  have hword : r.fetchStream st r.myLaunch.job p = .word i := by
    rw [State.fetchStream, State.fetch, hcode]
    simp only [blockCheck_word p.branch hdec hplace]
    split
    · next h => rw [htok h]
    · rfl
  subst hr
  simp only [State.issueStream, hrun, hruns, hwait, hword]
  cases st <;> rfl

/-- A captured word goes into the loop buffer of the acting engine and changes nothing else. -/
theorem Engine.capture_eq (e : Engine) (w : List Byte) : ∃ l, e.capture w = { e with loop := l } := by
  simp only [Engine.capture]
  split
  · exact ⟨e.loop, rfl⟩
  · split
    · exact ⟨none, rfl⟩
    · split
      · exact ⟨e.loop, rfl⟩
      · exact ⟨_, rfl⟩

/-- Two changes of the acting engine that agree on it are the same. -/
theorem State.updEng_congr {s : State} {f g : Engine → Engine} (h : f s.eng = g s.eng) : s.updEng f = s.updEng g := by
  unfold State.updEng State.updHere State.updCell
  unfold State.eng at h
  cases hst : s.cur.stream <;> simp only [hst] at h ⊢ <;> rw [show s.cell s.cur.cell = s.here from rfl, h]

theorem State.capture_eq {r : State} {st : Stream} {job : Nat} {p : StreamPos} {b : List Byte}
    (hcode : r.codeWord st job p.pc p.blk = .ok b) :
    ∃ l, r.capture st job p = r.updEng fun e => { e with loop := l } := by
  obtain ⟨l, hl⟩ := r.eng.capture_eq b
  refine ⟨l, ?_⟩
  rw [State.capture, hcode]
  exact State.updEng_congr hl

/-- The bytes of a word of a V or M stream come from the loop buffer of its engine or are fetched (05 R78). -/
theorem State.codeWord_from {r : State} {st : Stream} {job : Nat} {pc : Word} {blk : Option Block} {b : List Byte}
    (hst : st ≠ .s) (h : r.codeWord st job pc blk = .ok b) :
    r.fetchWord job pc = .ok b ∨ (r.here.engOf st).buffered blk pc = some b := by
  rw [State.codeWord, if_neg hst] at h
  split at h
  · next hbuf => cases h; exact .inr hbuf
  · exact .inl h

/-- A word of a V or M stream runs as its decoded instruction. -/
theorem streamStep : Sys2Proof.Says.StreamStep := by
  intro s c st rest p i b n d r u hagenda hst hrun hruns hwait hcode hdec hplace htok
  have hvm : st = .v ∨ st = .m := by cases st <;> simp_all
  have heng : r.here.engOf st = r.eng := by rcases hvm with rfl | rfl <;> rfl
  refine ⟨?_, State.capture_eq hcode, heng ▸ State.codeWord_from hst hcode⟩
  have hissue := State.issueStream_word r rfl hrun hruns hwait hcode hdec hplace htok
  have hturn : d.turn (if st = .v then .issueV c else .issueM c) = exec i (if st = .v then u.count c 3 1 else u) := by
    rcases hvm with rfl | rfl <;> exact hissue
  have hstream : Turn.stream? (if st = .v then .issueV c else .issueM c) = some (c, st) := by
    rcases hvm with rfl | rfl <;> rfl
  have hlast : Turn.expiry (if st = .v then .issueV c else .issueM c) = false := by split <;> rfl
  rw [step_of_agenda hagenda, State.cclk_stream hlast _ hstream hst, hturn]
  rfl

/-- Settles O58 from its five parts. -/
theorem stepsRunDecodedWords : Obligations.StepsRunDecodedWords := by
  unfold Obligations.StepsRunDecodedWords
  exact ⟨sequencerStep, streamStep, eventStep, countersTested, timeGoesOn⟩

end Sys2Proof.Machine
end

section
/-!
PROOFS. The decoder: which rows take a word, and the words of the shifts by a constant.
-/

namespace Sys2Proof

/-! ## Rows and words -/

/-- What a word must hold in each bit for the pieces of an encoding: a fixed bit, or any. -/
def Seg.bits : List Seg → List (Option Bool)
  | [] => []
  | .fix n c :: r => (List.range n).map (fun j => some (c.testBit j)) ++ bits r
  | .op n :: r => List.replicate n none ++ bits r

/-- Two encodings ask for different values of one bit. -/
def Seg.clash (p q : List Seg) : Bool :=
  ((Seg.bits p).zip (Seg.bits q)).any fun e => e == (some true, some false) || e == (some false, some true)

/-- A word that an encoding takes holds its fixed bits. -/
theorem testBit_of_unpackSegs {segs : List Seg} {w : Nat} {vs : List Nat} (h : unpackSegs segs w = some vs) {j : Nat} {b : Bool}
    (hb : (Seg.bits segs)[j]? = some (some b)) : w.testBit j = b := by
  induction segs generalizing w vs j with
  | nil => simp [Seg.bits] at hb
  | cons x r ih =>
    have hdiv (n : Nat) (hj : n ≤ j) : w.testBit j = (w / 2 ^ n).testBit (j - n) := by
      rw [← Nat.shiftRight_eq_div_pow, Nat.testBit_shiftRight, Nat.add_sub_cancel' hj]
    cases x with
    | fix n c =>
      rw [unpackSegs] at h
      split at h
      · next hc =>
        rw [Seg.bits, List.getElem?_append] at hb
        simp only [List.length_map, List.length_range] at hb
        split at hb
        · next hj =>
          rw [← hc] at hb
          simpa [hj, Nat.testBit_mod_two_pow] using hb
        · next hj => rw [hdiv n (by omega)]; exact ih h hb
      · cases h
    | op n =>
      rw [unpackSegs] at h
      obtain ⟨us, hu, -⟩ := Option.map_eq_some_iff.mp h
      rw [Seg.bits, List.getElem?_append] at hb
      simp only [List.length_replicate] at hb
      split at hb
      · next hj => simp [hj] at hb
      · next hj => rw [hdiv n (by omega)]; exact ih hu hb

/-- Encodings that clash take no common word. -/
theorem unpackSegs_of_clash {p q : List Seg} {w : Nat} {vs : List Nat} (hclash : Seg.clash p q = true)
    (hq : unpackSegs q w = some vs) : unpackSegs p w = none := by
  obtain ⟨⟨x, y⟩, hmem, hxy⟩ := List.any_eq_true.mp hclash
  obtain ⟨j, hj⟩ := List.mem_iff_getElem?.mp hmem
  obtain ⟨hx, hy⟩ := List.getElem?_zip_eq_some.mp hj
  rw [Option.eq_none_iff_forall_ne_some]
  intro us hp
  simp only [Bool.or_eq_true, beq_iff_eq, Prod.mk.injEq] at hxy
  rcases hxy with ⟨rfl, rfl⟩ | ⟨rfl, rfl⟩ <;>
    exact absurd ((testBit_of_unpackSegs hp hx).symm.trans (testBit_of_unpackSegs hq hy)) (by decide)

/-- What the rows decode comes from one of them. -/
theorem exists_row_of_decodeRows {st : Stream} {nbits w : Nat} {rows : List Row} {i : Instr}
    (h : decodeRows st nbits w rows = some i) : ∃ r ∈ rows, ∃ vs, unpackSegs r.segs w = some vs ∧ r.build vs = some i := by
  induction rows with
  | nil => cases h
  | cons r rs ih =>
    have later (h : decodeRows st nbits w rs = some i) :
        ∃ q ∈ r :: rs, ∃ vs, unpackSegs q.segs w = some vs ∧ q.build vs = some i :=
      let ⟨q, hq, hvs⟩ := ih h
      ⟨q, List.mem_cons_of_mem r hq, hvs⟩
    rw [decodeRows] at h
    split at h
    · split at h
      · next j hj =>
        split at h
        · cases h; exact ⟨r, List.mem_cons_self, Option.bind_eq_some_iff.mp hj⟩
        · exact later h
      · exact later h
    · exact later h

/-- The first row that takes a word decodes it, where the rows before it clash with it. -/
theorem decodeRows_of_clash {st : Stream} {nbits w : Nat} {before after : List Row} {r : Row} {vs : List Nat} {i : Instr}
    (hbefore : ∀ q ∈ before, Seg.clash q.segs r.segs = true) (hn : r.nbits = nbits) (hw : unpackSegs r.segs w = some vs)
    (hi : r.build vs = some i) (hwf : i.wf st = true) : decodeRows st nbits w (before ++ r :: after) = some i := by
  induction before with
  | nil => simp [decodeRows, hn, hw, hi, hwf]
  | cons q qs ih =>
    have hq := unpackSegs_of_clash (hbefore q List.mem_cons_self) hw
    have hqs := ih fun x hx => hbefore x (List.mem_cons_of_mem q hx)
    simp [decodeRows, hq, hqs]

/-- A word of 32 bits is read by the rows of its stream where bit 15 is set (05 R75). -/
theorem decodeIn_32 (st : Stream) {w : Nat} (hw : w < 2 ^ 32) :
    decodeIn st 32 w = if w / 32768 % 2 = 0 then none else decodeWord st 32 w := by
  have hlow : (BitVec.ofNat 8 w).toNat + 256 * (BitVec.ofNat 8 (w / 256)).toNat = w % 65536 := by
    simp only [BitVec.toNat_ofNat]; omega
  have hall : w % 65536 + 65536 * ((BitVec.ofNat 8 (w / 65536)).toNat + 256 * (BitVec.ofNat 8 (w / 16777216)).toNat) = w := by
    simp only [BitVec.toNat_ofNat]; omega
  have hlen : lengthOf (w % 65536) = if w / 32768 % 2 = 0 then 16 else 32 := by
    unfold lengthOf
    rw [show w % 65536 / 32768 % 2 = w / 32768 % 2 by omega]
  simp only [decodeIn, wordBytes, decodeBytes, hlow, hall, hlen]
  by_cases hbit : w / 32768 % 2 = 0
  · simp only [hbit, if_true]
    cases decodeWord st 16 (w % 65536) <;> rfl
  · simp only [hbit, if_false]
    cases decodeWord st 32 w <;> rfl

/-! ## The rows of the S stream -/

/-- Whatever a row builds is laid out by that row. -/
def Row.LaysOut (r : Row) : Prop := ∀ vs i, r.build vs = some i → i.layout.map Prod.fst = some r

/-- Row by row: a row's build is none or one constructor over its decoded operands, and the layout of that constructor names
the row. -/
theorem rowsS32_layOut : ∀ r ∈ rowsS32, r.LaysOut := by
  simp only [rowsS32, rowsS320, rowsS321, rowsS322, rowsS323, List.forall_mem_append, List.forall_mem_cons,
    List.not_mem_nil, false_implies, implies_true, and_true]
  repeat' apply And.intro
  all_goals
    intro vs
    conv in Row.build _ _ => whnf
    split
    · simp only [Option.bind_eq_some_iff, Option.some.injEq, forall_exists_index, and_imp, forall_eq']
      intros
      subst_vars
      rfl
    · exact fun _ h => nomatch h

/-- A word of 32 bits that the S stream decodes fits the pieces of the row of its instruction, which has its operands. -/
theorem fits_of_decodeIn_s {w : Nat} {i : Instr} {r : Row} {us : List Nat} (hw : w < 2 ^ 32) (hi : i.layout = some (r, us))
    (h : decodeIn .s 32 w = some i) : ∃ vs, unpackSegs r.segs w = some vs ∧ r.build vs = some i := by
  rw [decodeIn_32 .s hw] at h
  split at h
  · cases h
  · obtain ⟨q, hq, vs, hvs, hb⟩ := exists_row_of_decodeRows h
    have hqr := rowsS32_layOut q hq vs i hb
    rw [hi] at hqr
    cases hqr
    exact ⟨vs, hvs, hb⟩

/-! ## The shifts by a constant (06 R112) -/

/-- The pieces of the shift whose code is `k`: ra, rd, the major opcode, the amount, the code. -/
def shiftSegs (k : Nat) : List Seg := [.fix 3 0, .op 3, .op 3, .fix 7 71, .op 6, .fix 10 k]

/-- The row of the shift whose code is `k`. -/
def shiftRow (k : Nat) (c : BitVec 6 → GReg → GReg → Instr) : Row :=
  ⟨32, shiftSegs k, fun
    | [a, d, n] => some (c (BitVec.ofNat 6 n) (Fin.ofNat 8 d) (Fin.ofNat 8 a))
    | _ => none⟩

/-- The words that the pieces of a shift take, and their fields. -/
theorem unpackSegs_shiftSegs {k w : Nat} {vs : List Nat} (hk : k < 4) :
    unpackSegs (shiftSegs k) w = some vs ↔
      ∃ a d n, a < 8 ∧ d < 8 ∧ n < 64 ∧ w = 0x8E00 + 64 * d + 8 * a + 2 ^ 16 * n + 2 ^ 22 * k ∧ vs = [a, d, n] := by
  simp only [shiftSegs, unpackSegs, Option.map_eq_some_iff, Option.ite_none_right_eq_some]
  constructor
  · rintro ⟨h0, us1, ⟨us2, ⟨h3, us3, ⟨hk', hend, hus⟩, rfl⟩, rfl⟩, rfl⟩
    cases hus
    exact ⟨w / 8 % 8, w / 64 % 8, w / 65536 % 64, by omega, by omega, by omega, by omega, by simp [Nat.div_div_eq_div_mul]⟩
  · rintro ⟨a, d, n, ha, hd, hn, rfl, rfl⟩
    refine ⟨by omega, [d, n], ⟨[n], ⟨by omega, [], ⟨by omega, by omega, rfl⟩, ?_⟩, ?_⟩, ?_⟩
    · congr 1; omega
    · congr 1; omega
    · congr 1; omega

/-- The word of a shift by a constant: its row takes that word alone, and every row before it clashes. -/
theorem decodeIn_shift_iff {c : BitVec 6 → GReg → GReg → Instr} {k w : Nat} {n : BitVec 6} {d a : GReg}
    (hk : k < 4) (hw : w < 2 ^ 32) (hrow : rowsS32[36 + k]? = some (shiftRow k c))
    (hbefore : (rowsS32.take (36 + k)).all (fun q => Seg.clash q.segs (shiftSegs k)) = true)
    (hwf : (c n d a).wf .s = true) (hlay : (c n d a).layout = some (shiftRow k c, [a.val, d.val, n.toNat]))
    (hc : ∀ n' d' a', c n' d' a' = c n d a → n' = n ∧ d' = d ∧ a' = a) :
    decodeIn .s 32 w = some (c n d a) ↔ w = 0x8E00 + 64 * d.val + 8 * a.val + 2 ^ 16 * n.toNat + 2 ^ 22 * k := by
  constructor
  · intro h
    obtain ⟨vs, hvs, hb⟩ := fits_of_decodeIn_s hw hlay h
    obtain ⟨a', d', n', ha, hd, hn, rfl, rfl⟩ := (unpackSegs_shiftSegs hk).mp hvs
    obtain ⟨rfl, rfl, rfl⟩ := hc _ _ _ (Option.some.inj hb)
    simp only [Fin.val_ofNat, BitVec.toNat_ofNat]
    omega
  · intro h
    have hword : unpackSegs (shiftSegs k) w = some [a.val, d.val, n.toNat] :=
      (unpackSegs_shiftSegs hk).mpr ⟨_, _, _, a.isLt, d.isLt, n.isLt, h, rfl⟩
    have hbuild : (shiftRow k c).build [a.val, d.val, n.toNat] = some (c n d a) := by simp [shiftRow]
    obtain ⟨hlen, hget⟩ := List.getElem?_eq_some_iff.mp hrow
    have hrows : rowsS32 = rowsS32.take (36 + k) ++ shiftRow k c :: rowsS32.drop (36 + k + 1) := by
      rw [← hget, ← List.drop_eq_getElem_cons, List.take_append_drop]
    rw [decodeIn_32 .s hw, if_neg (by omega), decodeWord, show rowsOf .s 32 = rowsS32 from rfl, hrows]
    exact decodeRows_of_clash (List.all_eq_true.mp hbefore) rfl hword hbuild hwf

end Sys2Proof
end

section
/-!
PROOFS. Arithmetic of the Sequencer: words of two sources and counts of bits (O1), division (O2), immediate and compact forms
(O3).
-/

namespace Sys2Proof.Machine

open Sys2Proof

/-! ## Arithmetic on registers (06 Tables 6.1 and 6.2) -/

/-- A register-register word whose result is `v` writes rd with `v`, however the statement spells `v`. -/
theorem State.writes_alu {s : State} {i : Instr} {d : GReg} {v w : Word} {len lat : Nat}
    (h : exec i s = aluWord d v len lat s) (hv : v = w) : s.Writes i d w len lat :=
  hv ▸ s.writes_of h

/-! ### Products -/

/-- The high half of a 128-bit number is its quotient by 2^64, rounded down. -/
theorem extractLsb'_ofInt_eq_ediv (z : Int) :
    (BitVec.ofInt 128 z).extractLsb' 64 64 = BitVec.ofInt 64 (z / 2 ^ 64) := by
  apply BitVec.eq_of_toNat_eq
  simp only [BitVec.extractLsb'_toNat, BitVec.toNat_ofInt, Nat.shiftRight_eq_div_pow]
  omega

theorem mulHi_eq (x y : Word) : mulHi x y = (x.signExtend 128 * y.signExtend 128).extractLsb' 64 64 := by
  rw [BitVec.signExtend, BitVec.signExtend, ← BitVec.ofInt_mul, extractLsb'_ofInt_eq_ediv, mulHi]

theorem mulHiU_eq (x y : Word) : mulHiU x y = (x.setWidth 128 * y.setWidth 128).extractLsb' 64 64 := by
  have hx : x.toNat % 2 ^ 128 = x.toNat := Nat.mod_eq_of_lt (by omega)
  have hy : y.toNat % 2 ^ 128 = y.toNat := Nat.mod_eq_of_lt (by omega)
  have hxy : x.toNat * y.toNat < 2 ^ 128 :=
    Nat.lt_of_lt_of_eq (Nat.mul_lt_mul'' x.isLt y.isLt) (Nat.pow_add 2 64 64).symm
  apply BitVec.eq_of_toNat_eq
  simp only [mulHiU, BitVec.toNat_ofNat, BitVec.extractLsb'_toNat, BitVec.toNat_mul, BitVec.toNat_setWidth,
    Nat.shiftRight_eq_div_pow, hx, hy, Nat.mod_eq_of_lt hxy]

/-! ### Shift amounts, comparisons and extensions -/

theorem shAmt_eq (y : Word) : shAmt y = (y.extractLsb' 0 6).toNat := by simp [shAmt]

/-- A choice by "less" is the choice by "at most" where a tie makes no difference. -/
theorem ite_eq_ite_of_tie {less atMost : Prop} [Decidable less] [Decidable atMost] {p q : Word} (hle : less → atMost)
    (htie : atMost → ¬less → p = q) : (if less then p else q) = if atMost then p else q := by
  by_cases h : less
  · rw [if_pos h, if_pos (hle h)]
  · rw [if_neg h]
    split
    · next h' => exact (htie h' h).symm
    · rfl

/-- Words that tie as signed numbers are equal. -/
theorem eq_of_toInt_tie {x y : Word} (hle : x.toInt ≤ y.toInt) (hlt : ¬x.toInt < y.toInt) : x = y :=
  BitVec.eq_of_toInt_eq (Int.le_antisymm hle (Int.not_lt.mp hlt))

/-- Words that tie as unsigned numbers are equal. -/
theorem eq_of_toNat_tie {x y : Word} (hle : x.toNat ≤ y.toNat) (hlt : ¬x.toNat < y.toNat) : x = y :=
  BitVec.eq_of_toNat_eq (Nat.le_antisymm hle (Nat.not_lt.mp hlt))

theorem minS_eq (x y : Word) : minS x y = if x.toInt ≤ y.toInt then x else y := by
  simp only [minS, BitVec.slt, decide_eq_true_eq]
  exact ite_eq_ite_of_tie Int.le_of_lt eq_of_toInt_tie

theorem maxS_eq (x y : Word) : maxS x y = if x.toInt ≤ y.toInt then y else x := by
  simp only [maxS, BitVec.slt, decide_eq_true_eq]
  exact ite_eq_ite_of_tie Int.le_of_lt fun hle hlt => (eq_of_toInt_tie hle hlt).symm

theorem minU_eq (x y : Word) : minU x y = if x.toNat ≤ y.toNat then x else y := by
  simp only [minU, BitVec.ult, decide_eq_true_eq]
  exact ite_eq_ite_of_tie Nat.le_of_lt eq_of_toNat_tie

theorem maxU_eq (x y : Word) : maxU x y = if x.toNat ≤ y.toNat then y else x := by
  simp only [maxU, BitVec.ult, decide_eq_true_eq]
  exact ite_eq_ite_of_tie Nat.le_of_lt fun hle hlt => (eq_of_toNat_tie hle hlt).symm

theorem boolW_slt (x y : Word) : boolW (x.slt y) = if x.toInt < y.toInt then 1 else 0 := by simp [boolW, BitVec.slt]
theorem boolW_ult (x y : Word) : boolW (x.ult y) = if x.toNat < y.toNat then 1 else 0 := by simp [boolW, BitVec.ult]
theorem boolW_beq (x y : Word) : boolW (x == y) = if x = y then 1 else 0 := by simp [boolW]

theorem sextW_eq (x : Word) :
    sextW .b x = (x.extractLsb' 0 8).signExtend 64 ∧ sextW .h x = (x.extractLsb' 0 16).signExtend 64 ∧
    sextW .w x = (x.extractLsb' 0 32).signExtend 64 := by
  refine ⟨?_, ?_, ?_⟩ <;> exact congrArg (BitVec.signExtend 64) (BitVec.setWidth_eq_extractLsb' (by decide))

theorem zextW_eq (x : Word) :
    zextW .b x = (x.extractLsb' 0 8).setWidth 64 ∧ zextW .h x = (x.extractLsb' 0 16).setWidth 64 ∧
    zextW .w x = (x.extractLsb' 0 32).setWidth 64 := by
  refine ⟨?_, ?_, ?_⟩ <;> exact congrArg (BitVec.setWidth 64) (BitVec.setWidth_eq_extractLsb' (by decide))

/-- The words of two sources but division. -/
theorem scalarRegisterWords : Sys2Proof.Says.ScalarRegisterWords := by
  intro s d a b
  obtain ⟨sext8, sext16, sext32⟩ := sextW_eq (s.g a)
  obtain ⟨zext8, zext16, zext32⟩ := zextW_eq (s.g a)
  have hn := shAmt_eq (s.g b)
  exact ⟨s.writes_of rfl, s.writes_of rfl, s.writes_of rfl, s.writes_alu rfl (mulHi_eq _ _), s.writes_alu rfl (mulHiU_eq _ _),
    s.writes_of rfl, s.writes_of rfl, s.writes_of rfl, s.writes_of rfl,
    s.writes_alu rfl (congrArg (s.g a <<< ·) hn), s.writes_alu rfl (congrArg (s.g a >>> ·) hn),
    s.writes_alu rfl (congrArg (s.g a).sshiftRight hn), s.writes_alu rfl (congrArg (s.g a).rotateLeft hn),
    s.writes_alu rfl (minS_eq _ _), s.writes_alu rfl (maxS_eq _ _), s.writes_alu rfl (minU_eq _ _),
    s.writes_alu rfl (maxU_eq _ _), s.writes_alu rfl (boolW_slt _ _), s.writes_alu rfl (boolW_ult _ _),
    s.writes_alu rfl (boolW_beq _ _), s.writes_alu rfl sext8, s.writes_alu rfl sext16, s.writes_alu rfl sext32,
    s.writes_alu rfl zext8, s.writes_alu rfl zext16, s.writes_alu rfl zext32⟩

/-! ### Bit counts -/

/-- Among the low `n` bits, the leading zeros are followed by a one, unless all `n` are zeros. -/
theorem clzFrom_spec (x : Word) (n : Nat) :
    clzFrom x n ≤ n ∧ (∀ i, i < n → n ≤ i + clzFrom x n → x.getLsbD i = false) ∧
    (clzFrom x n < n → x.getLsbD (n - 1 - clzFrom x n) = true) := by
  induction n with
  | zero => simp [clzFrom]
  | succ n ih =>
    obtain ⟨hle, hzeros, hone⟩ := ih
    by_cases h : x.getLsbD n = true
    · simp only [clzFrom, h, if_true]
      exact ⟨by omega, fun i _ _ => by omega, fun _ => h⟩
    · simp only [clzFrom, h, Bool.false_eq_true, if_false]
      refine ⟨by omega, fun i hi hn => ?_, fun hlt => ?_⟩
      · rcases Nat.lt_succ_iff_lt_or_eq.mp hi with hi | rfl
        · exact hzeros i hi (by omega)
        · simpa using h
      · simpa [Nat.sub_sub, Nat.add_comm] using hone (by omega)

/-- From bit `i` on, the trailing zeros are followed by a one, unless all `n` bits are zeros. -/
theorem ctzFrom_spec (x : Word) (i n : Nat) :
    ctzFrom x i n ≤ n ∧ (∀ j, i ≤ j → j < i + ctzFrom x i n → x.getLsbD j = false) ∧
    (ctzFrom x i n < n → x.getLsbD (i + ctzFrom x i n) = true) := by
  induction n generalizing i with
  | zero => simp [ctzFrom]; omega
  | succ n ih =>
    obtain ⟨hle, hzeros, hone⟩ := ih (i + 1)
    by_cases h : x.getLsbD i = true
    · simp only [ctzFrom, h, if_true]
      exact ⟨by omega, fun j _ _ => by omega, fun _ => h⟩
    · simp only [ctzFrom, h, Bool.false_eq_true, if_false]
      refine ⟨by omega, fun j hi hj => ?_, fun hlt => ?_⟩
      · rcases Nat.eq_or_lt_of_le hi with rfl | hi
        · simpa using h
        · exact hzeros j hi (by omega)
      · have := hone (by omega)
        rwa [Nat.add_assoc, Nat.add_comm 1] at this

theorem popFrom_eq (x : Word) (n : Nat) : popFrom x n = ((List.range n).filter (fun i => x.getLsbD i)).length := by
  induction n with
  | zero => rfl
  | succ n ih =>
    rw [popFrom, ih, List.range_succ, List.filter_append, List.length_append, Nat.add_comm]
    cases h : x.getLsbD n <;> simp [b2n, h]

/-- CLZ, CTZ and POPC count what the loops over the 64 bits count. -/
theorem scalarBitCounts : Sys2Proof.Says.ScalarBitCounts := by
  intro s d a
  obtain ⟨hclz, hleading, htop⟩ := clzFrom_spec (s.g a) 64
  obtain ⟨hctz, htrailing, hlow⟩ := ctzFrom_spec (s.g a) 0 64
  refine ⟨⟨_, hclz, s.writes_of rfl, hleading, htop⟩, ⟨_, hctz, s.writes_of rfl, fun i hi => ?_, fun hlt => ?_⟩, ?_⟩
  · exact htrailing i (Nat.zero_le i) (by omega)
  · simpa using hlow hlt
  · exact s.writes_alu rfl (congrArg w64 (popFrom_eq (s.g a) 64))

/-- Settles O1 from its two parts. -/
theorem scalarArithmetic : Obligations.ScalarArithmetic := by
  unfold Obligations.ScalarArithmetic
  exact ⟨scalarRegisterWords, scalarBitCounts⟩

/-! ## Division (06 R110) -/

theorem divS_of_ne_zero {x y : Word} (hy : y ≠ 0) : divS x y = x.sdiv y := by
  apply BitVec.eq_of_toInt_eq
  rw [divS, if_neg hy, BitVec.toInt_ofInt, BitVec.toInt_sdiv]

theorem remS_eq_srem (x y : Word) : remS x y = x.srem y := by
  rw [remS]
  split
  · next h => rw [h]; exact BitVec.srem_zero.symm
  · rw [← BitVec.toInt_srem, BitVec.ofInt_toInt]

theorem divU_of_ne_zero {x y : Word} (hy : y ≠ 0) : divU x y = x / y := by
  apply BitVec.eq_of_toNat_eq
  rw [divU, if_neg hy, BitVec.toNat_udiv, BitVec.toNat_ofNat]
  exact Nat.mod_eq_of_lt (Nat.lt_of_le_of_lt (Nat.div_le_self _ _) x.isLt)

theorem remU_eq_umod (x y : Word) : remU x y = x % y := by
  rw [remU]
  split
  · next h => rw [h]; exact BitVec.umod_zero.symm
  · exact BitVec.eq_of_toNat_eq (by
      rw [BitVec.toNat_ofNat, BitVec.toNat_umod]
      exact Nat.mod_eq_of_lt (Nat.lt_of_le_of_lt (Nat.mod_le _ _) x.isLt))

/-- A remainder of division rounded toward zero is 0 or has the sign of the dividend. -/
theorem tmod_sign (a b : Int) : a.tmod b = 0 ∨ (a.tmod b < 0 ↔ a < 0) := by
  have h := Int.sign_tmod a b
  split at h
  · exact .inl (Int.sign_eq_zero_iff_zero.mp h)
  · exact .inr (by rw [← Int.sign_eq_neg_one_iff_neg, h, Int.sign_eq_neg_one_iff_neg])

/-- Signed division by a divisor that is not 0, where the quotient is a word. -/
theorem divS_remS_spec {x y : Word} (hy : y ≠ 0) (hover : ¬(x = 0x8000000000000000 ∧ y = 0xFFFFFFFFFFFFFFFF)) :
    x.toInt = (divS x y).toInt * y.toInt + (remS x y).toInt ∧ (remS x y).toInt.natAbs < y.toInt.natAbs ∧
    ((remS x y).toInt = 0 ∨ ((remS x y).toInt < 0 ↔ x.toInt < 0)) := by
  have hq : (divS x y).toInt = x.toInt.tdiv y.toInt := by
    rw [divS_of_ne_zero hy]
    exact BitVec.toInt_sdiv_of_ne_or_ne x y (Decidable.not_and_iff_not_or_not.mp hover)
  have hpos : 0 < y.toInt.natAbs := Int.natAbs_pos.mpr fun h => hy (BitVec.eq_of_toInt_eq h)
  rw [hq, remS_eq_srem, BitVec.toInt_srem, Int.natAbs_tmod]
  exact ⟨(Int.tdiv_mul_add_tmod _ _).symm, Nat.mod_lt _ hpos, tmod_sign _ _⟩

/-- Unsigned division by a divisor that is not 0. -/
theorem divU_remU_spec {x y : Word} (hy : y ≠ 0) :
    x.toNat = (divU x y).toNat * y.toNat + (remU x y).toNat ∧ (remU x y).toNat < y.toNat := by
  have hpos : 0 < y.toNat := Nat.pos_of_ne_zero fun h => hy (BitVec.eq_of_toNat_eq h)
  rw [divU_of_ne_zero hy, remU_eq_umod, BitVec.toNat_udiv, BitVec.toNat_umod]
  exact ⟨(Nat.div_add_mod' _ _).symm, Nat.mod_lt _ hpos⟩

/-- Settles O2, by the divisor: 0, −1 under the most negative number, or any other. -/
theorem scalarDivision : Obligations.ScalarDivision := by
  unfold Obligations.ScalarDivision
  intro s d a b
  refine ⟨divS (s.g a) (s.g b), remS (s.g a) (s.g b), divU (s.g a) (s.g b), remU (s.g a) (s.g b),
    s.writes_of rfl, s.writes_of rfl, s.writes_of rfl, s.writes_of rfl, fun h => ?_, fun ⟨hx, hy⟩ => ?_,
    fun ⟨hy, hover⟩ => divS_remS_spec hy hover, divU_remU_spec⟩
  · rw [h]
    exact ⟨rfl, rfl, rfl, rfl⟩
  · rw [hx, hy]
    decide

/-! ## Immediate and compact forms (06 R111-R113, R128) -/

/-- The bits of a halfword that stands at halfword `k` of a word. -/
theorem getLsbD_halfword {x k j : Nat} (hx : x < 2 ^ 16) (hj : j < 64) :
    (w64 (x * 2 ^ (16 * k))).getLsbD j = (decide (j / 16 = k) && x.testBit (j % 16)) := by
  rw [BitVec.getLsbD_ofNat, decide_eq_true hj, Bool.true_and, ← Nat.shiftLeft_eq, Nat.testBit_shiftLeft]
  by_cases hk : j / 16 = k
  · rw [show j % 16 = j - 16 * k by omega]
    simp [hk, show 16 * k ≤ j by omega]
  · rcases Nat.lt_or_gt_of_ne hk with h | h
    · simp [hk, show ¬16 * k ≤ j by omega]
    · have hzero : x.testBit (j - 16 * k) = false :=
        Nat.testBit_lt_two_pow (Nat.lt_of_lt_of_le hx (Nat.pow_le_pow_right (by omega) (by omega)))
      simp [hk, hzero]

/-- LIK replaces halfword `k` and keeps the other bits. -/
theorem getLsbD_putHalf (old : Word) (h : BitVec 16) (k : Fin 4) {j : Nat} (hj : j < 64) :
    (putHalf old h k).getLsbD j = if j / 16 = k.val then h.getLsbD (j % 16) else old.getLsbD j := by
  have hmask : (0xFFFF).testBit (j % 16) = true := by
    have : j % 16 < 16 := Nat.mod_lt _ (by omega)
    exact (Nat.testBit_two_pow_sub_one 16 (j % 16)).trans (decide_eq_true this)
  rw [putHalf, BitVec.getLsbD_or, BitVec.getLsbD_and, BitVec.getLsbD_not, getLsbD_halfword (by decide) hj,
    getLsbD_halfword h.isLt hj, hmask, BitVec.testBit_toNat]
  split <;> simp [*]

theorem scalarImmediates : Sys2Proof.Says.ScalarImmediates := by
  intro s d a i n h k
  refine ⟨s.writes_of rfl, s.writes_of rfl, s.writes_of rfl, s.writes_of rfl, s.writes_alu rfl (boolW_slt _ _),
    s.writes_alu rfl (boolW_ult _ _), s.writes_of rfl, s.writes_of rfl, s.writes_of rfl, s.writes_of rfl,
    fun w hw => ⟨?_, ?_, ?_, ?_⟩, s.writes_of rfl,
    ⟨_, s.writes_of rfl, fun j hj => getLsbD_putHalf _ h k hj⟩, s.onlyGoesOn_of rfl⟩
  · exact decodeIn_shift_iff (k := 0) (by decide) hw rfl rfl rfl rfl (by simp)
  · exact decodeIn_shift_iff (k := 1) (by decide) hw rfl rfl rfl rfl (by simp)
  · exact decodeIn_shift_iff (k := 2) (by decide) hw rfl rfl rfl rfl (by simp)
  · exact decodeIn_shift_iff (k := 3) (by decide) hw rfl rfl rfl rfl (by simp)

theorem compactArithmetic : Sys2Proof.Says.CompactArithmetic := by
  intro s a b c i n j
  exact ⟨s.writes_alu rfl BitVec.or_self, s.writes_of rfl, s.writes_of rfl, s.writes_of rfl, s.writes_of rfl, s.writes_of rfl,
    s.writes_of rfl, s.writes_of rfl, s.writes_of rfl, s.writes_of rfl, s.onlyGoesOn_of rfl⟩

/-- Settles O3 from its two parts. -/
theorem immediateForms : Obligations.ImmediateForms := by
  unfold Obligations.ImmediateForms
  exact ⟨scalarImmediates, compactArithmetic⟩

end Sys2Proof.Machine
end

section
/-!
PROOFS. The words that end, yield and start fibres (O5).
-/

namespace Sys2Proof.Machine

open Sys2Proof

/-! ## A word that parks (04 R61) -/

theorem State.onlyHere_updFibre (s : State) (f : Fibre → Fibre) : s.OnlyHere (s.updFibre f) :=
  (s.onlyFibre_updFibre f).toOnlyHere

theorem State.onlyHere_park (s : State) (p : Park) : s.OnlyHere (s.park p) :=
  (s.onlyHere_updHere _).trans (State.onlyHere_updFibre _ _)

/-- Of its cell a word that parks changes its fibre and the count that orders waits. -/
theorem State.here_park (s : State) (p : Park) :
    (s.park p).here = { s.here with fibres := (s.park p).here.fibres, nextOrder := s.here.nextOrder + 1 } := by
  simp [State.park, Cell.setFibre]

theorem State.fibre_park (s : State) (p : Park) :
    (s.park p).fibre.body = s.fibre.body ∧ (s.park p).fibre.status = .parked p s.now := by
  have hf : (s.updHere fun c => { c with nextOrder := c.nextOrder + 1 }).fibre = s.fibre := s.fibre_updHere _ rfl
  rw [State.park, State.fibre_updFibre, hf]
  exact ⟨rfl, rfl⟩

/-! ## The end of a fibre, YIELD and FIBID (06 R118-R120) -/

/-- The region of the fibre that acts goes back to its launch (11 R222). -/
def State.regionBack (s : State) : State :=
  match s.fibre.body.priv, s.here.launch with
  | some base, some l => s.updLaunch l fun x => { x with regions := x.regions.erase base }
  | _, _ => s

theorem State.endFibre_task (s : State) (hkind : s.fibre.body.kind = .task) :
    s.endFibre s.cur.cell s.cur.slot = s.regionBack.updCell s.cur.cell fun x => x.freeSlot s.cur.slot := by
  have hk : ((s.cell s.cur.cell).fibre s.cur.slot).body.kind = .task := hkind
  simp only [State.endFibre, hk]
  rfl

/-- Giving a region back changes launches alone. -/
theorem State.regionBack_eq (s : State) : s.regionBack = { s with launches := s.regionBack.launches } := by
  unfold State.regionBack
  split <;> rfl

theorem State.regionBack_of_none {s : State} (h : s.fibre.body.priv = none) : s.regionBack = s := by
  unfold State.regionBack
  rw [h]

theorem State.regions_regionBack {s : State} {base l : Nat} (hpriv : s.fibre.body.priv = some base) (hl : s.here.launch = some l) :
    (s.regionBack.launch l).regions = (s.launch l).regions.erase base := by
  unfold State.regionBack
  rw [hpriv, hl]
  simp [State.launch, State.updLaunch]

/-- A word whose meaning is the end of the fibre that acts. -/
theorem State.endsFibre_of {s : State} {i : Instr} (h : exec i s = .next s.tend) : s.EndsFibre i := by
  constructor
  · intro hout
    refine ⟨s.parkOutst, ?_, s.onlyHere_park _, s.fibre_park _⟩
    rw [h, State.tend, if_neg hout]
  · intro hout hkind hwf
    have hrest := s.regionBack_eq
    have hcell (c : Nat) : s.regionBack.cell c = s.cell c := by rw [hrest]; rfl
    have hhere : (s.regionBack.updCell s.cur.cell fun x => x.freeSlot s.cur.slot).here = s.here.freeSlot s.cur.slot := by
      rw [State.here, show (s.regionBack.updCell s.cur.cell _).cur = s.cur by rw [hrest]; rfl, State.cell_updCell_same, hcell]
      rfl
    refine ⟨_, by rw [h, State.tend, if_pos hout, s.endFibre_task hkind], ?_, fun n hn => ?_, ?_, fun c hc => ?_, ?_,
      fun hpriv => ?_, fun base l hpriv hl => ?_⟩
    · rw [hhere]; exact AMap.find_del_same _ _ hwf
    · rw [hhere]; exact AMap.find_del_ne _ hn
    · rw [hhere]; rfl
    · rw [State.cell_updCell_ne _ _ hc, hcell]
    · rw [hrest]; rfl
    · rw [State.updCell_launches, State.regionBack_of_none hpriv]
    · exact State.regions_regionBack hpriv hl

/-- A budget that stops leaves the registers and the place of a fibre as they are. -/
theorem FBody.stopBudget_kept (b : FBody) (now : Nat) :
    (b.stopBudget now).g = b.g ∧ (b.stopBudget now).pc = b.pc ∧ (b.stopBudget now).blk = b.blk := by
  unfold FBody.stopBudget
  split <;> exact ⟨rfl, rfl, rfl⟩

/-- A word whose meaning is YIELD, by whether its task is to be saved. -/
theorem State.yields_of {s : State} {i : Instr} {len : Nat} (h : exec i s = .next (s.yield len)) : s.Yields i len := by
  have hbody : (s.finish len 1).fibre.body = s.fibre.body.past len := by rw [State.fibre_finish]
  refine ⟨_, h, ?_⟩
  by_cases hsave : s.myLaunch.preempt = true ∧ s.fibre.body.kind = .task
  · obtain ⟨hg, hpc, hblk⟩ := (s.fibre.body.past len).stopBudget_kept s.now
    simp only [State.yield, if_pos hsave, State.g, State.fibre_updFibre, hbody, hg, hpc, hblk]
    refine ⟨?_, fun _ => rfl, trivial, trivial, trivial⟩
    rw [State.finish, State.updFibre_updFibre]
    exact s.onlyFibre_updFibre _
  · simp only [State.yield, if_neg hsave, hbody]
    exact ⟨s.onlyFibre_finish len 1, fun r => s.g_finish r len 1, trivial, trivial, by rw [State.fibre_finish]⟩

/-- The fields of the word that FIBID writes (06 Table 6.3). -/
theorem fibid_fields (no : W32) {i r n : Nat} (hi : i < 1024) (hr : r < 16) (hn : n < 256) :
    let v := w64 (no.toNat * 2 ^ 32 + i * 2 ^ 16 + r * 2 ^ 8 + n)
    v.extractLsb' 32 32 = no ∧ (v.extractLsb' 26 6).toNat = 0 ∧ (v.extractLsb' 16 10).toNat = i ∧
    (v.extractLsb' 12 4).toNat = 0 ∧ (v.extractLsb' 8 4).toNat = r ∧ (v.extractLsb' 0 8).toNat = n := by
  intro v
  have hno := no.isLt
  have hv : v.toNat = no.toNat * 2 ^ 32 + i * 2 ^ 16 + r * 2 ^ 8 + n := by
    rw [BitVec.toNat_ofNat]; omega
  have hfield (lo len : Nat) : (v.extractLsb' lo len).toNat = v.toNat / 2 ^ lo % 2 ^ len := by
    rw [BitVec.extractLsb'_toNat, Nat.shiftRight_eq_div_pow]
  refine ⟨BitVec.eq_of_toNat_eq ?_, ?_, ?_, ?_, ?_, ?_⟩ <;> rw [hfield, hv] <;> omega

theorem endAndYield : Sys2Proof.Says.EndAndYield := by
  intro s d
  refine ⟨State.endsFibre_of rfl, State.endsFibre_of rfl, State.yields_of rfl, State.yields_of rfl, fun hi hr hn => ?_⟩
  exact ⟨_, s.writes_of rfl, fibid_fields _ hi hr hn⟩

/-! ## The checks of a code address (06 R121, R122) -/

theorem fld_eq_zero_iff (w : Word) (hi lo : Nat) : fld w hi lo = 0 ↔ w.extractLsb' lo (hi + 1 - lo) = 0 := by
  rw [← BitVec.toNat_inj, BitVec.extractLsb'_toNat, Nat.shiftRight_eq_div_pow]
  rfl

/-- What PUSHT, SPAWN, FORKV and FORKM do with the code address `pc`: its checks, then the word's own work. -/
def State.atCode (s : State) (pc : Word) (k : State) : State :=
  if fld pc 63 60 ≠ 0 then s.trap cAPERTURE pc else if fld pc 1 0 ≠ 0 then s.trap cALIGN pc else k

section
variable {s : State} {i : Instr} {pc : Word} {k : State} (h : exec i s = .next (s.atCode pc k))
include h

theorem State.atCode_aperture (hhigh : pc.extractLsb' 60 4 ≠ 0) : s.TrapsWith i cAPERTURE pc := by
  rw [State.TrapsWith, h, State.atCode, if_pos (mt (fld_eq_zero_iff pc 63 60).mp hhigh)]

theorem State.atCode_align (hhigh : pc.extractLsb' 60 4 = 0) (hlow : pc.extractLsb' 0 2 ≠ 0) : s.TrapsWith i cALIGN pc := by
  rw [State.TrapsWith, h, State.atCode, if_neg fun hne => hne ((fld_eq_zero_iff pc 63 60).mpr hhigh),
    if_pos (mt (fld_eq_zero_iff pc 1 0).mp hlow)]

theorem State.atCode_goesOn (hhigh : pc.extractLsb' 60 4 = 0) (hlow : pc.extractLsb' 0 2 = 0) : exec i s = .next k := by
  rw [h, State.atCode, if_neg fun hne => hne ((fld_eq_zero_iff pc 63 60).mpr hhigh),
    if_neg fun hne => hne ((fld_eq_zero_iff pc 1 0).mpr hlow)]

end

/-! ## A release (12 R254) -/

/-- `t` differs from `s` in device memory, its poison and its authors, and in the sectors of L1s. -/
structure State.OnlyL1 (s t : State) : Prop where
  rest : t = { s with cells := t.cells, mem := t.mem, memPoison := t.memPoison, authors := t.authors }
  cells : ∀ c, t.cell c = { s.cell c with l1 := (t.cell c).l1 }

namespace State.OnlyL1

theorem refl (s : State) : s.OnlyL1 s := ⟨rfl, fun _ => rfl⟩

theorem trans {s t u : State} (h : s.OnlyL1 t) (k : t.OnlyL1 u) : s.OnlyL1 u where
  rest := by rw [k.rest, h.rest]
  cells := fun c => by rw [k.cells, h.cells]

theorem foldl {α : Type} {f : State → α → State} (hf : ∀ (s : State) (x : α), s.OnlyL1 (f s x)) (l : List α) (s : State) :
    s.OnlyL1 (l.foldl f s) := by
  induction l generalizing s with
  | nil => exact refl s
  | cons x l ih => exact (hf s x).trans (ih _)

theorem updL1 (s : State) (c : Nat) (f : List L1Sector → List L1Sector) :
    s.OnlyL1 (s.updCell c fun y => { y with l1 := f y.l1 }) where
  rest := rfl
  cells := fun d => by
    by_cases hd : d = c
    · rw [hd, State.cell_updCell_same]
    · rw [State.cell_updCell_ne s _ hd]

theorem flushL1 (s : State) (cells : List Nat) (want : Nat → Bool) : s.OnlyL1 (s.flushL1 cells want) := by
  refine foldl (fun s c => .trans (foldl (fun s x => ?_) _ _) (updL1 _ c _)) cells s
  split
  · exact ⟨rfl, fun _ => rfl⟩
  · exact refl s

theorem relL1 (s : State) (sc : Scope) : s.OnlyL1 (s.relL1 sc) := by
  unfold State.relL1
  split
  · exact flushL1 s _ _
  · exact refl s

variable {s t : State} (h : s.OnlyL1 t)
include h

theorem cur : t.cur = s.cur := by rw [h.rest]
theorem now : t.now = s.now := by rw [h.rest]
theorem device : t.device = s.device := by rw [h.rest]
theorem fibre : t.fibre = s.fibre := by rw [State.fibre, State.here, h.cells, h.cur]; rfl
theorem g (r : GReg) : t.g r = s.g r := by rw [State.g, h.fibre, State.g]
theorem childRec (pc : Word) : t.childRec pc = s.childOf pc := by simp only [State.childRec, h.g, State.childOf]

end State.OnlyL1

theorem State.released_goesOn {s : State} (h : s.fibre.body.outst = 0) (sc : Scope) (k : State → State) :
    s.released sc k = k (s.relL1 sc) := by
  rw [State.released, State.mayRelease, h, beq_self_eq_true, Bool.or_true, if_pos rfl]

theorem State.released_parks {s : State} (h : s.fibre.body.outst ≠ 0) (k : State → State) :
    s.released .device k = s.parkOutst := by
  have : s.mayRelease .device = false := by simpa [State.mayRelease] using h
  rw [State.released, this, if_neg Bool.false_ne_true]

/-! ## PUSHT and SPAWN (06 R121, 04 R66-R69) -/

/-- Where the deque has room the record stands at its hot end and the word goes on (04 R66). -/
theorem State.pushOrInline_room {r : State} (hroom : r.here.deque.length < 64) (x : TaskRec) :
    r.pushOrInline x = (r.updHere fun c => c.pushTask x r.now).finish 4 1 := if_pos hroom

/-- On a full deque the child runs inline (04 R69). -/
theorem State.pushOrInline_full {r : State} (hfull : 64 ≤ r.here.deque.length) (x : TaskRec) :
    r.pushOrInline x = (r.updHere fun c => c.count 19 1).updFibre fun f => f.enterInline x (r.now + 3) :=
  if_neg (Nat.not_lt.mpr hfull)

/-- A word that changes its cell beside the fibres and goes on has written no register. -/
theorem State.wroteNone_updHere_finish (s : State) (f : Cell → Cell) (hf : (f s.here).fibres = s.here.fibres) (len lat : Nat) :
    s.WroteNone ((s.updHere f).finish len lat) len lat where
  kept := fun r => by rw [State.g_finish, State.g, State.g, s.fibre_updHere f hf]
  past := by rw [State.PastWord, State.fibre_finish, s.fibre_updHere f hf]; rfl

/-- The cell of a word that changes it beside the fibres and goes on. -/
theorem State.here_updHere_finish (s : State) (f : Cell → Cell) (len lat : Nat) :
    ∃ x, ((s.updHere f).finish len lat).here = (f s.here).setFibre s.cur.slot x := by
  rw [State.finish, State.here_updFibre, State.here_updHere]
  exact ⟨_, rfl⟩

/-- The registers of a child that runs inline: its arguments in g0-g3, the link in g7 (04 R69). -/
theorem Fibre.g_enterInline (f : Fibre) (x : TaskRec) (done : Nat) :
    let g := (f.enterInline x done).body.g
    g[(0 : GReg)] = x.a0 ∧ g[(1 : GReg)] = x.a1 ∧ g[(2 : GReg)] = x.a2 ∧ g[(3 : GReg)] = x.a3 ∧
    g[(4 : GReg)] = f.body.g[(4 : GReg)] ∧ g[(5 : GReg)] = f.body.g[(5 : GReg)] ∧ g[(6 : GReg)] = f.body.g[(6 : GReg)] ∧
    g[(7 : GReg)] = f.body.bend := by
  simp only [Fibre.enterInline, Fin.getElem_fin, Vector.getElem_set]
  exact ⟨rfl, rfl, rfl, rfl, rfl, rfl, rfl, rfl⟩

theorem State.pushedOrInline (r : State) (x : TaskRec) : r.PushedOrInline (r.pushOrInline x) x := by
  rcases Nat.lt_or_ge r.here.deque.length 64 with hroom | hfull
  · rw [State.pushOrInline_room hroom]
    obtain ⟨y, hy⟩ := r.here_updHere_finish (fun c => c.pushTask x r.now) 4 1
    refine ⟨(r.onlyHere_updHere _).trans (State.onlyHere_updFibre _ _),
      fun _ => ⟨?_, r.wroteNone_updHere_finish _ rfl 4 1, ?_, fun n hn => ?_⟩, fun h => absurd hroom (Nat.not_lt.mpr h)⟩
    · rw [hy]; rfl
    · rw [hy]; rfl
    · rw [hy]; exact Cell.fibre_setFibre_ne _ _ hn
  · rw [State.pushOrInline_full hfull]
    have hfib : (r.updHere fun c => c.count 19 1).fibre = r.fibre := r.fibre_updHere _ rfl
    refine ⟨(r.onlyHere_updHere _).trans (State.onlyHere_updFibre _ _), fun h => absurd h (Nat.not_lt.mpr hfull), fun _ => ?_⟩
    obtain ⟨h0, h1, h2, h3, h4, h5, h6, h7⟩ := r.fibre.g_enterInline x (r.now + 3)
    simp only [State.g, State.fibre_updFibre, State.here_updFibre, State.here_updHere, hfib]
    exact ⟨rfl, h0, h1, h2, h3, h4, h5, h6, h7, rfl, rfl, rfl⟩

theorem exec_pusht (a : GReg) (s : State) :
    exec (.pusht a) s = .next (s.atCode (s.g a) (s.released .device fun u => u.pushOrInline (u.childRec (s.g a)))) := rfl

/-- What a SPAWN to cell `c` does once its release has been performed: the record is sent there and the word parks. -/
def State.spawnTo (s : State) (w pc : Word) (c : Nat) : State :=
  if c = s.cur.cell then s.pushOrInline (s.childRec pc)
  else
    (s.park (.spawn s.nextId w (s.childRec pc) 4)).send (.cell s.cur.cell) (.cell c) .request
      (.spawn { dev := s.device, cell := s.cur.cell, slot := s.cur.slot, fid := s.fibre.body.fid, id := s.nextId }
        (s.childRec pc))

/-- What a SPAWN of the child at `pc` to the cell that `w` names does. -/
def State.spawnWork (s : State) (b : GReg) (pc : Word) : State :=
  match s.spawnTarget (s.g b) with
  | none => s.trap cAPERTURE (s.g b)
  | some c => s.released .device fun u => u.spawnTo (u.g b) pc c

theorem exec_spawn (a b : GReg) (s : State) : exec (.spawn a b) s = .next (s.atCode (s.g a) (s.spawnWork b (s.g a))) := rfl

theorem State.spawnWork_none {s : State} {b : GReg} (h : s.spawnTarget (s.g b) = none) (pc : Word) :
    s.spawnWork b pc = s.trap cAPERTURE (s.g b) := by rw [State.spawnWork, h]

theorem State.spawnWork_some {s : State} {b : GReg} {c : Nat} (h : s.spawnTarget (s.g b) = some c)
    (hout : s.fibre.body.outst = 0) (pc : Word) : s.spawnWork b pc = (s.relL1 .device).spawnTo ((s.relL1 .device).g b) pc c := by
  rw [State.spawnWork, h]
  exact State.released_goesOn hout _ _

/-- A SPAWN to another cell sends the record and waits for the answer there (04 R69). -/
theorem State.spawnTo_other {s r : State} (hr : s.OnlyL1 r) {c : Nat} (hc : c ≠ s.cur.cell) (w pc : Word) :
    ∃ m, (r.spawnTo w pc c).net = r.net ++ [m] ∧ m.dst = .cell c ∧
      m.body = .spawn { dev := s.device, cell := s.cur.cell, slot := s.cur.slot, fid := s.fibre.body.fid, id := r.nextId }
        (s.childOf pc) ∧
      (r.spawnTo w pc c).fibre.status = .parked (.spawn r.nextId w (s.childOf pc) 4) s.now ∧
      (r.spawnTo w pc c).fibre.body = s.fibre.body ∧ (r.spawnTo w pc c).mem = r.mem ∧
      ∀ x, x ≠ s.cur.cell → (r.spawnTo w pc c).cell x = r.cell x := by
  obtain ⟨hbody, hstatus⟩ := r.fibre_park (.spawn r.nextId w (s.childOf pc) 4)
  simp only [State.spawnTo, hr.childRec, hr.cur, hr.device, hr.fibre, if_neg hc]
  refine ⟨_, rfl, rfl, rfl, ?_, ?_, rfl, fun x hx => ?_⟩
  · rw [← hr.now]; exact hstatus
  · rw [← hr.fibre]; exact hbody
  · exact (r.onlyHere_park _).cells x (hr.cur ▸ hx)

theorem pushAndSpawn : Sys2Proof.Says.PushAndSpawn := by
  intro s a b
  have hr := State.OnlyL1.relL1 s .device
  refine ⟨fun hhigh => ⟨State.atCode_aperture (exec_pusht a s) hhigh, State.atCode_aperture (exec_spawn a b s) hhigh⟩,
    fun hhigh hlow => ⟨State.atCode_align (exec_pusht a s) hhigh hlow, State.atCode_align (exec_spawn a b s) hhigh hlow⟩,
    fun hhigh hlow => ?_⟩
  have hpusht := State.atCode_goesOn (exec_pusht a s) hhigh hlow
  have hspawn := State.atCode_goesOn (exec_spawn a b s) hhigh hlow
  refine ⟨fun hout => ⟨_, hpusht, ?_⟩, fun hout => ⟨_, hpusht, ?_⟩, fun htarget => ?_, fun hout htarget => ⟨_, hspawn, ?_⟩,
    fun c hout htarget hc => ?_⟩
  · rw [State.released_goesOn hout, hr.childRec]
    exact State.pushedOrInline _ _
  · rw [State.released_parks hout, State.parkOutst, State.here_park]
    exact ⟨rfl, (s.fibre_park _).2⟩
  · rw [State.TrapsWith, hspawn, State.spawnWork_none htarget]
  · rw [State.spawnWork_some htarget hout, State.spawnTo, hr.cur, if_pos rfl, hr.childRec]
    exact State.pushedOrInline _ _
  · obtain ⟨m, hm⟩ := State.spawnTo_other hr hc (s.g b) (s.g a)
    exact ⟨_, m, by rw [hspawn, State.spawnWork_some htarget hout, hr.g], hm⟩

/-! ## FORKV and FORKM (06 R122) -/

/-- The wait of a fork for room in the queue of an engine. -/
def forkCond (st : Stream) : Cond := if st = .m then .forkM else .forkV

/-- What a fork to an engine does with a code address that is good. -/
def State.forkWork (s : State) (st : Stream) (a : Word) : State :=
  if 4 ≤ (s.here.engOf st).forks.length ∨ s.behind (forkCond st) then s.park (.retry (forkCond st) 12 a)
  else
    (s.updHere fun c => c.updEngOf st fun e =>
      { e with forks := e.forks ++ [{ pc := a, a0 := s.g 0, a1 := s.g 1, a2 := s.g 2, a3 := s.g 3 }] }).finish 4 1

/-- A fork to a full queue waits for room. -/
theorem State.forkWork_full {s : State} {st : Stream} (hfull : 4 ≤ (s.here.engOf st).forks.length) (a : Word) :
    s.forkWork st a = s.park (.retry (forkCond st) 12 a) := if_pos (.inl hfull)

theorem exec_fork (s : State) (a : GReg) {st : Stream} (hst : st ≠ .s) :
    exec (if st = .m then .forkm a else .forkv a) s = .next (s.atCode (s.g a) (s.forkWork st (s.g a))) := by
  cases st
  · exact absurd rfl hst
  · rfl
  · rfl

theorem Cell.engOf_updEngOf (c : Cell) (st : Stream) (f : Engine → Engine) : (c.updEngOf st f).engOf st = f (c.engOf st) := by
  cases st <;> rfl

/-- A change of an engine leaves what is not in the units of its cell alone. -/
theorem Cell.updEngOf_eq (c : Cell) (st : Stream) (f : Engine → Engine) :
    c.updEngOf st f = { c with v := (c.updEngOf st f).v, m := (c.updEngOf st f).m } := by
  cases st <;> rfl

theorem Cell.engOf_setFibre (c : Cell) (n : Nat) (f : Fibre) (st : Stream) : (c.setFibre n f).engOf st = c.engOf st := by
  cases st <;> rfl

/-- A word that changes the queue of an engine and goes on. -/
theorem State.updEngOf_goesOn (s : State) (st : Stream) (f : Engine → Engine) :
    let t := (s.updHere fun c => c.updEngOf st f).finish 4 1
    s.OnlyHere t ∧ s.WroteNone t 4 1 ∧ t.here.engOf st = f (s.here.engOf st) ∧ t.here.spad = s.here.spad ∧
    t.here.k = s.here.k ∧ ∀ n, n ≠ s.cur.slot → t.here.fibre n = s.here.fibre n := by
  intro t
  have hunits := s.here.updEngOf_eq st f
  have hfibres : (s.here.updEngOf st f).fibres = s.here.fibres := by rw [hunits]
  obtain ⟨x, hx⟩ := s.here_updHere_finish (fun c => c.updEngOf st f) 4 1
  refine ⟨(s.onlyHere_updHere _).trans (State.onlyHere_updFibre _ _), s.wroteNone_updHere_finish _ hfibres 4 1, ?_, ?_, ?_,
    fun n hn => ?_⟩
  · rw [hx, Cell.engOf_setFibre, Cell.engOf_updEngOf]
  · rw [hx, hunits]; rfl
  · rw [hx, hunits]; rfl
  · rw [hx, Cell.fibre_setFibre_ne _ _ hn, hunits]; rfl

theorem forks : Sys2Proof.Says.Forks := by
  intro s a st hst
  have hexec := exec_fork s a hst
  refine ⟨State.atCode_aperture hexec, State.atCode_align hexec, fun hhigh hlow => ?_⟩
  have hgoes := State.atCode_goesOn hexec hhigh hlow
  refine ⟨fun hroom hfirst => ?_, fun hfull => ?_⟩
  · have hnot : ¬(4 ≤ (s.here.engOf st).forks.length ∨ s.behind (forkCond st) = true) :=
      not_or.mpr ⟨Nat.not_le.mpr hroom, Bool.eq_false_iff.mp hfirst⟩
    exact ⟨_, hgoes.trans (congrArg _ (if_neg hnot)), s.updEngOf_goesOn st _⟩
  · obtain ⟨hbody, hstatus⟩ := s.fibre_park (.retry (forkCond st) 12 (s.g a))
    refine ⟨_, hgoes.trans (congrArg _ (State.forkWork_full hfull _)), s.onlyHere_park _, ?_, hstatus, hbody⟩
    rw [State.here_park]
    cases st <;> rfl

/-- Settles O5 from its three parts. -/
theorem fibreWords : Obligations.FibreWords := by
  unfold Obligations.FibreWords
  exact ⟨endAndYield, pushAndSpawn, forks⟩

end Sys2Proof.Machine
end
